-- ==== Sys2Proof/Word.lean ====
section
/-!
DEFINITION. The word types of the module and the status codes of R75.
-/

namespace Sys2Proof

/-- One byte. -/
abbrev Byte := BitVec 8

/-- A 32-bit register of BAR0 (R465). -/
abbrev Word := BitVec 32

/-- A 64-bit scalar register (R66). -/
abbrev DWord := BitVec 64

namespace Machine

/-- A sparse table keyed by a number, kept in strictly rising key order. -/
abbrev SMap (α : Type) := List (Nat × α)

/-- The status codes of R75, each with the same meaning wherever it appears (R12). -/
inductive Code where
  | ok | badOpcode | badField | range | align | state | noResource | notMapped
  | protection | poison | timeout | aborted | halted | busy | version | digest
  | media | link | completionBlocked | signature
deriving DecidableEq, Repr

end Machine

end Sys2Proof
end

