-- ==== Sys2Proof/Syntax.lean ====
section
/-!
DEFINITION. The commands of the module and their operands.
-/

namespace Sys2Proof

/-- Physical core number 16 * (37 * d + i) + c of R97. -/
abbrev CoreId := Fin 2368

/-- The first word of a Linzal instruction but for CLASS and FUNC, which the row gives (R70). -/
structure IWord where
  dst : BitVec 6
  src1 : BitVec 6
  src2 : BitVec 6
  /-- Dependence mark. -/
  dep : Bool
  /-- Yield point. -/
  yld : Bool
  imm : BitVec 32
deriving DecidableEq, Repr

/-- Where a register write or read comes from (R459): BAR0 through a host port from a function, an entry
of a command queue, or management. -/
inductive Src where
  | host (port : Fin 2) (fn : Fin 64)
  | entry
  | mgmt
deriving DecidableEq, Repr

/-- A stream whose translation is walked apart from its request (R311). -/
inductive StreamId where
  | core (c : CoreId)
  | dma (c : CoreId) (slot : Fin 16)
  | copy (e : Fin 16)
deriving DecidableEq, Repr

/-- The symbols of a cistern access that are read otherwise than they were written, each with the bits that differ
(R239 to R241). -/
abbrev AccessErr := List (Fin 36 × BitVec 16)

/-- Eye margins of the cistern's lanes in percent of the unit interval (R244, R245): that of every lane not listed,
and of lanes by sub-channel (2 * channel + sub-channel) and lane, 12 being the spare. -/
structure Eyes where
  rest : Nat
  lanes : List (Fin 96 × Fin 13 × Nat)
deriving DecidableEq, Repr

/-- The start of a DMA descriptor: its slot, and by how many granules it goes on before other agents act, all of them without
a number (R291). -/
structure DescStart where
  slot : Fin 16
  quota : Option Nat
deriving DecidableEq, Repr

/-- The start of a copy job: its number, and by how many pieces it goes on before other agents act, likewise (R291). -/
structure JobStart where
  job : Nat
  quota : Option Nat
deriving DecidableEq, Repr

/-- A minute of a unit: its instance, and the errors of a die's memories that the die's codes corrected in it (R414, R422). -/
structure UnitMinute where
  inst : Nat
  corrected : Nat
deriving DecidableEq, Repr

/-- What a port comes up with: CXL, and the VFs that its configuration space enables, by number (R374, R375). -/
structure PortLink where
  cxl : Bool
  vfs : BitVec 64
deriving DecidableEq, Repr

/-- A Turlis packet (R396). -/
structure Packet where
  dst : Nat
  hops : Nat
  src : Nat
  type : Nat
  pool : Bool
  tag : Nat
  pmask : Nat
  addr : Nat
  arg : Nat
  body : List Byte
deriving DecidableEq, Repr

/-- A page that a migration brings from another node (R217): number, kind, instar, contents and poisoned
granules. -/
structure MovedPage where
  page : Nat
  loc : Bool
  packed : Bool
  inst : Nat
  data : List Byte
  poison : List Nat
deriving DecidableEq, Repr

/-- A shadow that a migration brings from another node (R217). -/
structure MovedShadow where
  row : Nat
  inst : Nat
  vec : List Word
deriving DecidableEq, Repr

/-- A flit as the FEC layer hands it on (R390, R391): codewords that it corrected and that it could not, and its 256
bytes. -/
structure Flit where
  corrected : Nat
  bad : Nat
  bytes : List Byte
deriving DecidableEq, Repr

/-- A firmware image of a slot (R454, R455): the fields of its header that the boot ROM checks, whether the header's zero
fields are zero, whether the digest of its public key is the one in fuses and its signature verifies under that key, and
its firmware digest. -/
structure FwImage where
  magic : BitVec 32
  format : BitVec 16
  zeros : Bool
  svn : BitVec 32
  length : BitVec 32
  keyOk : Bool
  sigOk : Bool
  digest : List Byte
deriving DecidableEq, Repr

/-- A topology entry (R457): VALID, whether its CRC-32C holds, the node, the neighbours of the links as node and
link, the routing entries by node, and its digest. -/
structure TopoEntry where
  valid : Bool
  crcOk : Bool
  node : BitVec 12
  nbrs : List (Nat × Nat)
  routes : List (Nat × BitVec 13)
  digest : List Byte
deriving DecidableEq, Repr

/-- A partition table (R457): the 64 bytes of it that are used. -/
structure PartTable where
  bytes : List Byte
deriving DecidableEq, Repr

/-- A component of a firmware update (R453, R454). -/
inductive FwComponent where
  | image (i : FwImage)
  | topology (table : List (Nat × TopoEntry))
  | partition (p : PartTable)
deriving DecidableEq, Repr

/-- What the training and the self-tests of a boot or a warm reset find (R244, R256, R431, R433): the margins of the
cistern's lanes, Q dies whose spare fails its self-test, cores whose arrays fail, and the units, by section kind and
number, that do not answer the capture of the device record (R430). -/
structure BootTests where
  eyes : Eyes
  spareFail : List (Fin 4)
  coreFail : List CoreId
  missing : List (Nat × Nat)
deriving DecidableEq, Repr

/-- Sensor readings in °C (R446): the hottest junction of each die, the LPDDR6 packages, the NAND packages, and
the cold-plate inlet. -/
structure Temps where
  dies : List Nat
  mem : List Nat
  nand : List Nat
  inlet : Nat
deriving DecidableEq, Repr

/-- The ageing measurements of a maintenance point (R448): slack of the worst core of each logical cluster in ps,
eye margins of the links' lanes and of the cistern's lanes in percent, the read-level drift of the
well's halves, and the hold-up time in 0.1 ms. -/
structure Measures where
  slack : List Int
  lanes : List (Nat × Nat)
  cistern : Eyes
  drift : Int × Int
  holdup : Nat
deriving DecidableEq, Repr

/-- An instruction of the test access port (R480). -/
inductive TapOp where
  | bypass | idcode
  | other (code : Nat)
deriving DecidableEq, Repr

/-- The commands of the module: one constructor per row of spec/opcode_table.json, in its order. -/
inductive Instr where
  /-- REGISTER_WRITE (R7): A write to a register with no row of its own is accepted or rejected as a whole, and its status is recorded in the set's last-write-status register. -/
  | registerWrite (src : Src) (off : BitVec 26) (size : Nat) (v : DWord)
  /-- DIGEST_FOLD (R459): A waiting configuration-write record is folded into the configuration digest D, and N rises by one. -/
  | digestFold
  /-- NOP (R87): Does nothing. -/
  | nop (c : CoreId) (w : IWord)
  /-- ADD (R87): Adds two scalar registers modulo 2^64. -/
  | add (c : CoreId) (w : IWord)
  /-- SUB (R87): Subtracts two scalar registers modulo 2^64. -/
  | sub (c : CoreId) (w : IWord)
  /-- MUL (R87): Writes the low 64 bits of the product of two scalar registers. -/
  | mul (c : CoreId) (w : IWord)
  /-- MULH (R87): Writes the high 64 bits of the signed 128-bit product. -/
  | mulh (c : CoreId) (w : IWord)
  /-- AND (R87): Bitwise and of two scalar registers. -/
  | andI (c : CoreId) (w : IWord)
  /-- OR (R87): Bitwise or of two scalar registers. -/
  | orI (c : CoreId) (w : IWord)
  /-- XOR (R87): Bitwise exclusive or of two scalar registers. -/
  | xor (c : CoreId) (w : IWord)
  /-- SHL (R87): Shifts left by a register amount. -/
  | shl (c : CoreId) (w : IWord)
  /-- SHR (R87): Logical shift right by a register amount. -/
  | shr (c : CoreId) (w : IWord)
  /-- SRA (R87): Arithmetic shift right by a register amount. -/
  | sra (c : CoreId) (w : IWord)
  /-- MIN (R87): Signed minimum of two scalar registers. -/
  | minI (c : CoreId) (w : IWord)
  /-- MAX (R87): Signed maximum of two scalar registers. -/
  | maxI (c : CoreId) (w : IWord)
  /-- ADDI (R87): Adds a sign-extended immediate to a scalar register. -/
  | addi (c : CoreId) (w : IWord)
  /-- ANDI (R87): Ands a scalar register with a zero-extended immediate. -/
  | andi (c : CoreId) (w : IWord)
  /-- SHLI (R87): Shifts left by an immediate amount. -/
  | shli (c : CoreId) (w : IWord)
  /-- SHRI (R87): Logical shift right by an immediate amount. -/
  | shri (c : CoreId) (w : IWord)
  /-- LDI (R87): Loads a sign-extended immediate into a scalar register. -/
  | ldi (c : CoreId) (w : IWord)
  /-- LHI (R87): Loads the immediate into bits 63:32 of a scalar register. -/
  | lhi (c : CoreId) (w : IWord)
  /-- LDP (R86): Resolves a parameter slot, following any indirection, into a scalar register. -/
  | ldp (c : CoreId) (w : IWord)
  /-- CMP (R87): Sets a predicate from a condition applied to two scalar registers. -/
  | cmp (c : CoreId) (w : IWord)
  /-- CMPI (R87): Sets a predicate from a condition applied to a register and an immediate. -/
  | cmpi (c : CoreId) (w : IWord)
  /-- SEL (R87): Selects one of two scalar registers by a predicate. -/
  | sel (c : CoreId) (w : IWord)
  /-- PLG (R87): Combines two predicates by a logical operation. -/
  | plg (c : CoreId) (w : IWord)
  /-- FADD (R87): FP32 addition. -/
  | fadd (c : CoreId) (w : IWord)
  /-- FSUB (R87): FP32 subtraction. -/
  | fsub (c : CoreId) (w : IWord)
  /-- FMUL (R87): FP32 multiplication. -/
  | fmul (c : CoreId) (w : IWord)
  /-- FMA (R87): FP32 fused multiply-add rounded once. -/
  | fma (c : CoreId) (w : IWord)
  /-- FCI (R87): Converts a signed 64-bit integer to FP32. -/
  | fci (c : CoreId) (w : IWord)
  /-- FCF (R87): Converts FP32 to a signed 64-bit integer toward zero, with saturation. -/
  | fcf (c : CoreId) (w : IWord)
  /-- BR (R88): Branches by a word offset. -/
  | br (c : CoreId) (w : IWord)
  /-- BRT (R88): Branches when a predicate is 1. -/
  | brt (c : CoreId) (w : IWord)
  /-- BRF (R88): Branches when a predicate is 0. -/
  | brf (c : CoreId) (w : IWord)
  /-- BAL (R88): Saves the return address and branches. -/
  | bal (c : CoreId) (w : IWord)
  /-- JR (R88): Jumps to the address in a register, which must be a multiple of 8. -/
  | jr (c : CoreId) (w : IWord)
  /-- JAL (R88): Saves the return address and jumps to a register address. -/
  | jal (c : CoreId) (w : IWord)
  /-- DBN (R88): Decrements a register and branches while the result is not zero. -/
  | dbn (c : CoreId) (w : IWord)
  /-- LDB (R89): Loads 1 byte of device memory, zero-extended. -/
  | ldb (c : CoreId) (w : IWord)
  /-- LDH (R89): Loads 2 bytes of device memory, zero-extended. -/
  | ldh (c : CoreId) (w : IWord)
  /-- LDW (R89): Loads 4 bytes of device memory, zero-extended. -/
  | ldw (c : CoreId) (w : IWord)
  /-- LDD (R89): Loads 8 bytes of device memory. -/
  | ldd (c : CoreId) (w : IWord)
  /-- LXB (R89): Loads 1 byte of device memory, sign-extended. -/
  | lxb (c : CoreId) (w : IWord)
  /-- LXH (R89): Loads 2 bytes of device memory, sign-extended. -/
  | lxh (c : CoreId) (w : IWord)
  /-- LXW (R89): Loads 4 bytes of device memory, sign-extended. -/
  | lxw (c : CoreId) (w : IWord)
  /-- STB (R89): Stores 1 byte to device memory. -/
  | stb (c : CoreId) (w : IWord)
  /-- STH (R89): Stores 2 bytes to device memory. -/
  | sth (c : CoreId) (w : IWord)
  /-- STW (R89): Stores 4 bytes to device memory. -/
  | stw (c : CoreId) (w : IWord)
  /-- STD (R89): Stores 8 bytes to device memory. -/
  | std (c : CoreId) (w : IWord)
  /-- LSW (R287): Loads 4 bytes from the core's scratchpad. -/
  | lsw (c : CoreId) (w : IWord)
  /-- LSD (R287): Loads 8 bytes from the core's scratchpad. -/
  | lsd (c : CoreId) (w : IWord)
  /-- SSW (R287): Stores 4 bytes to the core's scratchpad. -/
  | ssw (c : CoreId) (w : IWord)
  /-- SSD (R287): Stores 8 bytes to the core's scratchpad. -/
  | ssd (c : CoreId) (w : IWord)
  /-- AAD (R90): Atomically adds to 8 bytes of local cistern and returns the old value. -/
  | aad (c : CoreId) (w : IWord)
  /-- ACS (R90): Atomic compare-and-swap on 8 bytes of local cistern. -/
  | acs (c : CoreId) (w : IWord)
  /-- ASW (R90): Atomic exchange of 8 bytes of local cistern. -/
  | asw (c : CoreId) (w : IWord)
  /-- INV (R292): Invalidates the data-cache lines that overlap a byte range. -/
  | inv (c : CoreId) (w : IWord)
  /-- INA (R292): Invalidates the whole data cache. -/
  | ina (c : CoreId) (w : IWord)
  /-- LOAD_DATA_RETURN (R286): Data of a control-core load, atomic or descriptor load that missed the data cache returns and the destination register is written. -/
  | loadDataReturn (c : CoreId)
  /-- CORE_HALT_REEXECUTE (R494): A control core halted on its own translation fault re-executes the instruction once the fault record is completed with OK. -/
  | coreHaltReexecute (c : CoreId)
  /-- TLD (R68): Loads a 32-byte tensor descriptor from device memory. -/
  | tld (c : CoreId) (w : IWord)
  /-- TLS (R68): Loads a 32-byte tensor descriptor from scratchpad. -/
  | tls (c : CoreId) (w : IWord)
  /-- TST (R68): Stores a tensor descriptor to device memory. -/
  | tst (c : CoreId) (w : IWord)
  /-- TSS (R68): Stores a tensor descriptor to scratchpad. -/
  | tss (c : CoreId) (w : IWord)
  /-- TMV (R68): Copies one tensor descriptor register to another. -/
  | tmv (c : CoreId) (w : IWord)
  /-- TSF (R91): Sets one field of a tensor descriptor from a scalar register. -/
  | tsf (c : CoreId) (w : IWord)
  /-- TGF (R91): Reads one field of a tensor descriptor into a scalar register. -/
  | tgf (c : CoreId) (w : IWord)
  /-- TOF (R68): Adds a scalar register to a descriptor's BASE modulo 2^57. -/
  | tof (c : CoreId) (w : IWord)
  /-- TLP (R86): Loads a descriptor from four consecutive parameter slots. -/
  | tlp (c : CoreId) (w : IWord)
  /-- TCK (R69): Checks a descriptor against the checks at use for a role and returns the code. -/
  | tck (c : CoreId) (w : IWord)
  /-- WLD (R103): Dispatches a weight tile load into the shadows of the named arrays. -/
  | wld (c : CoreId) (w : IWord)
  /-- MST (R105): Dispatches a stream of activation rows through the active tiles into a bank or the chain. -/
  | mst (c : CoreId) (w : IWord)
  /-- MDR (R108): Dispatches a drain of bank rows to scratchpad. -/
  | mdr (c : CoreId) (w : IWord)
  /-- MTF (R109): Reads the tile flags of all eight banks into a scalar register after earlier matrix instructions complete. -/
  | mtf (c : CoreId) (w : IWord)
  /-- INPUT_STATIONARY (R126): Runs an input-stationary pass in keeper-started test programs only. -/
  | inputStationary (c : CoreId) (w : DWord)
  /-- MATRIX_START (R113): A queued matrix instruction starts once its path is free and its hazards, feed demand and duty allow. -/
  | matrixStart (c : CoreId)
  /-- WLD_LOAD_DONE (R103): A weight load completes and the shadows of the named arrays become ready, or are left empty on a bad residual list. -/
  | wldLoadDone (c : CoreId)
  /-- MATRIX_COMPLETE (R118): All results of a matrix instruction are in the bank or forwarded, Λ cycles after the stream path is released. -/
  | matrixComplete (c : CoreId)
  /-- VCH (R128): Dispatches a vector-chain pass configured by its chain word. -/
  | vch (c : CoreId) (w : IWord) (w2 : DWord)
  /-- VCH_START (R149): A queued VCH starts once the previous one has entered its last element and its hazards are clear. -/
  | vchStart (c : CoreId)
  /-- VCH_COMPLETE (R151): Outputs, row results, map bytes and residual entries are written Λv cycles after the last element enters. -/
  | vchComplete (c : CoreId)
  /-- DMA (R158): Dispatches a copy between scratchpad and device memory as a DMA descriptor. -/
  | dma (c : CoreId) (w : IWord)
  /-- FIL (R159): Dispatches a fill of a scratchpad tensor with a pattern. -/
  | fil (c : CoreId) (w : IWord)
  /-- SCP (R159): Dispatches a copy between two scratchpad tensors. -/
  | scp (c : CoreId) (w : IWord)
  /-- DMA_DESC_START (R161): An outstanding descriptor starts once no older overlapping descriptor or earlier hazard holds it. -/
  | dmaDescStart (c : CoreId) (start : DescStart)
  /-- DMA_SHORT_HOLD_EXPIRE (R165): The 24 ns hold of a descriptor below the minimum efficient size ends and its first request issues. -/
  | dmaShortHoldExpire (c : CoreId) (slot : Fin 16)
  /-- DMA_DESC_COMPLETE (R283): A descriptor completes when its writes are complete for its target. -/
  | dmaDescComplete (c : CoreId) (slot : Fin 16)
  /-- DMA_RESUME (R176): A halted descriptor resumes from element DONE after its fault record is completed with OK. -/
  | dmaResume (c : CoreId) (slot : Fin 16)
  /-- DMA_HALT_TIMEOUT (R176): A descriptor halted longer than DMA_HALT_LIMIT ends with TIMEOUT and its launch with it. -/
  | dmaHaltTimeout (st : StreamId)
  /-- REMOTE_WRITE_RETRY (R403): A sender's agent retries a scratchpad-window write refused with BUSY every 2 µs. -/
  | remoteWriteRetry (tag : Nat)
  /-- REMOTE_WRITE_RETRY_LIMIT (R170): After 100 µs of refusals the sending descriptor ends with PROTECTION. -/
  | remoteWriteRetryLimit (tag : Nat)
  /-- LKP (R187): Dispatches a gather, sum or mean lookup over bags of rows of a pinned table. -/
  | lkp (c : CoreId) (w : IWord) (w2 : DWord)
  /-- LKU (R190): Dispatches atomic adds of update vectors to rows of a pinned table. -/
  | lku (c : CoreId) (w : IWord) (w2 : DWord)
  /-- PART (R197): A home engine takes a part, local or by PART packet, pools its rows and returns a partial sum. -/
  | part (e : Fin 64) (pkt : Option Packet)
  /-- PSUM (R197): A partial sum arrives at the bag combiner and is added to its bag; the bag is written when complete. -/
  | psum (c : CoreId) (pkt : Option Packet)
  /-- UPDATE (R231): A home engine applies an add, local or from an UPDATE packet, to a row or its shadow and acknowledges it. -/
  | update (e : Fin 64) (pkt : Option Packet)
  /-- UACK (R196): An add acknowledgement arrives; the LKU completes when all are in. -/
  | uack (link : Fin 36) (pkt : Packet)
  /-- ROW_PAGE_INSTALL (R213): A decoded codeword from the well is installed in the row-page cache and every waiter is answered. -/
  | rowPageInstall (h : Fin 2)
  /-- REGISTER (R177): Registers a table from the staged descriptor under a TID. -/
  | register (src : Src) (v : Word)
  /-- RETIRE (R181): Removes a table, dropping its pages, shadows and directory entries and trimming its LPNs. -/
  | retire (src : Src) (v : Word)
  /-- CMS_HASH_COMMIT (R200): A write to B_HI commits the staged hash constants A_d and B_d together. -/
  | cmsHashCommit (src : Src) (d : Fin 4) (v : Word)
  /-- CMS_SET_ENABLE (R200): Enabling a sketch set zeroes its counters and candidates. -/
  | cmsSetEnable (src : Src) (n : Fin 64) (k : Fin 16) (v : Word)
  /-- CMS_SNAP (R202): Starts a snapshot of an engine's enabled sketch sets into its buffer. -/
  | cmsSnap (src : Src) (n : Fin 64) (v : Word)
  /-- CMS_SNAP_DONE (R202): A snapshot ends, counters are halved or cleared, and buffered accesses are counted. -/
  | cmsSnapDone (n : Fin 64)
  /-- HOT_LOAD (R204): Starts a load of the inactive hot-row half from a hot list. -/
  | hotLoad (src : Src) (n : Fin 64) (v : Word)
  /-- HOT_LOAD_DONE (R204): A hot load ends and the engine reads READY. -/
  | hotLoadDone (n : Fin 64)
  /-- HOT_SWITCH (R205): Exchanges the active and inactive hot-row halves. -/
  | hotSwitch (src : Src) (n : Fin 64) (v : Word)
  /-- PLACE (R209): Sets the placement of a table's current instar. -/
  | place (src : Src) (v : Word)
  /-- WRITE_ROWS (R223): Writes rows from a batch in the cistern into the current or building instar. -/
  | writeRows (src : Src) (v : Word)
  /-- WRITE_ROWS_DONE (R223): A WRITE_ROWS ends and LKE_LC_STATE shows DONE with its result and skip count. -/
  | writeRowsDone
  /-- BEGIN (R224): Creates a new instar in state BUILDING, cloned or zero. -/
  | begin (src : Src) (v : Word)
  /-- SEAL (R225): Moves a BUILDING instar to SEALED. -/
  | seal (src : Src) (v : Word)
  /-- ADVANCE (R227): Makes a SEALED instar current and the old one RETIRING or RETIRING_HELD. -/
  | advance (src : Src) (v : Word)
  /-- RELEASE (R228): Allows a RETIRING_HELD instar to retire once its pins are zero. -/
  | release (src : Src) (v : Word)
  /-- ABANDON (R225): Removes a BUILDING or SEALED instar. -/
  | abandon (src : Src) (v : Word)
  /-- INSTAR_RETIRE (R228): An instar whose retirement conditions are met is retired and OSTATE reads NONE. -/
  | instarRetire (tid : Fin 1024)
  /-- MIGRATE (R217): Starts moving a row group to a destination engine in a migration slot. -/
  | migrate (src : Src) (v : Word) (full : Bool)
  /-- MIGRATION_PASS_END (R218): A copy pass ends and either another pass starts, cut-over begins, or the migration times out after 64 passes. -/
  | migrationPassEnd (m : Fin 8) (code : Machine.Code)
  /-- MIGRATION_CUTOVER_DONE (R218): The last marked pages are copied, the entry becomes FORWARD, held parts are sent and hot copies dropped. -/
  | migrationCutoverDone (m : Fin 8)
  /-- MIG_SLOT_ACK (R217): Writing ACK frees a migration slot in DONE or FAILED. -/
  | migSlotAck (src : Src) (m : Fin 8) (v : Word)
  /-- DIRSET (R216): Sets a HOME or REMOTE row-directory entry. -/
  | dirset (src : Src) (v : Word)
  /-- DIRCLR (R216): Removes a row-directory entry. -/
  | dirclr (src : Src) (v : Word)
  /-- FOLD (R230): Folds every shadow of a table into its rows. -/
  | fold (src : Src) (v : Word)
  /-- FOLD_DONE (R229): A FOLD ends with its result in LKE_LC_STATE. -/
  | foldDone
  /-- FLUSH (R236): Folds every shadow and writes back every dirty page whatever the tokens. -/
  | flush (src : Src) (v : Word)
  /-- FLUSH_DONE (R236): The well holds every change made before FLUSH and DONE is shown. -/
  | flushDone
  /-- SHADOW_FOLD_TIMER (R230): A shadow that has existed for PERIOD is folded into its row. -/
  | shadowFoldTimer
  /-- PAGE_WRITE_BACK (R234): The dirty page first in log order is written back once its age and the tokens allow. -/
  | pageWriteBack
  /-- GOVERNOR_OVERPACE (R235): An add held 10 ms by the dirty limit makes the governor write back above its pace. -/
  | governorOverpace
  /-- CISTERN_REQUEST (R243): A channel accepts and performs a cistern request, correcting or poisoning on error. -/
  | cisternRequest (ch : Fin 48) (off : Nat) (data : Option (List Byte)) (err : AccessErr)
  /-- WRITE_TURN_TIMEOUT (R251): A write that has waited 2 µs forces its sub-channel to turn to writes. -/
  | writeTurnTimeout (ch : Fin 48) (sub : Fin 2)
  /-- PATROL_SCRUB (R242): The patrol scrub reads the next access and handles its errors. -/
  | patrolScrub (err : AccessErr)
  /-- POOL_SET (R254): Configures an allocator pool from the staged descriptor. -/
  | poolSet (src : Src) (v : Word)
  /-- POOL_CLEAR (R254): Unconfigures an allocator pool. -/
  | poolClear (src : Src) (v : Word)
  /-- RESET_CTX (R254): Frees every block of every pool of a context. -/
  | resetCtx (src : Src) (v : Word)
  /-- ALC (R92): Allocates a block of a fitting size class from a pool. -/
  | alc (c : CoreId) (w : IWord)
  /-- FRE (R93): Returns a block to its pool. -/
  | fre (c : CoreId) (w : IWord)
  /-- WELL_READ (R263): A well half takes a READ of one LPN. -/
  | wellRead (h : Fin 2)
  /-- WELL_WRITE (R263): A well half takes a WRITE of one LPN and acknowledges it from the buffer or after programming. -/
  | wellWrite (h : Fin 2)
  /-- WELL_TRIM (R262): A well half takes a TRIM of one LPN. -/
  | wellTrim (h : Fin 2)
  /-- NAND_READ_DONE (R275): A NAND read completes and is decoded, moving along the retry ladder or reconstruction, or marking the LPN lost. -/
  | nandReadDone (h : Fin 2) (lpn : Nat) (ok : Bool)
  /-- NAND_PROGRAM_DONE (R273): A stripe-page program completes, acknowledging writes, or fails and is rewritten elsewhere. -/
  | nandProgramDone (h : Fin 2) (fail : Option (Fin 16 × Fin 4))
  /-- NAND_ERASE_DONE (R264): A block erase completes, or fails and the block becomes a grown bad block. -/
  | nandEraseDone (h : Fin 2) (fail : Option (Fin 16))
  /-- RECLAIM (R266): Reclaim moves the valid codewords of the emptiest stripe blocks when free blocks fall below 2 %. -/
  | reclaim (h : Fin 2)
  /-- WEAR_LEVEL (R267): Cold codewords are moved into the most worn free blocks when erase counts differ by over 300. -/
  | wearLevel (h : Fin 2)
  /-- JOURNAL_WRITE (R266): The translation journal is written to flash at least every 1 ms. -/
  | journalWrite (h : Fin 2)
  /-- CHECKPOINT_TIMER (R266): A checkpoint is written every 60 s. -/
  | checkpointTimer (h : Fin 2)
  /-- BLOCK_SCRUB (R270): A programmed block is scrubbed when its scrub period passes and its read-level offsets are reset. -/
  | blockScrub (h : Fin 2) (blk : Nat) (ber : Nat) (offsets : List Int)
  /-- DIE_POLL_TIMEOUT (R274): A die silent for 10 ms is declared failed and its rebuild begins. -/
  | diePollTimeout (h : Fin 2) (chan : Fin 16) (die : Fin 8)
  /-- DIE_REBUILD_END (R274): The rebuild of a failed die ends and the half leaves REBUILDING. -/
  | dieRebuildEnd (h : Fin 2)
  /-- WELL_MOUNT (R279): The keeper releases the well engine after the cistern is READY and the halves mount. -/
  | wellMount (holdup : Bool)
  /-- WELL_MOUNT_DONE (R279): Both halves serve, MOUNTED reads 1 and the write budget is reported. -/
  | wellMountDone
  /-- CHECKPOINT (R266): Writes a well checkpoint on command. -/
  | checkpoint (src : Src) (v : Word)
  /-- SHUTDOWN (R281): Shuts the well down cleanly; it takes no request until mounted again. -/
  | shutdown (src : Src) (v : Word)
  /-- SANITIZE (R280): Replaces both media keys, empties every map and starts erasing. -/
  | sanitize (src : Src) (v : Word)
  /-- SANITIZE_ERASE_DONE (R280): Erasure after SANITIZE ends and SANITIZING clears. -/
  | sanitizeEraseDone
  /-- MOUNT (R281): Mounts a shut-down well as a clean mount. -/
  | mount (src : Src) (v : Word)
  /-- SIG (R294): A release, then an atomic add to a semaphore. -/
  | sig (c : CoreId) (w : IWord)
  /-- WAT (R298): Waits until a semaphore reaches a threshold, optionally consuming it, then acquires. -/
  | wat (c : CoreId) (w : IWord)
  /-- REL (R294): A release, then an 8-byte store. -/
  | rel (c : CoreId) (w : IWord)
  /-- ACQ (R297): Reads 8 bytes at their point of performance, then acquires. -/
  | acq (c : CoreId) (w : IWord)
  /-- CWT (R299): Waits until an arrival counter reaches a threshold, then acquires. -/
  | cwt (c : CoreId) (w : IWord)
  /-- BAR (R300): Waits as FEN, arrives at a barrier and waits for its episode to close. -/
  | bar (c : CoreId) (w : IWord)
  /-- RELEASE_PERFORM (R296): A release performs its write once every earlier access of the core is complete. -/
  | releasePerform (c : CoreId)
  /-- ACQUIRE_COMPLETE (R297): An acquire's read returns and later instructions may issue. -/
  | acquireComplete (c : CoreId)
  /-- WAT_WAKE (R298): A waiting WAT is woken by a write that meets its threshold. -/
  | watWake (c : CoreId)
  /-- CWT_WAKE (R299): A waiting CWT is woken when its counter reaches the threshold. -/
  | cwtWake (c : CoreId)
  /-- WAIT_TIMEOUT (R295): A WAT or CWT whose TMO passes returns TIMEOUT with the last value seen. -/
  | waitTimeout (c : CoreId)
  /-- FEN (R289): Waits until every earlier store, atomic and LKU of the core is complete. -/
  | fen (c : CoreId) (w : IWord)
  /-- FEN_COMPLETE (R289): The accesses a FEN waits on are complete and issue continues. -/
  | fenComplete (c : CoreId)
  /-- END (R95): Ends the core's part of the launch once its unit instructions have completed. -/
  | endI (c : CoreId) (w : IWord)
  /-- FLT (R96): Ends the launch with a given status code. -/
  | flt (c : CoreId) (w : IWord)
  /-- MFS (R97): Reads a system register. -/
  | mfs (c : CoreId) (w : IWord)
  /-- MTS (R97): Writes a writable system register. -/
  | mts (c : CoreId) (w : IWord)
  /-- CVT (R324): Converts a pointer between host and module views. -/
  | cvt (c : CoreId) (w : IWord)
  /-- ICI (R338): Invalidates the core's instruction cache and refetches. -/
  | ici (c : CoreId) (w : IWord)
  /-- ICINV (R292): Writing ICINV invalidates the core's instruction cache. -/
  | icinv (src : Src) (c : CoreId)
  /-- DCINV (R292): Writing DCINV invalidates the core's data cache. -/
  | dcinv (src : Src) (c : CoreId)
  /-- NUM_CLEAR_SAT_TOTAL (R60): Writing SAT_TOTAL sets NUM_SAT_TOTAL to zero. -/
  | numClearSatTotal (src : Src) (c : CoreId)
  /-- SR_SEED_LOAD (R63): A write to NUM_SR_SEED_HI loads the stochastic-rounding generator with the staged seed. -/
  | srSeedLoad (src : Src) (c : CoreId) (v : Word)
  /-- TRANSLATION_WALK_DONE (R307): A page walk ends with a translation or a fault cause, installing the entry or making or joining a fault record. -/
  | translationWalkDone (st : StreamId)
  /-- FAULT_RING_WRITE (R316): A waiting fault record is written to the fault ring when it has room and an MSI-X message follows. -/
  | faultRingWrite
  /-- FRING_HEAD_WRITE (R316): Software returns fault-ring entries by writing XLT_FRING_HEAD. -/
  | fringHeadWrite (src : Src) (v : Word)
  /-- XLT_FCMP (R317): Completes a fault record with a status, releasing its waiters. -/
  | xltFcmp (src : Src) (v : Word)
  /-- XLT_INV (R320): Starts an invalidation: the epoch rises and held translations in the range are discarded. -/
  | xltInv (src : Src) (v : Word)
  /-- INVALIDATION_DONE (R320): No request of an older epoch is in flight and the invalidation shows DONE. -/
  | invalidationDone
  /-- INVALIDATION_DRAIN_TIMEOUT (R321): At 50 µs the owners of requests still in flight end with TIMEOUT and the invalidation is done. -/
  | invalidationDrainTimeout
  /-- CTX_ENABLE_WRITE (R309): Setting or clearing a context's EN discards its translations and resets its epoch. -/
  | ctxEnableWrite (src : Src) (n : Fin 64) (v : Word)
  /-- ATS_INVALIDATION (R325): A host ATS invalidation is performed as an invalidation and answered when drained. -/
  | atsInvalidation (n : Fin 64) (lo : DWord) (pages : Nat)
  /-- ATS_TRANSLATION_RESPONSE (R325): The host's ATS translation returns and is cached, or its refusal is recorded as a fault. -/
  | atsTranslationResponse (die : Fin 2) (n : Fin 64) (st : StreamId) (va : BitVec 57) (answer : Option (BitVec 52))
  /-- SQ_DOORBELL (R332): A write of SQ_TAIL to a doorbell page publishes entries and makes an IDLE queue ACTIVE. -/
  | sqDoorbell (src : Src) (q : Fin 4096) (v : Word)
  /-- CQ_DOORBELL (R330): A write of CQ_HEAD returns completion-ring slots. -/
  | cqDoorbell (src : Src) (q : Fin 4096) (v : Word)
  /-- ENTRY_FETCH (R333): A fetcher reads up to 8 entries of an ACTIVE queue, or stalls it when the ring cannot be read. -/
  | entryFetch (q : Fin 4096)
  /-- LAUNCH_ENTRY (R341): A dispatcher takes a LAUNCH entry and checks it, its image and parameter block headers. -/
  | launchEntry (cl : Fin 144)
  /-- CMD_ENTRY (R336): A lookup or well engine takes a command entry and makes its register writes in order. -/
  | cmdEntry (q : Fin 4096)
  /-- LAUNCH_START (R342): A taken launch whose span is free for its class starts: sequence number, pins, windows, cache invalidation, core state. -/
  | launchStart (l : Nat)
  /-- LAUNCH_END (R343): A launch whose cores have all stopped and whose writes are complete releases pins and windows and writes its completion record. -/
  | launchEnd (l : Nat)
  /-- IRQ_TIMER (R347): The oldest unsignalled record has waited TIME microseconds and a message is sent. -/
  | irqTimer (q : Fin 4096)
  /-- LAUNCH_RESTART (R350): A failed attempt of a RESTARTABLE image starts again within 20 µs. -/
  | launchRestart (l : Nat)
  /-- QWT (R353): Waits for and takes an entry of a TASK queue into scratchpad. -/
  | qwt (c : CoreId) (w : IWord)
  /-- QWT_WAKE (R353): An entry reaching the dispatcher is given to the longest-waiting QWT. -/
  | qwtWake (q : Fin 4096)
  /-- QPT (R354): A release, then writes a task entry's completion record. -/
  | qpt (c : CoreId) (w : IWord)
  /-- YLD (R368): Sets KEEP and, with GIVE, makes way when a launch of the class waits. -/
  | yld (c : CoreId) (w : IWord)
  /-- UNBLOCK (R348): Returns a BLOCKED or STALLED queue to fetching. -/
  | unblock (src : Src) (q : Fin 4096)
  /-- QUEUE_RESET (R329): Sets a disabled queue's ring indices to zero and PHASE to 1. -/
  | queueReset (src : Src) (q : Fin 4096)
  /-- CYCLE_ENTRY_START (R355): At an entry's START the clusters it names take its class. -/
  | cycleEntryStart (e : Fin 512)
  /-- MAKE_WAY_WINDOW (R358): At START minus EARLY named clusters stop starting launches and running launches are asked to make way. -/
  | makeWayWindow (e : Fin 512)
  /-- FRAME_END (R357): A frame ends; an accepted switch exchanges banks, or a stop takes effect. -/
  | frameEnd
  /-- SCH_SWITCH (R357): Requests an exchange of cycle-table banks after checking the inactive bank. -/
  | schSwitch (src : Src)
  /-- SCH_GO (R357): Starts frames from the next keeper tick. -/
  | schGo (src : Src)
  /-- SCH_STOP (R357): Stops the cycle table at the end of the current frame. -/
  | schStop (src : Src)
  /-- PREWAKE (R359): The keeper wakes a parked cluster ahead of an entry's make-way window. -/
  | prewake (e : Fin 512) (cl : Fin 144)
  /-- CLUSTER_PARK (R359): A cluster idle for IDLE_US enters its class's park state. -/
  | clusterPark (cl : Fin 144)
  /-- AGE_RESERVE (R361): A launch waiting beyond AGE_US reserves its span. -/
  | ageReserve (l : Nat)
  /-- QUANTUM_EXPIRE (R362): A launch that has held its clusters for QUANTUM_US is asked to make way when another of its class waits. -/
  | quantumExpire (l : Nat)
  /-- LAUNCH_SUSPEND (R364): Once all cores have stopped and their instructions completed, the save sets are written and the launch is suspended. -/
  | launchSuspend (l : Nat)
  /-- LAUNCH_RESUME (R366): A suspended launch restores its save sets and resumes on the same cores. -/
  | launchResume (l : Nat)
  /-- MAKE_WAY_TIMEOUT (R367): A launch not suspended within MW_LIMIT_US ends with ABORTED. -/
  | makeWayTimeout (l : Nat)
  /-- COMPOSER_TAIL_WRITE (R370): Software publishes chunk or step items by writing a composer's ring tail. -/
  | composerTailWrite (src : Src) (k : Fin 16) (v : Word)
  /-- BATCH_WAIT_EXPIRE (R371): The oldest waiting item has waited WAIT_US and the batch closes. -/
  | batchWaitExpire (k : Fin 16)
  /-- HOST_BAR2_WRITE (R381): A host write through BAR2 is carried to cistern working memory or dropped. -/
  | hostBar2Write (port : Fin 2) (fn : Fin 64) (a : BitVec 41) (bs : List Byte)
  /-- HOST_BAR2_READ (R381): A host read through BAR2 returns cistern data or Unsupported Request. -/
  | hostBar2Read (port : Fin 2) (fn : Fin 64) (a : BitVec 41) (n : Nat)
  /-- REGION_WRITE (R383): A peer write through BAR4 lands in a registered region when admitted, raising its counter. -/
  | regionWrite (port : Fin 2) (rid : BitVec 16) (a : BitVec 38) (bs : List Byte) (poison : Bool)
  /-- BAR4_READ (R383): A read through BAR4 completes with Unsupported Request. -/
  | bar4Read (port : Fin 2) (a : BitVec 38) (n : Nat)
  /-- REGION_CLR (R384): Sets a region's byte arrival counter to zero. -/
  | regionClr (src : Src) (r : Fin 256)
  /-- VF_FLR (R375): A function level reset of a VF ends the work of its contexts and disables their queues and regions. -/
  | vfFlr (port : Fin 2) (fn : Fin 64)
  /-- PF_FLR (R375): A function level reset of PF0 starts a device warm reset. -/
  | pfFlr (port : Fin 2)
  /-- HOST_SNOOP (R379): A host snoop discards the line from the host line cache before it is answered. -/
  | hostSnoop (h : BitVec 64) (line : Option (List Byte))
  /-- HOST_PORT_WAIT_TIMEOUT (R378): A write waiting 100 µs for a down host port ends its instruction or job with TIMEOUT. -/
  | hostPortWaitTimeout (port : Fin 2) (q : Option (Fin 4096))
  /-- COPY_ENTRY (R386): A copy engine takes a copy job entry and checks it. -/
  | copyEntry (e : Fin 16)
  /-- COPY_JOB_START (R386): A taken copy job starts, after earlier jobs of its queue when ORDER is set. -/
  | copyJobStart (start : JobStart)
  /-- COPY_JOB_END (R387): A copy job's writes are complete and its record is written. -/
  | copyJobEnd (j : Nat)
  /-- FLIT_RECEIVE (R391): A flit is taken, checked, acknowledged and its credits absorbed, or discarded and replay requested. -/
  | flitReceive (link : Fin 36) (f : Flit)
  /-- WRITE (R403): A remote WRITE packet is performed in working memory or the scratchpad aperture, or refused. -/
  | write (link : Fin 36) (pkt : Packet)
  /-- READ (R403): A remote READ packet is answered with RDATA or a NAK. -/
  | read (link : Fin 36) (pkt : Packet)
  /-- WACK (R283): A write acknowledgement completes the remote write at its sender. -/
  | wack (link : Fin 36) (pkt : Packet)
  /-- RDATA (R397): Remote read data arrives and completes its transaction. -/
  | rdata (link : Fin 36) (pkt : Packet)
  /-- NAK (R397): A NAK ends its transaction with its status code. -/
  | nak (link : Fin 36) (pkt : Packet)
  /-- HELLO (R389): A peer's HELLO is checked against the topology table, leaving the link UNEXPECTED on mismatch. -/
  | hello (link : Fin 36) (pkt : Packet)
  /-- DIGEST (R407): A chunk's DIGEST arrives and the chunk is checked once its bytes are performed. -/
  | digest (link : Fin 36) (pkt : Packet)
  /-- RESEND (R408): The sender rereads the chunk, resends it and sends a RESENT digest. -/
  | resend (link : Fin 36) (pkt : Packet)
  /-- VERDICT (R408): The class of a settled disagreement is recorded at the sender. -/
  | verdict (link : Fin 36) (pkt : Packet)
  /-- RESEND_TIMEOUT (R408): No RESENT digest within 1 ms of RESEND fails the chunk with class LINK. -/
  | resendTimeout (w : Fin 256) (chunk : Nat)
  /-- TRANSACTION_TIMEOUT (R397): A Turlis transaction without an answer 1 ms after its request ends with TIMEOUT. -/
  | transactionTimeout (tag : Nat)
  /-- TLK_CNT_CLR (R404): Sets a Turlis counter's BYTES and PACKETS to zero and restarts its chunks. -/
  | tlkCntClr (src : Src) (k : Fin 256)
  /-- LINK_TRAIN (R389): A link trains at reset, on RETRAIN or once a second while DOWN, then exchanges HELLO. -/
  | linkTrain (link : Fin 36)
  /-- RETRAIN (R411): Writing RETRAIN retrains a link. -/
  | retrain (src : Src) (link : Fin 36)
  /-- DISABLE (R402): Setting DISABLE takes a link DOWN and holds it DISABLED. -/
  | disable (src : Src) (link : Fin 36)
  /-- LANE_FAIL (R410): A lane fails and the link begins failover to one lane, or goes DOWN from UP_X1. -/
  | laneFail (link : Fin 36) (lane : Fin 2)
  /-- LANE_FAILOVER_DONE (R410): Failover ends, replay resumes and the link is UP_X1. -/
  | laneFailoverDone (link : Fin 36)
  /-- LINK_DOWN (R402): A link leaves UP, discarding its replay buffer and NAKing its requests with LINK. -/
  | linkDown (link : Fin 36)
  /-- PLUGGABLE_INSERT (R481): The keeper reads an inserted pluggable's power class and powers it or leaves its links DOWN. -/
  | pluggableInsert (cage : Fin 9) (watts : Nat)
  /-- PLUGGABLE_REMOVE (R481): Removing a pluggable takes its links DOWN. -/
  | pluggableRemove (cage : Fin 9)
  /-- HANG_SAMPLE (R423): Every 10 µs the progress counters are sampled; hung engines are recorded and reset. -/
  | hangSample (hung : List (Nat × Nat)) (idle : List Nat)
  /-- DOMAIN_RESET (R426): A reset domain below the device begins its quiesce phase. -/
  | domainReset (kind inst : Nat)
  /-- RESET_QUIESCE_DONE (R426): A domain has quiesced, its record is captured and reset proper begins with a new generation. -/
  | resetQuiesceDone (kind inst : Nat) (missing : List (Nat × Nat))
  /-- RESET_PROPER_DONE (R426): A domain's logic is reset and reloaded and requesters are told. -/
  | resetProperDone (kind inst : Nat)
  /-- RESET_RETURN (R426): A reset domain serves again. -/
  | resetReturn (kind inst : Nat)
  /-- RESET_PHASE_TIMEOUT (R426): Quiesce or reset proper passes its bound and the enclosing domain's reset starts. -/
  | resetPhaseTimeout (kind inst : Nat)
  /-- RAS_RESET_CMD (R428): Resets a named domain on command. -/
  | rasResetCmd (src : Src) (v : Word)
  /-- DEVICE_WARM_RESET (R429): A device warm reset runs its keeper-timed sequence over all dies but the keeper. -/
  | deviceWarmReset (t : BootTests)
  /-- CHRYSALIS_RING_COPY (R430): Chrysalis records are copied to the cistern ring once the cistern serves again. -/
  | chrysalisRingCopy
  /-- SUMP_IRQ (R421): At most every 10 µs a PF0 message is sent covering sump entries written. -/
  | sumpIrq
  /-- CE_RATE_MINUTE (R422): A unit whose corrected count rose by CE_THR within a minute raises one CORRECTED entry. -/
  | ceRateMinute (kind : Nat) (unit : UnitMinute)
  /-- CONFIG_PARITY_ERROR (R414): A configuration register's parity error is restored from the keeper's copy. -/
  | configParityError (off : BitVec 26)
  /-- CORE_FENCE (R431): A core is fenced for its cause and its running launch ends with ABORTED. -/
  | coreFence (c : CoreId)
  /-- RAS_FENCE (R431): Fences a named core on command. -/
  | rasFence (src : Src) (v : Word)
  /-- SCAN_STEP (R434): An idle core runs a scan step comparing three arrays and its vector chain, fencing on mismatch. -/
  | scanStep (c : CoreId) (fail : Option Nat) (last : Bool)
  /-- POWER_SAMPLE (R445): Every 10 µs input power is measured and the governor adjusts start duties. -/
  | powerSample (watts : Nat)
  /-- THERMAL_SAMPLE (R446): Every 100 µs sensor readings are acted on, throttling, warning or tripping. -/
  | thermalSample (t : Temps)
  /-- CLUSTER_WAKE (R443): A wake trigger starts a cluster's wake sequence to RUN. -/
  | clusterWake (cl : Fin 144)
  /-- CLUSTER_WAKE_DONE (R441): A cluster's wake completes and it reads RUN. -/
  | clusterWakeDone (cl : Fin 144)
  /-- SLACK_SAMPLE (R449): Every 1 ms path-delay slack is read and a Q rail raised 5 mV when a core lacks 10 ps. -/
  | slackSample (slack : List (CoreId × Int))
  /-- MAINTENANCE_POINT (R450): Every HOURS of powered time the ageing measurements are taken and a margin plan applied. -/
  | maintenancePoint (m : Measures)
  /-- MAINTENANCE_DONE (R450): A maintenance point ends and DONE is shown. -/
  | maintenanceDone
  /-- KPC_MAINT_GO (R450): Starts a maintenance point on command. -/
  | kpcMaintGo (src : Src) (v : Word)
  /-- COLD_BOOT (R455): The keeper runs the boot ROM, verifies firmware and powers and trains the dies. -/
  | coldBoot (slotId : BitVec 8) (t : BootTests)
  /-- POWER_LOSS_SIGNAL (R473): The power-loss signal is raised, dies are gated and the well runs its power-loss sequence on hold-up. -/
  | powerLossSignal
  /-- INPUT_STABLE_TIMER (R474): Input held within range for 1 s after a power loss starts a cold boot. -/
  | inputStableTimer
  /-- PERST_ASSERT (R479): PERST# asserted on a port in service resets the port and starts a device warm reset. -/
  | perstAssert (port : Fin 2)
  /-- TAP_INSTRUCTION (R480): A boundary-scan instruction executes, or BYPASS replaces it unless PERST# is asserted on both connectors. -/
  | tapInstruction (op : TapOp)
  /-- PLDM_FW_UPDATE (R454): Writes a firmware, topology or partition component into the slot not running. -/
  | pldmFwUpdate (c : FwComponent)
  /-- ACTIVATE (R454): Makes the updated slot preferred for the next cold boot. -/
  | activate
  /-- SEC_SNAP (R460): Latches the configuration digest D and count N. -/
  | secSnap (src : Src)
  /-- ADVANCE_SVN (R456): Blows anti-rollback fuses up to the running image's SVN. -/
  | advanceSvn (src : Src) (v : Word)
  /-- SEC_SEAL (R461): Seals a context, generating its cistern XTS key. -/
  | secSeal (src : Src) (n : Fin 64)
  /-- SEC_UNSEAL (R461): Destroys a context's key and clears SEALED. -/
  | secUnseal (src : Src) (n : Fin 64)
  /-- GET_VERSION (R460): SPDM request for supported versions. -/
  | getVersion
  /-- GET_CAPABILITIES (R460): SPDM request for responder capabilities. -/
  | getCapabilities
  /-- NEGOTIATE_ALGORITHMS (R460): SPDM algorithm negotiation. -/
  | negotiateAlgorithms
  /-- GET_DIGESTS (R453): SPDM request for certificate chain digests. -/
  | getDigests
  /-- GET_CERTIFICATE (R453): SPDM request returning the identity certificate chain. -/
  | getCertificate (off len : Nat)
  /-- CHALLENGE (R455): SPDM challenge signed with the identity key. -/
  | challenge (nonce : List Byte)
  /-- GET_MEASUREMENTS (R460): SPDM measurements, with a digest snapshot for measurement 6. -/
  | getMeasurements (index : Nat)
  /-- KEY_EXCHANGE (R460): SPDM ML-KEM-768 key exchange opening a session. -/
  | keyExchange (key : List Byte)
  /-- FINISH (R460): SPDM session finish. -/
  | finish (session : Nat)
  /-- END_SESSION (R460): SPDM session end. -/
  | endSession (session : Nat)
  /-- POWER_KEEPER (R447): PLDM POWER with argument 0 enters KEEPER as a thermal trip without the temperature condition. -/
  | powerKeeper
  /-- POWER_COLD_BOOT (R447): PLDM POWER with argument 1 starts a cold boot from KEEPER unless a die is above 90 °C. -/
  | powerColdBoot
  /-- WARM_RESET (R429): PLDM command starting a device warm reset. -/
  | warmReset
  /-- REG_READ (R465): PLDM command returning 32 bits at a BAR0 offset. -/
  | regRead (off : BitVec 26)
  /-- REG_WRITE (R459): PLDM command writing 32 bits at a BAR0 offset, folded with SRC 3. -/
  | regWrite (off : BitVec 26) (v : Word)
  /-- SUMP_READ (R421): PLDM command returning the sump entry of a given SEQ. -/
  | sumpRead (seq : Nat)
  /-- PLDM_SENSOR_READ (R444): PLDM type 2 reading of temperature, input power or KPC_STATE. -/
  | pldmSensorRead (id : Nat)
  /-- LOOKUP_UNIT_START (R195): A dispatched LKP or LKU starts at the core's lookup unit: it reads its index, offset and weight lists, writes empty bags and sends parts or adds to their homes. -/
  | lookupUnitStart (c : CoreId)
  /-- CLUSTER_PARK_DONE (R443): A cluster's entry into DOZE or DEEP completes, MOVING clears, and a wake that arrived during the entry is then served. -/
  | clusterParkDone (cl : Fin 144)
  /-- HOST_LINK_DOWN (R378): A host port's link goes down: H0_UP or H1_UP clears, writes for the port wait up to 100 µs, line-cache reads move to the other port and records spill. -/
  | hostLinkDown (port : Fin 2)
  /-- HOST_LINK_UP (R374): A host port finishes training and its link comes up, so writes waiting under R378 leave and the port serves again. -/
  | hostLinkUp (port : Fin 2) (rate : Fin 6) (width : Fin 17) (link : PortLink)
  /-- PERST_DEASSERT (R479): PERST# of a connector is released and its port begins to train. -/
  | perstDeassert (port : Fin 2)
  /-- MSIX_UNMASK (R347): The host unmasks an MSI-X vector whose pending bit is set, and the held message is sent. -/
  | msixUnmask (port : Fin 2) (fn : Fin 64) (vec : Fin 2048)
  /-- REGISTER_READ (R465): A BAR0 read returns a register, latching a HI word when its LO word is read, waking a parked cluster whose window it names, and completing with Unsupported Request when misaligned. -/
  | registerRead (src : Src) (off : BitVec 26) (size : Nat)
  /-- SPILL_HEAD_WRITE (R349): Software writes FE_SPILL_HEAD, or sets the spill ring's EN, freeing spill-ring room so that records waiting in queue buffers are spilled and SPILL_FULL clears. -/
  | spillHeadWrite (src : Src) (v : Word)
  /-- FAILOVER_PATTERN_RECEIVED (R410): A link receives its peer's failover pattern, stops sending DATA flits and retunes its surviving lanes to move to UP_X1. -/
  | failoverPatternReceived (link : Fin 36) (lane : Fin 2)
  /-- WEL_CMD_DONE (R281): A CHECKPOINT, SHUTDOWN or SANITIZE command of the well ends, and WEL_CMD_STATE shows DONE with its RESULT, which also ends any command-queue entry waiting on it. -/
  | welCmdDone (code : Machine.Code)
  /-- DESTINATION_RESERVE (R217): As the destination of a migration from another node, the module reserves cache lines and a HOME entry, reporting NO_RESOURCE when its directory is full, and takes the copied pages. -/
  | destinationReserve (tid : Fin 1024) (group : Nat) (e : Fin 64) (pages : List MovedPage) (shadows : List MovedShadow)
  /-- HOLDUP_EXHAUSTED (R438): Input power stays lost until the hold-up bank is drained, so the keeper domain goes down, losing the sump, chrysalis buffer and core fences. -/
  | holdupExhausted
deriving DecidableEq, Repr

end Sys2Proof
end

