-- ==== Sys2Proof/Decode.lean ====
section
/-!
DEFINITION. The words of Linzal (R70 to R74): the places of the fields and the instruction that a word spells. Words of the
opcode table: no row of the table gives bits, so no word spells a command by them.
-/

namespace Sys2Proof

/-! ### The first word (R70) -/

namespace IWord

/-- CLASS of a first word, bits [63:58]. -/
def cls (w : DWord) : Nat := (w.extractLsb' 58 6).toNat

/-- FUNC, bits [57:52]. -/
def func (w : DWord) : Nat := (w.extractLsb' 52 6).toNat

/-- The other fields of a first word. -/
def ofBits (w : DWord) : IWord where
  dst := w.extractLsb' 46 6
  src1 := w.extractLsb' 40 6
  src2 := w.extractLsb' 34 6
  dep := w.getLsbD 33
  yld := w.getLsbD 32
  imm := w.extractLsb' 0 32

/-- The first word of a class and function with the other fields. -/
def toBits (cls func : BitVec 6) (w : IWord) : DWord :=
  cls ++ func ++ w.dst ++ w.src1 ++ w.src2 ++ BitVec.ofBool w.dep ++ BitVec.ofBool w.yld ++ w.imm

end IWord

/-! ### Classes and functions (R74 and the function tables of the classes) -/

/-- Scalar ALU, class 0x00 (R87). -/
def scalarOf (c : CoreId) (w : IWord) : Nat → Option Instr
  | 0x00 => some (.nop c w)
  | 0x01 => some (.add c w)
  | 0x02 => some (.sub c w)
  | 0x03 => some (.mul c w)
  | 0x04 => some (.mulh c w)
  | 0x05 => some (.andI c w)
  | 0x06 => some (.orI c w)
  | 0x07 => some (.xor c w)
  | 0x08 => some (.shl c w)
  | 0x09 => some (.shr c w)
  | 0x0A => some (.sra c w)
  | 0x0B => some (.minI c w)
  | 0x0C => some (.maxI c w)
  | 0x0D => some (.addi c w)
  | 0x0E => some (.andi c w)
  | 0x0F => some (.shli c w)
  | 0x10 => some (.shri c w)
  | 0x11 => some (.ldi c w)
  | 0x12 => some (.lhi c w)
  | 0x13 => some (.ldp c w)
  | 0x14 => some (.cmp c w)
  | 0x15 => some (.cmpi c w)
  | 0x16 => some (.sel c w)
  | 0x17 => some (.plg c w)
  | 0x18 => some (.fadd c w)
  | 0x19 => some (.fsub c w)
  | 0x1A => some (.fmul c w)
  | 0x1B => some (.fma c w)
  | 0x1C => some (.fci c w)
  | 0x1D => some (.fcf c w)
  | _ => none

/-- Branch, class 0x01 (R88). -/
def branchOf (c : CoreId) (w : IWord) : Nat → Option Instr
  | 0x00 => some (.br c w)
  | 0x01 => some (.brt c w)
  | 0x02 => some (.brf c w)
  | 0x03 => some (.bal c w)
  | 0x04 => some (.jr c w)
  | 0x05 => some (.jal c w)
  | 0x06 => some (.dbn c w)
  | _ => none

/-- Scalar load and store, class 0x02 (R89). -/
def memoryOf (c : CoreId) (w : IWord) : Nat → Option Instr
  | 0x00 => some (.ldb c w)
  | 0x01 => some (.ldh c w)
  | 0x02 => some (.ldw c w)
  | 0x03 => some (.ldd c w)
  | 0x04 => some (.lxb c w)
  | 0x05 => some (.lxh c w)
  | 0x06 => some (.lxw c w)
  | 0x08 => some (.stb c w)
  | 0x09 => some (.sth c w)
  | 0x0A => some (.stw c w)
  | 0x0B => some (.std c w)
  | 0x10 => some (.lsw c w)
  | 0x11 => some (.lsd c w)
  | 0x18 => some (.ssw c w)
  | 0x19 => some (.ssd c w)
  | 0x20 => some (.aad c w)
  | 0x21 => some (.acs c w)
  | 0x22 => some (.asw c w)
  | 0x28 => some (.inv c w)
  | 0x29 => some (.ina c w)
  | _ => none

/-- Descriptor, class 0x03 (R91). -/
def descOf (c : CoreId) (w : IWord) : Nat → Option Instr
  | 0x00 => some (.tld c w)
  | 0x01 => some (.tls c w)
  | 0x02 => some (.tst c w)
  | 0x03 => some (.tss c w)
  | 0x04 => some (.tmv c w)
  | 0x05 => some (.tsf c w)
  | 0x06 => some (.tgf c w)
  | 0x07 => some (.tof c w)
  | 0x08 => some (.tlp c w)
  | 0x09 => some (.tck c w)
  | _ => none

/-- Matrix, class 0x04 (R102). -/
def matrixOf (c : CoreId) (w : IWord) : Nat → Option Instr
  | 0x00 => some (.wld c w)
  | 0x01 => some (.mst c w)
  | 0x02 => some (.mdr c w)
  | 0x03 => some (.mtf c w)
  | _ => none

/-- Vector chain, class 0x05 (R128). -/
def vectorOf (c : CoreId) (w : IWord) (w2 : DWord) : Nat → Option Instr
  | 0x00 => some (.vch c w w2)
  | _ => none

/-- DMA, class 0x06 (R157). -/
def dmaOf (c : CoreId) (w : IWord) : Nat → Option Instr
  | 0x00 => some (.dma c w)
  | 0x01 => some (.fil c w)
  | 0x02 => some (.scp c w)
  | _ => none

/-- Lookup, class 0x07 (R184). -/
def lookupOf (c : CoreId) (w : IWord) (w2 : DWord) : Nat → Option Instr
  | 0x00 => some (.lkp c w w2)
  | 0x01 => some (.lku c w w2)
  | _ => none

/-- Synchronisation, class 0x08 (R294). -/
def syncOf (c : CoreId) (w : IWord) : Nat → Option Instr
  | 0x00 => some (.sig c w)
  | 0x01 => some (.wat c w)
  | 0x02 => some (.rel c w)
  | 0x03 => some (.acq c w)
  | 0x04 => some (.cwt c w)
  | 0x05 => some (.bar c w)
  | _ => none

/-- Queue and task, class 0x09 (R352). -/
def queueOf (c : CoreId) (w : IWord) : Nat → Option Instr
  | 0x00 => some (.qwt c w)
  | 0x01 => some (.qpt c w)
  | 0x02 => some (.yld c w)
  | _ => none

/-- Allocation, class 0x0A (R92). -/
def allocOf (c : CoreId) (w : IWord) : Nat → Option Instr
  | 0x00 => some (.alc c w)
  | 0x01 => some (.fre c w)
  | _ => none

/-- System, class 0x3F (R95). -/
def systemOf (c : CoreId) (w : IWord) : Nat → Option Instr
  | 0x00 => some (.endI c w)
  | 0x01 => some (.flt c w)
  | 0x02 => some (.mfs c w)
  | 0x03 => some (.mts c w)
  | 0x04 => some (.cvt c w)
  | 0x05 => some (.ici c w)
  | 0x06 => some (.fen c w)
  | _ => none

/-- The instruction that a class and a function assign; none where either is unassigned (R73, R74). `w2` is the next word
in memory, which is the second word of a two-word instruction (R72). -/
def instrOf (c : CoreId) (w : IWord) (w2 : DWord) (func : Nat) : Nat → Option Instr
  | 0x00 => scalarOf c w func
  | 0x01 => branchOf c w func
  | 0x02 => memoryOf c w func
  | 0x03 => descOf c w func
  | 0x04 => matrixOf c w func
  | 0x05 => vectorOf c w w2 func
  | 0x06 => dmaOf c w func
  | 0x07 => lookupOf c w w2 func
  | 0x08 => syncOf c w func
  | 0x09 => queueOf c w func
  | 0x0A => allocOf c w func
  | 0x3F => systemOf c w func
  | _ => none

/-- The instruction of core `c` that the word at its PC spells. An unassigned class or function, function 0x08 of class 0x04
and the second word of an instruction among them (R72, R126), spells none: the core decodes it as BAD_OPCODE, which the
row INPUT_STATIONARY does. -/
def decodeInstr (c : CoreId) (w w2 : DWord) : Instr :=
  (instrOf c (IWord.ofBits w) w2 (IWord.func w) (IWord.cls w)).getD (.inputStationary c w)

/-! ### Words of the opcode table -/

/-- The command that a word spells by the table's bits: none, for the table gives no row a field. -/
def decodeTableWord (_nbits _w : Nat) : Option Instr := none

end Sys2Proof
end

