-- ==== Sys2Proof/Machine/Symbols.lean ====
section
/-!
DEFINITION. The code of a cistern access (R237 to R241): 36 symbols, of which four are checks of a Reed–Solomon code
over GF(2^16). The spec gives the code's distance; the field polynomial x^16 + x^12 + x^3 + x + 1 and the generator
with roots 1, α, α^2, α^3 are the model's (log entry 67).
-/

namespace Sys2Proof.Machine

/-- A symbol: an element of GF(2^16). -/
abbrev Sym := BitVec 16

namespace Sym

/-- Times α. -/
def shift (a : Sym) : Sym := if a.getLsbD 15 then (a <<< 1) ^^^ 0x100B else a <<< 1

/-- The product of two elements. -/
def mul (a b : Sym) : Sym :=
  (List.range 16).foldl (fun acc i => let acc := shift acc; if b.getLsbD (15 - i) then acc ^^^ a else acc) 0

/-- α to a power. -/
def pow (n : Nat) : Sym := (List.range n).foldl (fun a _ => shift a) 1

/-- The generator's coefficients below x^4, highest first: (x + 1)(x + α)(x + α^2)(x + α^3). -/
def generator : List Sym :=
  (List.range 4).foldl (fun g i =>
    -- Multiply by x + α^i; `g` lists the coefficients below the leading one.
    let r := pow i
    ((1 :: g).zip (g ++ [0])).map fun (hi, lo) => lo ^^^ mul hi r) []

/-- The four check symbols of 32 data symbols: the remainder of the division by the generator. -/
def checks (d : List Sym) : List Sym :=
  d.foldl (fun r x =>
    let f := x ^^^ r.headD 0
    ((r.drop 1 ++ [0]).zip generator).map fun (a, g) => a ^^^ mul f g) [0, 0, 0, 0]

/-- Syndrome `i` of 36 symbols: their polynomial at α^i, symbol 0 first. -/
def syndrome (c : List Sym) (i : Nat) : Sym := c.foldl (fun a x => mul a (pow i) ^^^ x) 0

end Sym

/-- Data symbols of 64 bytes: symbol j holds bytes 2j and 2j + 1 (R238). -/
def dataSyms (bs : List Byte) : List Sym :=
  (List.range 32).map fun j => (bs.getD (2 * j) 0).setWidth 16 ||| ((bs.getD (2 * j + 1) 0).setWidth 16 <<< 8)

/-- Bytes of data symbols. -/
def symBytes (c : List Sym) : List Byte := (c.take 32).flatMap fun (x : Sym) => [x.setWidth 8, (x >>> 8).setWidth 8]

/-- An access as it is stored: 36 symbols, 512 data bits and 64 metadata bits (R237, R238); a poisoned one has
symbol 35 inverted (R240). -/
def encodeAccess (bs : List Byte) (poison : Bool) : List Sym :=
  let d := dataSyms bs
  let c := d ++ Sym.checks d
  if poison then c.modify 35 (· ^^^ 0xFFFF) else c

/-- The lane of a sub-channel that carries a symbol, and its first beat of 48 (R238). -/
def symLane (j : Nat) : Nat := j % 12
def symBeat (j : Nat) : Nat := 16 * (j / 12)

/-- The bit that a lane carries in a beat of an access, lowest first within a symbol. -/
def laneBit (c : List Sym) (lane beat : Nat) : Bool := (c.getD (12 * (beat / 16) + lane) 0).getLsbD (beat % 16)

/-- What the controller makes of an access that it has read (R239 to R241). -/
inductive Verdict where
  | clean | poison | corrected | bad
deriving DecidableEq, Repr

/-- Decode an access: poison is its exact syndrome; an error in one symbol is corrected; any other is detected. -/
def decodeAccess (c : List Sym) : Verdict × List Byte :=
  let s := (List.range 4).map (Sym.syndrome c)
  let at_ := fun (e x : Sym) => [e, e.mul x, (e.mul x).mul x, ((e.mul x).mul x).mul x]
  let e := s.headD 0
  if s = [0, 0, 0, 0] then (.clean, symBytes c)
  else if s = at_ 0xFFFF 1 then (.poison, symBytes c)
  else match (List.range 36).find? fun j => e ≠ 0 && decide (s = at_ e (Sym.pow (35 - j))) with
    | some j => (.corrected, symBytes (c.modify j (· ^^^ e)))
    | none => (.bad, symBytes c)

/-- Symbols that differ when an access is read. -/
def misread (err : AccessErr) (c : List Sym) : List Sym :=
  err.foldl (fun c x => c.modify x.1.val (· ^^^ x.2)) c

end Sys2Proof.Machine
end

