-- ==== Sys2Proof/Machine/Regs.lean ====
section
/-!
DEFINITION. The register table: every register of the chapters' register tables with its place in BAR0
(R464), its fields by access code (R6) and its reset value (R11). Registers of one array share a row and
are told apart by an index.
-/

namespace Sys2Proof.Machine

/-- One register, or one array of registers, of the spec's register tables. -/
inductive Reg where
  | glbIdent | glbSpare | glbLast | glbClmap | kpcState | kpcLast | kpcCap | kpcPower | kpcEvtCap 
  | kpcEvtInlet | kpcTemp | kpcTempMem | kpcTempInlet | kpcMaintCfg | kpcMaintCmd | kpcMaintState 
  | kpcVid | kpcClst | kpcPlan | feState | feLast | feSpillLo | feSpillHi | feSpillCfg 
  | feSpillHead | feSpillTail | feQCfg | feQSqLo | feQSqHi | feQCqLo | feQCqHi | feQIrq 
  | feQState | feQTails | feQCq | feQCtrl | schCmd | schState | schPos | schBank | schLimits 
  | schSaveLo | schSaveHi | schPolicy | schTimes | schCl | jobLaunchedLo | jobLaunchedHi 
  | jobCompletedLo | jobCompletedHi | jobFailedLo | jobFailedHi | jobAbortedLo | jobAbortedHi 
  | jobRestartedLo | jobRestartedHi | cmpCtl | cmpFill | cmpSteps | cmpTails | cmpHeads 
  | cmpChRingLo | cmpChRingHi | cmpStRingLo | cmpStRingHi | cmpImageLo | cmpImageHi 
  | cmpTemplateLo | cmpTemplateHi | cmpBatchLo | cmpBatchHi | cmpLaunch | cmpBatches | cmpBad 
  | cycleWord | xltState | xltLast | xltNode | xltInv | xltInvVaLo | xltInvVaHi | xltInvPages 
  | xltInvState | fringLo | fringHi | fringCfg | fringHead | fringTail | xltFcmp | xltFsel 
  | xltFwait | xltFtabEvt | ctxCfg | ctxRootLo | ctxRootHi | ctxCalias | ctxB2base | ctxEpoch 
  | lkeTcmd | lkeLast | lkeTstage | cmsHashALo | cmsHashAHi | cmsHashBLo | cmsHashBHi | cmsThr 
  | lkeState | hotCtrl | hotListLo | hotListHi | hotStatus | lkeEngLast | cmsCtrl | cmsBufLo 
  | cmsBufHi | rowsHot | rowsCis | rowsWell | rowsAdds | cmsSet | lcCmd | lcLast | lcState 
  | lcArg | instSel | instLo | instHi | pinCur | pinOther | migState | migPages | migPasses 
  | migRate | rpcHits | rpcMisses | rpcJoined | rpcOut | rpcTagmiss | rpcFwd | foldCfg | foldStat 
  | govCfg | govBudget | govTokens | govLagnow | govOver | govDirty | cisState | cisLast 
  | cisPart | cisWork | cisScrubCfg | cisScrubPass | poolSel | poolCmd | poolFree | poolUsed 
  | poolLowLo | poolLowHi | poolStage | poolLowEvt | chState | chCe | chUe | welState | welLast 
  | welCmd | welCmdState | whState | whLife | whBudget | whWa | whBad | whMapHit | whMapMiss 
  | whMedia | whReloc | whScrubCfg | whTemp | whLast | whDieFail | whRetry | hifState | hifLast 
  | hifCfg | bar2Oor | hlcHit | hlcMiss | hlcSnoop | hifCtx | fnWin | rgnCfg | rgnMask | rgnBase 
  | rgnSize | rgnCntLo | rgnCntHi | rgnDrop | rgnCtrl | hifCe | tlkState | tlkLast | tlkNode 
  | tlkNoroute | tlkLate | lnkState | lnkCtrl | lnkNbr | lnkMargin | lnkFecCorr | lnkFecUnc 
  | lnkCrcErr | lnkReplays | lnkFailovers | lnkTxLo | lnkTxHi | lnkRxLo | lnkRxHi | lnkLast | rt 
  | cntCfg | cntBase | cntSize | cntKeyLo | cntKeyHi | cntPackets | cntCtrl | cntFail 
  | cntBytesLo | cntBytesHi | dsCfg | dsBase | dsGeom | dsKeyLo | dsKeyHi | dsChunks | dsFail 
  | rasState | rasLast | sumpHead | sumpTail | sumpLost | sumpCfg | sumpEvt | rasHang | resetCmd 
  | resetState | genSel | rasGen | rasLate | chrysLo | chrysHi | chrysCfg | chrysTail | chrysLast 
  | scanCfg | scanPasses | scanFails | rasFence | ceDie | secState | secLast | secCmd 
  | secCountLo | secCountHi | secProtEvt | secDigest | secCtrl | winCfg | winBaseLo | winBaseHi 
  | winSize | numSticky | numSatTotal | numClear | numSeedLo | numSeedHi | numLast | numEvt 
  | lzcState | lzcPcLo | lzcPcHi | lzcFault | lzcFpcLo | lzcFpcHi | lzcRetLo | lzcRetHi | lzcCtrl 
  | lzcLast | mxuState | mxuStreamLo | mxuStreamHi | mxuResid | mxuLoadStall | mxuCtrl | mxuLast 
  | vcuState | vcuCycLo | vcuCycHi | vcuFwd | vcuCtrl | vcuLast | dmaState | dmaCtrl | dmaSplit 
  | dmaHaltLimit | dmaShort | dmaSrecSel | dmaLast | dmaWinCfg | dmaWinLo | dmaWinHi | dmaSrec 
  | synState | synWaddrLo | synWaddrHi | synWaitCyc | synTmo | synLast 
deriving DecidableEq, Repr

/-- A row of the register table. Register (i, j) of an array lies at base + s1*i + s2*j, and its index is
i*n2 + j; for a per-core row, base is the window offset of core C00 and i the physical core number (R21).
The masks give the bits of each access code; a bit in none of them is reserved. -/
structure RegRow where
  base : Nat
  s1 : Nat
  n1 : Nat
  s2 : Nat
  n2 : Nat
  core : Bool
  rw : Nat
  w1c : Nat
  wo : Nat
  ro : Nat
  reset : Nat
  /-- The register takes its reset value at a device warm reset (R11). -/
  warm : Bool
deriving DecidableEq, Repr

/-- The register table. -/
def Reg.row : Reg → RegRow
  | .glbIdent => ⟨0, 0, 1, 0, 1, false, 0, 0, 0, 0xFFFFFFF, 0x4836, false⟩
  | .glbSpare => ⟨0x10, 0, 1, 0, 1, false, 0, 0, 0, 0x7F7F7F7F, 0, false⟩
  | .glbLast => ⟨0x20, 0, 1, 0, 1, false, 0, 0, 0, 0xFFFFFFFF, 0, false⟩
  | .glbClmap => ⟨0x1000, 4, 144, 0, 1, false, 0, 0, 0, 0xFFFF07FF, 0, false⟩
  | .kpcState => ⟨0x100000, 0, 1, 0, 1, false, 0, 0x14, 0, 0x2B, 0, false⟩
  | .kpcLast => ⟨0x100004, 0, 1, 0, 1, false, 0, 0, 0, 0xFFFFFFFF, 0, false⟩
  | .kpcCap => ⟨0x100010, 0, 1, 0, 1, false, 0x7FFFF, 0, 0, 0, 0xCE2, false⟩
  | .kpcPower => ⟨0x100014, 0, 1, 0, 1, false, 0, 0, 0, 0x7FFFFFF, 0x4000000, false⟩
  | .kpcEvtCap => ⟨0x100018, 0, 1, 0, 1, false, 0, 0, 0, 0xFFFFFFFF, 0, false⟩
  | .kpcEvtInlet => ⟨0x10001C, 0, 1, 0, 1, false, 0, 0, 0, 0xFFFFFFFF, 0, false⟩
  | .kpcTemp => ⟨0x100040, 4, 6, 0, 1, false, 0, 0, 0, 0xFFFF, 0, false⟩
  | .kpcTempMem => ⟨0x100060, 0, 1, 0, 1, false, 0, 0, 0, 0x7FFFFF, 0, false⟩
  | .kpcTempInlet => ⟨0x100064, 0, 1, 0, 1, false, 0, 0, 0, 0xFF, 0, false⟩
  | .kpcMaintCfg => ⟨0x100080, 0, 1, 0, 1, false, 0xFF, 0, 0, 0, 0x18, false⟩
  | .kpcMaintCmd => ⟨0x100084, 0, 1, 0, 1, false, 0, 0, 1, 0, 0, false⟩
  | .kpcMaintState => ⟨0x100088, 0, 1, 0, 1, false, 0, 0, 0, 0xFFFFFFFF, 0, false⟩
  | .kpcVid => ⟨0x1000A0, 4, 4, 0, 1, false, 0, 0, 0, 0x3FFFFFFF, 0, false⟩
  | .kpcClst => ⟨0x101000, 4, 144, 0, 1, false, 0, 0, 0, 0xFFFFFFFF, 0x83, false⟩
  | .kpcPlan => ⟨0x102000, 4, 256, 0, 1, false, 0, 0, 0, 0xFFFFFFFF, 0, false⟩
  | .feState => ⟨0x200000, 0, 1, 0, 1, false, 0, 0, 0, 0x3FFF, 0, false⟩
  | .feLast => ⟨0x200004, 0, 1, 0, 1, false, 0, 0, 0, 0xFFFFFFFF, 0, false⟩
  | .feSpillLo => ⟨0x200010, 0, 1, 0, 1, false, 0xFFFFFFFF, 0, 0, 0, 0, false⟩
  | .feSpillHi => ⟨0x200014, 0, 1, 0, 1, false, 0xFFF, 0, 0, 0, 0, false⟩
  | .feSpillCfg => ⟨0x200018, 0, 1, 0, 1, false, 0xFFFF, 0, 0, 0, 8, false⟩
  | .feSpillHead => ⟨0x20001C, 0, 1, 0, 1, false, 0xFFF, 0, 0, 0, 0, false⟩
  | .feSpillTail => ⟨0x200020, 0, 1, 0, 1, false, 0, 0, 0, 0x1FFF, 0x1000, false⟩
  | .feQCfg => ⟨0x210000, 0x40, 4096, 0, 1, false, 0xFFFFFFF, 0, 0, 0, 0x2100000, false⟩
  | .feQSqLo => ⟨0x210004, 0x40, 4096, 0, 1, false, 0xFFFFFFFF, 0, 0, 0, 0, false⟩
  | .feQSqHi => ⟨0x210008, 0x40, 4096, 0, 1, false, 0x1FFFFFF, 0, 0, 0, 0, false⟩
  | .feQCqLo => ⟨0x21000C, 0x40, 4096, 0, 1, false, 0xFFFFFFFF, 0, 0, 0, 0, false⟩
  | .feQCqHi => ⟨0x210010, 0x40, 4096, 0, 1, false, 0x1FFFFFF, 0, 0, 0, 0, false⟩
  | .feQIrq => ⟨0x210014, 0x40, 4096, 0, 1, false, 0xFFFFFFFF, 0, 0, 0, 0x1000, false⟩
  | .feQState => ⟨0x210018, 0x40, 4096, 0, 1, false, 0, 0, 0, 0xFFFFFF, 0, false⟩
  | .feQTails => ⟨0x21001C, 0x40, 4096, 0, 1, false, 0, 0, 0, 0xFFFFFFFF, 0, false⟩
  | .feQCq => ⟨0x210020, 0x40, 4096, 0, 1, false, 0, 0, 0, 0x1FFFF, 0x10000, false⟩
  | .feQCtrl => ⟨0x210024, 0x40, 4096, 0, 1, false, 0, 0, 3, 0, 0, false⟩
  | .schCmd => ⟨0x260000, 0, 1, 0, 1, false, 0, 0, 7, 0, 0, false⟩
  | .schState => ⟨0x260004, 0, 1, 0, 1, false, 0, 0, 0, 0xFFFF0007, 0, false⟩
  | .schPos => ⟨0x260008, 0, 1, 0, 1, false, 0, 0, 0, 0xFFFFFFFF, 0, false⟩
  | .schBank => ⟨0x260010, 4, 2, 0, 1, false, 0x7FFFFFF, 0, 0, 0, 0x3E8, false⟩
  | .schLimits => ⟨0x260020, 0, 1, 0, 1, false, 0x3FFFFF, 0, 0, 0, 0x8064, false⟩
  | .schSaveLo => ⟨0x260024, 0, 1, 0, 1, false, 0xFFFFFFFF, 0, 0, 0, 0, false⟩
  | .schSaveHi => ⟨0x260028, 0, 1, 0, 1, false, 0x80000FFF, 0, 0, 0, 0, false⟩
  | .schPolicy => ⟨0x260100, 0x10, 8, 0, 1, false, 0xFFFFFFFF, 0, 0, 0, 0x7D00191, false⟩
  | .schTimes => ⟨0x260104, 0x10, 8, 0, 1, false, 0xFFFF, 0, 0, 0, 0, false⟩
  | .schCl => ⟨0x261000, 4, 144, 0, 1, false, 0, 0, 0, 0xFFFFF, 0, false⟩
  | .jobLaunchedLo => ⟨0x262000, 0x40, 64, 0, 1, false, 0, 0, 0, 0xFFFFFFFF, 0, false⟩
  | .jobLaunchedHi => ⟨0x262004, 0x40, 64, 0, 1, false, 0, 0, 0, 0xFFFFFFFF, 0, false⟩
  | .jobCompletedLo => ⟨0x262008, 0x40, 64, 0, 1, false, 0, 0, 0, 0xFFFFFFFF, 0, false⟩
  | .jobCompletedHi => ⟨0x26200C, 0x40, 64, 0, 1, false, 0, 0, 0, 0xFFFFFFFF, 0, false⟩
  | .jobFailedLo => ⟨0x262010, 0x40, 64, 0, 1, false, 0, 0, 0, 0xFFFFFFFF, 0, false⟩
  | .jobFailedHi => ⟨0x262014, 0x40, 64, 0, 1, false, 0, 0, 0, 0xFFFFFFFF, 0, false⟩
  | .jobAbortedLo => ⟨0x262018, 0x40, 64, 0, 1, false, 0, 0, 0, 0xFFFFFFFF, 0, false⟩
  | .jobAbortedHi => ⟨0x26201C, 0x40, 64, 0, 1, false, 0, 0, 0, 0xFFFFFFFF, 0, false⟩
  | .jobRestartedLo => ⟨0x262020, 0x40, 64, 0, 1, false, 0, 0, 0, 0xFFFFFFFF, 0, false⟩
  | .jobRestartedHi => ⟨0x262024, 0x40, 64, 0, 1, false, 0, 0, 0, 0xFFFFFFFF, 0, false⟩
  | .cmpCtl => ⟨0x264000, 0x80, 16, 0, 1, false, 0x7FFFFFF, 0, 0, 0, 0x108000, false⟩
  | .cmpFill => ⟨0x264004, 0x80, 16, 0, 1, false, 0xFFFFFFFF, 0, 0, 0, 0x8000400, false⟩
  | .cmpSteps => ⟨0x264008, 0x80, 16, 0, 1, false, 0xFFFFFFFF, 0, 0, 0, 0xC80200, false⟩
  | .cmpTails => ⟨0x26400C, 0x80, 16, 0, 1, false, 0xFFFFFFFF, 0, 0, 0, 0, false⟩
  | .cmpHeads => ⟨0x264010, 0x80, 16, 0, 1, false, 0, 0, 0, 0xFFFFFFFF, 0, false⟩
  | .cmpChRingLo => ⟨0x264014, 0x80, 16, 0, 1, false, 0xFFFFFFFF, 0, 0, 0, 0, false⟩
  | .cmpChRingHi => ⟨0x264018, 0x80, 16, 0, 1, false, 0x1FFFFFF, 0, 0, 0, 0, false⟩
  | .cmpStRingLo => ⟨0x26401C, 0x80, 16, 0, 1, false, 0xFFFFFFFF, 0, 0, 0, 0, false⟩
  | .cmpStRingHi => ⟨0x264020, 0x80, 16, 0, 1, false, 0x1FFFFFF, 0, 0, 0, 0, false⟩
  | .cmpImageLo => ⟨0x264024, 0x80, 16, 0, 1, false, 0xFFFFFFFF, 0, 0, 0, 0, false⟩
  | .cmpImageHi => ⟨0x264028, 0x80, 16, 0, 1, false, 0x1FFFFFF, 0, 0, 0, 0, false⟩
  | .cmpTemplateLo => ⟨0x26402C, 0x80, 16, 0, 1, false, 0xFFFFFFFF, 0, 0, 0, 0, false⟩
  | .cmpTemplateHi => ⟨0x264030, 0x80, 16, 0, 1, false, 0x1FFFFFF, 0, 0, 0, 0, false⟩
  | .cmpBatchLo => ⟨0x264034, 0x80, 16, 0, 1, false, 0xFFFFFFFF, 0, 0, 0, 0, false⟩
  | .cmpBatchHi => ⟨0x264038, 0x80, 16, 0, 1, false, 0x1FFFFFF, 0, 0, 0, 0, false⟩
  | .cmpLaunch => ⟨0x26403C, 0x80, 16, 0, 1, false, 0x1FF, 0, 0, 0, 1, false⟩
  | .cmpBatches => ⟨0x264040, 0x80, 16, 0, 1, false, 0, 0, 0, 0xFFFFFFFF, 0, false⟩
  | .cmpBad => ⟨0x264044, 0x80, 16, 0, 1, false, 0, 0, 0, 0x1FFFFFF, 0, false⟩
  | .cycleWord => ⟨0x280000, 0x4000, 2, 4, 4096, false, 0xFFFFFFFF, 0, 0, 0, 0, false⟩
  | .xltState => ⟨0x400000, 0, 1, 0, 1, false, 0, 0x2000, 0, 0x5FFF, 0, false⟩
  | .xltLast => ⟨0x400004, 0, 1, 0, 1, false, 0, 0, 0, 0xFFFFFFFF, 0, false⟩
  | .xltNode => ⟨0x400008, 0, 1, 0, 1, false, 0, 0, 0, 0xFFF, 0, false⟩
  | .xltInv => ⟨0x400010, 0, 1, 0, 1, false, 0, 0, 0xFF, 0, 0, false⟩
  | .xltInvVaLo => ⟨0x400014, 0, 1, 0, 1, false, 0xFFFFFFFF, 0, 0, 0, 0, false⟩
  | .xltInvVaHi => ⟨0x400018, 0, 1, 0, 1, false, 0x1FFFFFF, 0, 0, 0, 0, false⟩
  | .xltInvPages => ⟨0x40001C, 0, 1, 0, 1, false, 0xFFFFFFFF, 0, 0, 0, 1, false⟩
  | .xltInvState => ⟨0x400020, 0, 1, 0, 1, false, 0, 0, 0, 0x3FFFFF, 0, false⟩
  | .fringLo => ⟨0x400030, 0, 1, 0, 1, false, 0xFFFFFFFF, 0, 0, 0, 0, false⟩
  | .fringHi => ⟨0x400034, 0, 1, 0, 1, false, 0xFFF, 0, 0, 0, 0, false⟩
  | .fringCfg => ⟨0x400038, 0, 1, 0, 1, false, 0xF, 0, 0, 0, 8, false⟩
  | .fringHead => ⟨0x40003C, 0, 1, 0, 1, false, 0xFFF, 0, 0, 0, 0, false⟩
  | .fringTail => ⟨0x400040, 0, 1, 0, 1, false, 0, 0, 0, 0xFFF, 0, false⟩
  | .xltFcmp => ⟨0x400044, 0, 1, 0, 1, false, 0, 0, 0xFFFFF, 0, 0, false⟩
  | .xltFsel => ⟨0x400048, 0, 1, 0, 1, false, 0xFFF, 0, 0, 0, 0, false⟩
  | .xltFwait => ⟨0x40004C, 0, 1, 0, 1, false, 0, 0, 0, 0xFFFFFFFF, 0, false⟩
  | .xltFtabEvt => ⟨0x400050, 0, 1, 0, 1, false, 0, 0, 0, 0xFFFFFFFF, 0, false⟩
  | .ctxCfg => ⟨0x401000, 0x40, 64, 0, 1, false, 0x7FFFFFFF, 0, 0, 0, 0, false⟩
  | .ctxRootLo => ⟨0x401004, 0x40, 64, 0, 1, false, 0xFFFFFFFF, 0, 0, 0, 0, false⟩
  | .ctxRootHi => ⟨0x401008, 0x40, 64, 0, 1, false, 0xFFF, 0, 0, 0, 0, false⟩
  | .ctxCalias => ⟨0x40100C, 0x40, 64, 0, 1, false, 0xFFFF, 0, 0, 0, 0, false⟩
  | .ctxB2base => ⟨0x401010, 0x40, 64, 0, 1, false, 0x7FFFFF, 0, 0, 0, 0, false⟩
  | .ctxEpoch => ⟨0x401014, 0x40, 64, 0, 1, false, 0, 0, 0, 0xFFFFFFFF, 0, false⟩
  | .lkeTcmd => ⟨0x600000, 0, 1, 0, 1, false, 0, 0, 0xFFF, 0, 0, false⟩
  | .lkeLast => ⟨0x600004, 0, 1, 0, 1, false, 0, 0, 0, 0xFFFFFFFF, 0, false⟩
  | .lkeTstage => ⟨0x600040, 4, 16, 0, 1, false, 0xFFFFFFFF, 0, 0, 0, 0, false⟩
  | .cmsHashALo => ⟨0x600080, 0x10, 4, 0, 1, false, 0xFFFFFFFF, 0, 0, 0, 0x9E3779B1, false⟩
  | .cmsHashAHi => ⟨0x600084, 0x10, 4, 0, 1, false, 0x1FFFFFFF, 0, 0, 0, 0, false⟩
  | .cmsHashBLo => ⟨0x600088, 0x10, 4, 0, 1, false, 0xFFFFFFFF, 0, 0, 0, 0, false⟩
  | .cmsHashBHi => ⟨0x60008C, 0x10, 4, 0, 1, false, 0x1FFFFFFF, 0, 0, 0, 0, false⟩
  | .cmsThr => ⟨0x6000C0, 0, 1, 0, 1, false, 0xFFFFFFFF, 0, 0, 0, 0x40, false⟩
  | .lkeState => ⟨0x610000, 0x400, 64, 0, 1, false, 0, 0, 0, 0xFFFFFFFF, 0, false⟩
  | .hotCtrl => ⟨0x610004, 0x400, 64, 0, 1, false, 0, 0, 0xC00FFFFF, 0, 0, false⟩
  | .hotListLo => ⟨0x610008, 0x400, 64, 0, 1, false, 0xFFFFFFFF, 0, 0, 0, 0, false⟩
  | .hotListHi => ⟨0x61000C, 0x400, 64, 0, 1, false, 0xFFF, 0, 0, 0, 0, false⟩
  | .hotStatus => ⟨0x610010, 0x400, 64, 0, 1, false, 0, 0, 0, 0xFFFFFFFF, 0, false⟩
  | .lkeEngLast => ⟨0x610014, 0x400, 64, 0, 1, false, 0, 0, 0, 0xFFFFFFFF, 0, false⟩
  | .cmsCtrl => ⟨0x610018, 0x400, 64, 0, 1, false, 2, 0, 1, 0xFFFFFFFC, 0, false⟩
  | .cmsBufLo => ⟨0x61001C, 0x400, 64, 0, 1, false, 0xFFFFFFFF, 0, 0, 0, 0, false⟩
  | .cmsBufHi => ⟨0x610020, 0x400, 64, 0, 1, false, 0xFFF, 0, 0, 0, 0, false⟩
  | .rowsHot => ⟨0x610024, 0x400, 64, 0, 1, false, 0, 0, 0, 0xFFFFFFFF, 0, false⟩
  | .rowsCis => ⟨0x610028, 0x400, 64, 0, 1, false, 0, 0, 0, 0xFFFFFFFF, 0, false⟩
  | .rowsWell => ⟨0x61002C, 0x400, 64, 0, 1, false, 0, 0, 0, 0xFFFFFFFF, 0, false⟩
  | .rowsAdds => ⟨0x610030, 0x400, 64, 0, 1, false, 0, 0, 0, 0xFFFFFFFF, 0, false⟩
  | .cmsSet => ⟨0x610080, 0x400, 64, 4, 16, false, 0x800003FF, 0, 0, 0, 0, false⟩
  | .lcCmd => ⟨0x620000, 0, 1, 0, 1, false, 0, 0, 0x3FFF, 0, 0, false⟩
  | .lcLast => ⟨0x620004, 0, 1, 0, 1, false, 0, 0, 0, 0xFFFFFFFF, 0, false⟩
  | .lcState => ⟨0x620008, 0, 1, 0, 1, false, 0, 0, 0, 0xFFFFFFFF, 0, false⟩
  | .lcArg => ⟨0x620010, 4, 4, 0, 1, false, 0xFFFFFFFF, 0, 0, 0, 0, false⟩
  | .instSel => ⟨0x620040, 0, 1, 0, 1, false, 0x3FF, 0, 0, 0, 0, false⟩
  | .instLo => ⟨0x620044, 0, 1, 0, 1, false, 0, 0, 0, 0xFFFFFFFF, 0, false⟩
  | .instHi => ⟨0x620048, 0, 1, 0, 1, false, 0, 0, 0, 0xFFFFFFFF, 0, false⟩
  | .pinCur => ⟨0x62004C, 0, 1, 0, 1, false, 0, 0, 0, 0xFFFFFFFF, 0, false⟩
  | .pinOther => ⟨0x620050, 0, 1, 0, 1, false, 0, 0, 0, 0xFFFFFFFF, 0, false⟩
  | .migState => ⟨0x620080, 0x10, 8, 0, 1, false, 0, 0x80000000, 0, 0xFFFFF, 0, false⟩
  | .migPages => ⟨0x620084, 0x10, 8, 0, 1, false, 0, 0, 0, 0xFFFFFFFF, 0, false⟩
  | .migPasses => ⟨0x620088, 0x10, 8, 0, 1, false, 0, 0, 0, 0x7F, 0, false⟩
  | .migRate => ⟨0x620100, 0, 1, 0, 1, false, 0xFF, 0, 0, 0, 8, false⟩
  | .rpcHits => ⟨0x620110, 0, 1, 0, 1, false, 0, 0, 0, 0xFFFFFFFF, 0, false⟩
  | .rpcMisses => ⟨0x620114, 0, 1, 0, 1, false, 0, 0, 0, 0xFFFFFFFF, 0, false⟩
  | .rpcJoined => ⟨0x620118, 0, 1, 0, 1, false, 0, 0, 0, 0xFFFFFFFF, 0, false⟩
  | .rpcOut => ⟨0x62011C, 0, 1, 0, 1, false, 0, 0, 0, 0xFFFFFFFF, 0, false⟩
  | .rpcTagmiss => ⟨0x620120, 0, 1, 0, 1, false, 0, 0, 0, 0xFFFFFFFF, 0, false⟩
  | .rpcFwd => ⟨0x620124, 0, 1, 0, 1, false, 0, 0, 0, 0xFFFFFFFF, 0, false⟩
  | .foldCfg => ⟨0x620140, 0, 1, 0, 1, false, 0xFFFFFF, 0, 0, 0xFF000000, 0x4003E8, false⟩
  | .foldStat => ⟨0x620144, 0, 1, 0, 1, false, 0, 0, 0, 0xFFFFFFFF, 0, false⟩
  | .govCfg => ⟨0x620180, 0, 1, 0, 1, false, 0xFFFFFF, 0, 0, 0, 0x1E32, false⟩
  | .govBudget => ⟨0x620184, 0, 1, 0, 1, false, 0xFFFF, 0, 0, 0, 0, false⟩
  | .govTokens => ⟨0x620188, 0, 1, 0, 1, false, 0, 0, 0, 0xFFFFFFFF, 0, false⟩
  | .govLagnow => ⟨0x62018C, 0, 1, 0, 1, false, 0, 0, 0, 0xFFFFFFFF, 0, false⟩
  | .govOver => ⟨0x620190, 0, 1, 0, 1, false, 0, 0, 0, 0xFFFFFFFF, 0, false⟩
  | .govDirty => ⟨0x620194, 0, 1, 0, 1, false, 0, 0, 0, 0xFFFFFFFF, 0, false⟩
  | .cisState => ⟨0x800000, 0, 1, 0, 1, false, 0, 0, 0, 0xF, 0, false⟩
  | .cisLast => ⟨0x800004, 0, 1, 0, 1, false, 0, 0, 0, 0xFFFFFFFF, 0, false⟩
  | .cisPart => ⟨0x800010, 0, 1, 0, 1, false, 0, 0, 0, 0x3FFFFFFF, 0xC00000, false⟩
  | .cisWork => ⟨0x800014, 0, 1, 0, 1, false, 0, 0, 0, 0xFFF, 0, false⟩
  | .cisScrubCfg => ⟨0x800020, 0, 1, 0, 1, false, 0x1FF, 0, 0, 0, 0x118, false⟩
  | .cisScrubPass => ⟨0x800024, 0, 1, 0, 1, false, 0, 0, 0, 0xFFFFFFFF, 0, false⟩
  | .poolSel => ⟨0x800040, 0, 1, 0, 1, false, 0x3FF, 0, 0, 0, 0, false⟩
  | .poolCmd => ⟨0x800044, 0, 1, 0, 1, false, 0, 0, 0xFFF, 0, 0, false⟩
  | .poolFree => ⟨0x800048, 0, 1, 0, 1, false, 0, 0, 0, 0xFFFFFFFF, 0, false⟩
  | .poolUsed => ⟨0x80004C, 0, 1, 0, 1, false, 0, 0, 0, 0xFFFFFFFF, 0, false⟩
  | .poolLowLo => ⟨0x800050, 0, 1, 0, 1, false, 0, 0xFFFFFFFF, 0, 0, 0, false⟩
  | .poolLowHi => ⟨0x800054, 0, 1, 0, 1, false, 0, 0xFFFFFFFF, 0, 0, 0, false⟩
  | .poolStage => ⟨0x800060, 4, 8, 0, 1, false, 0xFFFFFFFF, 0, 0, 0, 0, false⟩
  | .poolLowEvt => ⟨0x800100, 4, 64, 0, 1, false, 0, 0, 0, 0xFFFFFFFF, 0, false⟩
  | .chState => ⟨0x801000, 0x20, 48, 0, 1, false, 0, 0, 0, 0xFF03FF, 0xFF, false⟩
  | .chCe => ⟨0x801004, 0x20, 48, 0, 1, false, 0, 0, 0, 0xFFFFFFFF, 0, false⟩
  | .chUe => ⟨0x801008, 0x20, 48, 0, 1, false, 0, 0, 0, 0xFFFFFFFF, 0, false⟩
  | .welState => ⟨0xA00000, 0, 1, 0, 1, false, 0, 0, 0, 0x3F, 0, false⟩
  | .welLast => ⟨0xA00004, 0, 1, 0, 1, false, 0, 0, 0, 0xFFFFFFFF, 0, false⟩
  | .welCmd => ⟨0xA00008, 0, 1, 0, 1, false, 0, 0, 0xFFFF000F, 0, 0, false⟩
  | .welCmdState => ⟨0xA0000C, 0, 1, 0, 1, false, 0, 0, 0, 0x3FF, 0, false⟩
  | .whState => ⟨0xA10000, 0x10000, 2, 0, 1, false, 0, 0, 0, 0x7F, 0, false⟩
  | .whLife => ⟨0xA10004, 0x10000, 2, 0, 1, false, 0, 0, 0, 0xFFFFFFFF, 0, false⟩
  | .whBudget => ⟨0xA10008, 0x10000, 2, 0, 1, false, 0, 0, 0, 0xFFFFFFFF, 0, false⟩
  | .whWa => ⟨0xA1000C, 0x10000, 2, 0, 1, false, 0, 0, 0, 0xFFFFFFFF, 0, false⟩
  | .whBad => ⟨0xA10010, 0x10000, 2, 0, 1, false, 0, 0, 0, 0xFFFFFFFF, 0, false⟩
  | .whMapHit => ⟨0xA10030, 0x10000, 2, 0, 1, false, 0, 0, 0, 0xFFFFFFFF, 0, false⟩
  | .whMapMiss => ⟨0xA10034, 0x10000, 2, 0, 1, false, 0, 0, 0, 0xFFFFFFFF, 0, false⟩
  | .whMedia => ⟨0xA1004C, 0x10000, 2, 0, 1, false, 0, 0, 0, 0xFFFFFFFF, 0, false⟩
  | .whReloc => ⟨0xA10050, 0x10000, 2, 0, 1, false, 0, 0, 0, 0xFFFFFFFF, 0, false⟩
  | .whScrubCfg => ⟨0xA10060, 0x10000, 2, 0, 1, false, 0xFFFFFF01, 0, 0, 0, 0xC81E01, false⟩
  | .whTemp => ⟨0xA10064, 0x10000, 2, 0, 1, false, 0, 0, 0, 0xFFFF, 0, false⟩
  | .whLast => ⟨0xA10068, 0x10000, 2, 0, 1, false, 0, 0, 0, 0xFFFFFFFF, 0, false⟩
  | .whDieFail => ⟨0xA10020, 0x10000, 2, 4, 4, false, 0, 0, 0, 0xFFFFFFFF, 0, false⟩
  | .whRetry => ⟨0xA10040, 0x10000, 2, 4, 3, false, 0, 0, 0, 0xFFFFFFFF, 0, false⟩
  | .hifState => ⟨0xC00000, 0, 1, 0, 1, false, 0, 0, 0, 0x3FF03FF, 0, false⟩
  | .hifLast => ⟨0xC00004, 0, 1, 0, 1, false, 0, 0, 0, 0xFFFFFFFF, 0, false⟩
  | .hifCfg => ⟨0xC00008, 0, 1, 0, 1, false, 0xFFF, 0, 0, 0, 0, false⟩
  | .bar2Oor => ⟨0xC00010, 0, 1, 0, 1, false, 0, 0, 0, 0xFFFFFFFF, 0, false⟩
  | .hlcHit => ⟨0xC00020, 0, 1, 0, 1, false, 0, 0, 0, 0xFFFFFFFF, 0, false⟩
  | .hlcMiss => ⟨0xC00024, 0, 1, 0, 1, false, 0, 0, 0, 0xFFFFFFFF, 0, false⟩
  | .hlcSnoop => ⟨0xC00028, 0, 1, 0, 1, false, 0, 0, 0, 0xFFFFFFFF, 0, false⟩
  | .hifCtx => ⟨0xC01000, 4, 64, 0, 1, false, 0xFF, 0, 0, 0, 0, false⟩
  | .fnWin => ⟨0xC02010, 0x10, 63, 4, 4, false, 0xFFFFFFFF, 0, 0, 0, 0, false⟩
  | .rgnCfg => ⟨0xC04000, 0x20, 256, 0, 1, false, 0xFFFF007F, 0, 0, 0, 0, false⟩
  | .rgnMask => ⟨0xC04004, 0x20, 256, 0, 1, false, 0xFFFF, 0, 0, 0, 0xFFFF, false⟩
  | .rgnBase => ⟨0xC04008, 0x20, 256, 0, 1, false, 0xFFFFFFFF, 0, 0, 0, 0, false⟩
  | .rgnSize => ⟨0xC0400C, 0x20, 256, 0, 1, false, 0x7FFFF, 0, 0, 0, 0, false⟩
  | .rgnCntLo => ⟨0xC04010, 0x20, 256, 0, 1, false, 0, 0, 0, 0xFFFFFFFF, 0, false⟩
  | .rgnCntHi => ⟨0xC04014, 0x20, 256, 0, 1, false, 0, 0, 0, 0xFFFFFFFF, 0, false⟩
  | .rgnDrop => ⟨0xC04018, 0x20, 256, 0, 1, false, 0, 0, 0, 0xFFFFFFFF, 0, false⟩
  | .rgnCtrl => ⟨0xC0401C, 0x20, 256, 0, 1, false, 0, 0, 1, 0, 0, false⟩
  | .hifCe => ⟨0xC06000, 4, 16, 0, 1, false, 0, 0, 0, 0xFFF, 0, false⟩
  | .tlkState => ⟨0xE00000, 0, 1, 0, 1, false, 0, 0, 0, 0xFFF, 0, false⟩
  | .tlkLast => ⟨0xE00004, 0, 1, 0, 1, false, 0, 0, 0, 0xFFFFFFFF, 0, false⟩
  | .tlkNode => ⟨0xE00008, 0, 1, 0, 1, false, 0, 0, 0, 0xFFF, 0, false⟩
  | .tlkNoroute => ⟨0xE0000C, 0, 1, 0, 1, false, 0, 0, 0, 0xFFFFFFFF, 0, false⟩
  | .tlkLate => ⟨0xE00010, 0, 1, 0, 1, false, 0, 0, 0, 0xFFFFFFFF, 0, false⟩
  | .lnkState => ⟨0xE10000, 0x100, 36, 0, 1, false, 0, 0, 0, 0x3FFFF7F, 1, false⟩
  | .lnkCtrl => ⟨0xE10004, 0x100, 36, 0, 1, false, 1, 0, 2, 0, 0, false⟩
  | .lnkNbr => ⟨0xE10008, 0x100, 36, 0, 1, false, 0, 0, 0, 0x3FFFF, 0, false⟩
  | .lnkMargin => ⟨0xE1000C, 0x100, 36, 0, 1, false, 0, 0, 0, 0xFFFF, 0, false⟩
  | .lnkFecCorr => ⟨0xE10010, 0x100, 36, 0, 1, false, 0, 0, 0, 0xFFFFFFFF, 0, false⟩
  | .lnkFecUnc => ⟨0xE10014, 0x100, 36, 0, 1, false, 0, 0, 0, 0xFFFFFFFF, 0, false⟩
  | .lnkCrcErr => ⟨0xE10018, 0x100, 36, 0, 1, false, 0, 0, 0, 0xFFFFFFFF, 0, false⟩
  | .lnkReplays => ⟨0xE1001C, 0x100, 36, 0, 1, false, 0, 0, 0, 0xFFFFFFFF, 0, false⟩
  | .lnkFailovers => ⟨0xE10020, 0x100, 36, 0, 1, false, 0, 0, 0, 0xFFFFFFFF, 0, false⟩
  | .lnkTxLo => ⟨0xE10024, 0x100, 36, 0, 1, false, 0, 0, 0, 0xFFFFFFFF, 0, false⟩
  | .lnkTxHi => ⟨0xE10028, 0x100, 36, 0, 1, false, 0, 0, 0, 0xFFFFFFFF, 0, false⟩
  | .lnkRxLo => ⟨0xE1002C, 0x100, 36, 0, 1, false, 0, 0, 0, 0xFFFFFFFF, 0, false⟩
  | .lnkRxHi => ⟨0xE10030, 0x100, 36, 0, 1, false, 0, 0, 0, 0xFFFFFFFF, 0, false⟩
  | .lnkLast => ⟨0xE10034, 0x100, 36, 0, 1, false, 0, 0, 0, 0xFFFFFFFF, 0, false⟩
  | .rt => ⟨0xE20000, 4, 4096, 0, 1, false, 0x1FFF, 0, 0, 0, 0, false⟩
  | .cntCfg => ⟨0xE30000, 0x40, 256, 0, 1, false, 0x1FFFFF, 0, 0, 0x600000, 0, false⟩
  | .cntBase => ⟨0xE30004, 0x40, 256, 0, 1, false, 0xFFFFFFF, 0, 0, 0, 0, false⟩
  | .cntSize => ⟨0xE30008, 0x40, 256, 0, 1, false, 0xFFFFFFF, 0, 0, 0, 0, false⟩
  | .cntKeyLo => ⟨0xE3000C, 0x40, 256, 0, 1, false, 0xFFFFFFFF, 0, 0, 0, 1, false⟩
  | .cntKeyHi => ⟨0xE30010, 0x40, 256, 0, 1, false, 0x1FFFFFFF, 0, 0, 0, 0, false⟩
  | .cntPackets => ⟨0xE3001C, 0x40, 256, 0, 1, false, 0, 0, 0, 0xFFFFFFFF, 0, false⟩
  | .cntCtrl => ⟨0xE30020, 0x40, 256, 0, 1, false, 0, 0, 1, 0, 0, false⟩
  | .cntFail => ⟨0xE30024, 0x40, 256, 0, 1, false, 0, 0, 0, 0x7FFFFFF, 0, false⟩
  | .cntBytesLo => ⟨0xE30014, 0x40, 256, 0, 1, false, 0, 0, 0, 0xFFFFFFFF, 0, false⟩
  | .cntBytesHi => ⟨0xE30018, 0x40, 256, 0, 1, false, 0, 0, 0, 0xFFFFFFFF, 0, false⟩
  | .dsCfg => ⟨0xE40000, 0x40, 256, 0, 1, false, 0x7FFFFFFF, 0, 0, 0x80000000, 0, false⟩
  | .dsBase => ⟨0xE40004, 0x40, 256, 0, 1, false, 0xFFFFFFF, 0, 0, 0, 0, false⟩
  | .dsGeom => ⟨0xE40008, 0x40, 256, 0, 1, false, 0x1FF, 0, 0, 0, 1, false⟩
  | .dsKeyLo => ⟨0xE4000C, 0x40, 256, 0, 1, false, 0xFFFFFFFF, 0, 0, 0, 1, false⟩
  | .dsKeyHi => ⟨0xE40010, 0x40, 256, 0, 1, false, 0x1FFFFFFF, 0, 0, 0, 0, false⟩
  | .dsChunks => ⟨0xE40014, 0x40, 256, 0, 1, false, 0, 0, 0, 0xFFFFFFFF, 0, false⟩
  | .dsFail => ⟨0xE40018, 0x40, 256, 0, 1, false, 0, 0, 0, 0x7FFFFFF, 0, false⟩
  | .rasState => ⟨0x1000000, 0, 1, 0, 1, false, 0, 2, 0, 0x1F1, 0, false⟩
  | .rasLast => ⟨0x1000004, 0, 1, 0, 1, false, 0, 0, 0, 0xFFFFFFFF, 0, false⟩
  | .sumpHead => ⟨0x1000010, 0, 1, 0, 1, false, 0xFFFFFFFF, 0, 0, 0, 1, false⟩
  | .sumpTail => ⟨0x1000014, 0, 1, 0, 1, false, 0, 0, 0, 0xFFFFFFFF, 1, false⟩
  | .sumpLost => ⟨0x1000018, 0, 1, 0, 1, false, 0, 0, 0, 0xFFFFFFFF, 0, false⟩
  | .sumpCfg => ⟨0x100001C, 0, 1, 0, 1, false, 0xFFFFF, 0, 0, 0, 0x10000, false⟩
  | .sumpEvt => ⟨0x1000020, 0, 1, 0, 1, false, 0, 0, 0, 0xFFFFFFFF, 0, false⟩
  | .rasHang => ⟨0x1000030, 0, 1, 0, 1, false, 0x3FFF, 0, 0, 0, 0x64, false⟩
  | .resetCmd => ⟨0x1000040, 0, 1, 0, 1, false, 0, 0, 0x1FFFF, 0, 0, false⟩
  | .resetState => ⟨0x1000044, 0, 1, 0, 1, false, 0, 0, 0, 0x3FF, 0, false⟩
  | .genSel => ⟨0x1000048, 0, 1, 0, 1, false, 0xFFFF, 0, 0, 0, 1, false⟩
  | .rasGen => ⟨0x100004C, 0, 1, 0, 1, false, 0, 0, 0, 0xFFFFFFFF, 0, false⟩
  | .rasLate => ⟨0x1000050, 0, 1, 0, 1, false, 0, 0, 0, 0xFFFFFFFF, 0, false⟩
  | .chrysLo => ⟨0x1000060, 0, 1, 0, 1, false, 0xFFFFFFFF, 0, 0, 0, 0, false⟩
  | .chrysHi => ⟨0x1000064, 0, 1, 0, 1, false, 0x80000FFF, 0, 0, 0, 0, false⟩
  | .chrysCfg => ⟨0x1000068, 0, 1, 0, 1, false, 0xF, 0, 0, 0, 4, false⟩
  | .chrysTail => ⟨0x100006C, 0, 1, 0, 1, false, 0, 0, 0, 0xFFFFFFFF, 0, false⟩
  | .chrysLast => ⟨0x1000070, 0, 1, 0, 1, false, 0, 0, 0, 0xFFFFFFFF, 0, false⟩
  | .scanCfg => ⟨0x1000080, 0, 1, 0, 1, false, 0x1FF, 0, 0, 0, 0x31, false⟩
  | .scanPasses => ⟨0x1000084, 0, 1, 0, 1, false, 0, 0, 0, 0xFFFFFFFF, 0, false⟩
  | .scanFails => ⟨0x1000088, 0, 1, 0, 1, false, 0, 0, 0, 0xFFFFFFFF, 0, false⟩
  | .rasFence => ⟨0x1000090, 0, 1, 0, 1, false, 0, 0, 0x80000FFF, 0, 0, false⟩
  | .ceDie => ⟨0x10000A0, 4, 6, 0, 1, false, 0, 0, 0, 0xFFFFFFFF, 0, false⟩
  | .secState => ⟨0x1200000, 0, 1, 0, 1, false, 0, 0, 0, 0xFFFFF, 0, false⟩
  | .secLast => ⟨0x1200004, 0, 1, 0, 1, false, 0, 0, 0, 0xFFFFFFFF, 0, false⟩
  | .secCmd => ⟨0x1200008, 0, 1, 0, 1, false, 0, 0, 0xFFFF000F, 0, 0, false⟩
  | .secCountLo => ⟨0x1200010, 0, 1, 0, 1, false, 0, 0, 0, 0xFFFFFFFF, 0, false⟩
  | .secCountHi => ⟨0x1200014, 0, 1, 0, 1, false, 0, 0, 0, 0xFFFFFFFF, 0, false⟩
  | .secProtEvt => ⟨0x1200018, 0, 1, 0, 1, false, 0, 0, 0, 0xFFFFFFFF, 0, false⟩
  | .secDigest => ⟨0x1200040, 4, 12, 0, 1, false, 0, 0, 0, 0xFFFFFFFF, 0, false⟩
  | .secCtrl => ⟨0x1201000, 0x100, 64, 0, 1, false, 0, 0, 6, 0xFFFF0001, 0, false⟩
  | .winCfg => ⟨0x1201010, 0x100, 64, 0x10, 8, false, 7, 0, 0, 0, 0, false⟩
  | .winBaseLo => ⟨0x1201014, 0x100, 64, 0x10, 8, false, 0xFFFFFFFF, 0, 0, 0, 0, false⟩
  | .winBaseHi => ⟨0x1201018, 0x100, 64, 0x10, 8, false, 0xFFFFF, 0, 0, 0, 0, false⟩
  | .winSize => ⟨0x120101C, 0x100, 64, 0x10, 8, false, 0xFFFFFFFF, 0, 0, 0, 0, false⟩
  | .numSticky => ⟨0x4000, 0, 2368, 0, 1, true, 0, 0xF7777, 0, 0, 0, true⟩
  | .numSatTotal => ⟨0x4010, 0, 2368, 0, 1, true, 0, 0, 0, 0xFFFFFFFF, 0, true⟩
  | .numClear => ⟨0x4014, 0, 2368, 0, 1, true, 0, 0, 1, 0, 0, true⟩
  | .numSeedLo => ⟨0x4018, 0, 2368, 0, 1, true, 0xFFFFFFFF, 0, 0, 0, 0, true⟩
  | .numSeedHi => ⟨0x401C, 0, 2368, 0, 1, true, 0xFFFFFFFF, 0, 0, 0, 0, true⟩
  | .numLast => ⟨0x4020, 0, 2368, 0, 1, true, 0, 0, 0, 0xFFFFFFFF, 0, true⟩
  | .numEvt => ⟨0x4040, 0, 2368, 4, 20, true, 0, 0, 0, 0xFFFFFFFF, 0, true⟩
  | .lzcState => ⟨0x3000, 0, 2368, 0, 1, true, 0, 0, 0, 0x3F03, 0, true⟩
  | .lzcPcLo => ⟨0x3008, 0, 2368, 0, 1, true, 0, 0, 0, 0xFFFFFFFF, 0, true⟩
  | .lzcPcHi => ⟨0x300C, 0, 2368, 0, 1, true, 0, 0, 0, 0x1FFFFFF, 0, true⟩
  | .lzcFault => ⟨0x3010, 0, 2368, 0, 1, true, 0, 0, 0, 0xFFFFF, 0, true⟩
  | .lzcFpcLo => ⟨0x3014, 0, 2368, 0, 1, true, 0, 0, 0, 0xFFFFFFFF, 0, true⟩
  | .lzcFpcHi => ⟨0x3018, 0, 2368, 0, 1, true, 0, 0, 0, 0x1FFFFFF, 0, true⟩
  | .lzcRetLo => ⟨0x3020, 0, 2368, 0, 1, true, 0, 0, 0, 0xFFFFFFFF, 0, true⟩
  | .lzcRetHi => ⟨0x3024, 0, 2368, 0, 1, true, 0, 0, 0, 0xFFFFFFFF, 0, true⟩
  | .lzcCtrl => ⟨0x3028, 0, 2368, 0, 1, true, 0, 0, 3, 0, 0, true⟩
  | .lzcLast => ⟨0x3030, 0, 2368, 0, 1, true, 0, 0, 0, 0xFFFFFFFF, 0, true⟩
  | .mxuState => ⟨0x5000, 0, 2368, 0, 1, true, 0, 0, 0, 0x1FFFFFFF, 0, true⟩
  | .mxuStreamLo => ⟨0x5008, 0, 2368, 0, 1, true, 0, 0, 0, 0xFFFFFFFF, 0, true⟩
  | .mxuStreamHi => ⟨0x500C, 0, 2368, 0, 1, true, 0, 0, 0, 0xFFFFFFFF, 0, true⟩
  | .mxuResid => ⟨0x5010, 0, 2368, 0, 1, true, 0, 0, 0, 0xFFFFFFFF, 0, true⟩
  | .mxuLoadStall => ⟨0x5014, 0, 2368, 0, 1, true, 0, 0, 0, 0xFFFFFFFF, 0, true⟩
  | .mxuCtrl => ⟨0x5018, 0, 2368, 0, 1, true, 1, 0, 0, 0, 0, true⟩
  | .mxuLast => ⟨0x5020, 0, 2368, 0, 1, true, 0, 0, 0, 0xFFFFFFFF, 0, true⟩
  | .vcuState => ⟨0x6000, 0, 2368, 0, 1, true, 0, 0, 0, 0x3F, 0, true⟩
  | .vcuCycLo => ⟨0x6008, 0, 2368, 0, 1, true, 0, 0, 0, 0xFFFFFFFF, 0, true⟩
  | .vcuCycHi => ⟨0x600C, 0, 2368, 0, 1, true, 0, 0, 0, 0xFFFFFFFF, 0, true⟩
  | .vcuFwd => ⟨0x6010, 0, 2368, 0, 1, true, 0, 0, 0, 0xFFFFFFFF, 0, true⟩
  | .vcuCtrl => ⟨0x6014, 0, 2368, 0, 1, true, 1, 0, 0, 0, 0, true⟩
  | .vcuLast => ⟨0x6018, 0, 2368, 0, 1, true, 0, 0, 0, 0xFFFFFFFF, 0, true⟩
  | .dmaState => ⟨0x7000, 0, 2368, 0, 1, true, 0, 0, 0, 0x1FFFFF, 0, true⟩
  | .dmaCtrl => ⟨0x7004, 0, 2368, 0, 1, true, 0x1F, 0, 0, 0, 0x10, true⟩
  | .dmaSplit => ⟨0x7008, 0, 2368, 0, 1, true, 0, 0, 0, 0xFFF, 0x235, false⟩
  | .dmaHaltLimit => ⟨0x700C, 0, 2368, 0, 1, true, 0xFFFFFFFF, 0, 0, 0, 0x2710, true⟩
  | .dmaShort => ⟨0x7010, 0, 2368, 0, 1, true, 0, 0, 0, 0xFFFFFFFF, 0, true⟩
  | .dmaSrecSel => ⟨0x7014, 0, 2368, 0, 1, true, 0xF, 0, 0, 0, 0, true⟩
  | .dmaLast => ⟨0x7018, 0, 2368, 0, 1, true, 0, 0, 0, 0xFFFFFFFF, 0, true⟩
  | .dmaWinCfg => ⟨0x7020, 0, 2368, 0x10, 4, true, 0, 0, 0, 0x9FFFFFFF, 0, true⟩
  | .dmaWinLo => ⟨0x7028, 0, 2368, 0x10, 4, true, 0, 0, 0, 0xFFFFFFFF, 0, true⟩
  | .dmaWinHi => ⟨0x702C, 0, 2368, 0x10, 4, true, 0, 0, 0, 0xFFFFFFFF, 0, true⟩
  | .dmaSrec => ⟨0x7080, 0, 2368, 4, 32, true, 0, 0, 0, 0xFFFFFFFF, 0, true⟩
  | .synState => ⟨0x8000, 0, 2368, 0, 1, true, 0, 0, 0, 0x7F, 0, true⟩
  | .synWaddrLo => ⟨0x8004, 0, 2368, 0, 1, true, 0, 0, 0, 0xFFFFFFFF, 0, true⟩
  | .synWaddrHi => ⟨0x8008, 0, 2368, 0, 1, true, 0, 0, 0, 0x1FFFFFF, 0, true⟩
  | .synWaitCyc => ⟨0x800C, 0, 2368, 0, 1, true, 0, 0, 0, 0xFFFFFFFF, 0, true⟩
  | .synTmo => ⟨0x8010, 0, 2368, 0, 1, true, 0, 0, 0, 0xFFFFFFFF, 0, true⟩
  | .synLast => ⟨0x8014, 0, 2368, 0, 1, true, 0, 0, 0, 0xFFFFFFFF, 0, true⟩

/-- The blocks of R464. -/
inductive Block where
  | glb | kpc | fe | xlt | lke | cis | wel | hif | tlk | ras | sec | window
deriving DecidableEq, Repr

/-- The register rows of a block. -/
def Block.regs : Block → List Reg
  | .glb => [.glbIdent, .glbSpare, .glbLast, .glbClmap]
  | .kpc => [.kpcState, .kpcLast, .kpcCap, .kpcPower, .kpcEvtCap, .kpcEvtInlet, .kpcTemp, 
      .kpcTempMem, .kpcTempInlet, .kpcMaintCfg, .kpcMaintCmd, .kpcMaintState, .kpcVid, .kpcClst, 
      .kpcPlan]
  | .fe => [.feState, .feLast, .feSpillLo, .feSpillHi, .feSpillCfg, .feSpillHead, .feSpillTail, 
      .feQCfg, .feQSqLo, .feQSqHi, .feQCqLo, .feQCqHi, .feQIrq, .feQState, .feQTails, .feQCq, 
      .feQCtrl, .schCmd, .schState, .schPos, .schBank, .schLimits, .schSaveLo, .schSaveHi, 
      .schPolicy, .schTimes, .schCl, .jobLaunchedLo, .jobLaunchedHi, .jobCompletedLo, 
      .jobCompletedHi, .jobFailedLo, .jobFailedHi, .jobAbortedLo, .jobAbortedHi, .jobRestartedLo, 
      .jobRestartedHi, .cmpCtl, .cmpFill, .cmpSteps, .cmpTails, .cmpHeads, .cmpChRingLo, 
      .cmpChRingHi, .cmpStRingLo, .cmpStRingHi, .cmpImageLo, .cmpImageHi, .cmpTemplateLo, 
      .cmpTemplateHi, .cmpBatchLo, .cmpBatchHi, .cmpLaunch, .cmpBatches, .cmpBad, .cycleWord]
  | .xlt => [.xltState, .xltLast, .xltNode, .xltInv, .xltInvVaLo, .xltInvVaHi, .xltInvPages, 
      .xltInvState, .fringLo, .fringHi, .fringCfg, .fringHead, .fringTail, .xltFcmp, .xltFsel, 
      .xltFwait, .xltFtabEvt, .ctxCfg, .ctxRootLo, .ctxRootHi, .ctxCalias, .ctxB2base, .ctxEpoch]
  | .lke => [.lkeTcmd, .lkeLast, .lkeTstage, .cmsHashALo, .cmsHashAHi, .cmsHashBLo, .cmsHashBHi, 
      .cmsThr, .lkeState, .hotCtrl, .hotListLo, .hotListHi, .hotStatus, .lkeEngLast, .cmsCtrl, 
      .cmsBufLo, .cmsBufHi, .rowsHot, .rowsCis, .rowsWell, .rowsAdds, .cmsSet, .lcCmd, .lcLast, 
      .lcState, .lcArg, .instSel, .instLo, .instHi, .pinCur, .pinOther, .migState, .migPages, 
      .migPasses, .migRate, .rpcHits, .rpcMisses, .rpcJoined, .rpcOut, .rpcTagmiss, .rpcFwd, 
      .foldCfg, .foldStat, .govCfg, .govBudget, .govTokens, .govLagnow, .govOver, .govDirty]
  | .cis => [.cisState, .cisLast, .cisPart, .cisWork, .cisScrubCfg, .cisScrubPass, .poolSel, 
      .poolCmd, .poolFree, .poolUsed, .poolLowLo, .poolLowHi, .poolStage, .poolLowEvt, .chState, 
      .chCe, .chUe]
  | .wel => [.welState, .welLast, .welCmd, .welCmdState, .whState, .whLife, .whBudget, .whWa, 
      .whBad, .whMapHit, .whMapMiss, .whMedia, .whReloc, .whScrubCfg, .whTemp, .whLast, 
      .whDieFail, .whRetry]
  | .hif => [.hifState, .hifLast, .hifCfg, .bar2Oor, .hlcHit, .hlcMiss, .hlcSnoop, .hifCtx, 
      .fnWin, .rgnCfg, .rgnMask, .rgnBase, .rgnSize, .rgnCntLo, .rgnCntHi, .rgnDrop, .rgnCtrl, 
      .hifCe]
  | .tlk => [.tlkState, .tlkLast, .tlkNode, .tlkNoroute, .tlkLate, .lnkState, .lnkCtrl, .lnkNbr, 
      .lnkMargin, .lnkFecCorr, .lnkFecUnc, .lnkCrcErr, .lnkReplays, .lnkFailovers, .lnkTxLo, 
      .lnkTxHi, .lnkRxLo, .lnkRxHi, .lnkLast, .rt, .cntCfg, .cntBase, .cntSize, .cntKeyLo, 
      .cntKeyHi, .cntPackets, .cntCtrl, .cntFail, .cntBytesLo, .cntBytesHi, .dsCfg, .dsBase, 
      .dsGeom, .dsKeyLo, .dsKeyHi, .dsChunks, .dsFail]
  | .ras => [.rasState, .rasLast, .sumpHead, .sumpTail, .sumpLost, .sumpCfg, .sumpEvt, .rasHang, 
      .resetCmd, .resetState, .genSel, .rasGen, .rasLate, .chrysLo, .chrysHi, .chrysCfg, 
      .chrysTail, .chrysLast, .scanCfg, .scanPasses, .scanFails, .rasFence, .ceDie]
  | .sec => [.secState, .secLast, .secCmd, .secCountLo, .secCountHi, .secProtEvt, .secDigest, 
      .secCtrl, .winCfg, .winBaseLo, .winBaseHi, .winSize]
  | .window => [.numSticky, .numSatTotal, .numClear, .numSeedLo, .numSeedHi, .numLast, .numEvt, 
      .lzcState, .lzcPcLo, .lzcPcHi, .lzcFault, .lzcFpcLo, .lzcFpcHi, .lzcRetLo, .lzcRetHi, 
      .lzcCtrl, .lzcLast, .mxuState, .mxuStreamLo, .mxuStreamHi, .mxuResid, .mxuLoadStall, 
      .mxuCtrl, .mxuLast, .vcuState, .vcuCycLo, .vcuCycHi, .vcuFwd, .vcuCtrl, .vcuLast, 
      .dmaState, .dmaCtrl, .dmaSplit, .dmaHaltLimit, .dmaShort, .dmaSrecSel, .dmaLast, 
      .dmaWinCfg, .dmaWinLo, .dmaWinHi, .dmaSrec, .synState, .synWaddrLo, .synWaddrHi, 
      .synWaitCyc, .synTmo, .synLast]

end Sys2Proof.Machine
end

