-- ==== Sys2Proof/Machine/Basic.lean ====
section
/-!
DEFINITION. Tables, byte strings, memories in canonical form and status codes: the plain operations that
every other file uses.
-/

namespace Sys2Proof.Machine

/-- Value of a status code (R75). -/
def Code.toNat : Code → Nat
  | .ok => 0x00 | .badOpcode => 0x01 | .badField => 0x02 | .range => 0x03 | .align => 0x04
  | .state => 0x05 | .noResource => 0x06 | .notMapped => 0x07 | .protection => 0x08
  | .poison => 0x09 | .timeout => 0x0A | .aborted => 0x0B | .halted => 0x0C | .busy => 0x0D
  | .version => 0x0E | .digest => 0x0F | .media => 0x10 | .link => 0x11
  | .completionBlocked => 0x12 | .signature => 0x13

/-- The code of a value; 0x14 to 0xFF are reserved (R75). -/
def Code.ofByte : Nat → Option Code
  | 0x00 => some .ok | 0x01 => some .badOpcode | 0x02 => some .badField | 0x03 => some .range
  | 0x04 => some .align | 0x05 => some .state | 0x06 => some .noResource | 0x07 => some .notMapped
  | 0x08 => some .protection | 0x09 => some .poison | 0x0A => some .timeout | 0x0B => some .aborted
  | 0x0C => some .halted | 0x0D => some .busy | 0x0E => some .version | 0x0F => some .digest
  | 0x10 => some .media | 0x11 => some .link | 0x12 => some .completionBlocked
  | 0x13 => some .signature | _ => none

/-- Place of a code in the order of R76, with VERSION after BAD_FIELD (R341). -/
def Code.rank : Code → Nat
  | .badOpcode => 1 | .badField => 2 | .version => 3 | .align => 4 | .range => 5 | .notMapped => 6
  | .protection => 7 | .state => 8 | .noResource => 9 | .poison => 10 | .ok => 100 | _ => 50

/-- The code that R76 reports when several checks of a list fail; OK when none does. -/
def firstCode : List (Bool × Code) → Code
  | [] => .ok
  | (true, c) :: rest => let d := firstCode rest; if d.rank < c.rank then d else c
  | (false, _) :: rest => firstCode rest

/-- The first failing check of a list whose order decides; OK when none does. -/
def firstOf : List (Bool × Code) → Code
  | [] => .ok
  | (true, c) :: _ => c
  | (false, _) :: rest => firstOf rest

namespace SMap

/-- The entry of a key. -/
def get? {α : Type} : SMap α → Nat → Option α
  | [], _ => none
  | (k, v) :: m, i => if k = i then some v else get? m i

/-- Set the entry of a key, keeping the order. -/
def set {α : Type} : SMap α → Nat → α → SMap α
  | [], i, a => [(i, a)]
  | (k, v) :: m, i, a =>
    if i < k then (i, a) :: (k, v) :: m
    else if i = k then (i, a) :: m
    else (k, v) :: set m i a

/-- Remove the entry of a key. -/
def erase {α : Type} : SMap α → Nat → SMap α
  | [], _ => []
  | (k, v) :: m, i => if k = i then erase m i else (k, v) :: erase m i

/-- The entry of a key or a default. -/
def getD {α : Type} (m : SMap α) (i : Nat) (d : α) : α := (get? m i).getD d

/-- Change every entry. -/
def mapV {α : Type} (f : Nat → α → α) (m : SMap α) : SMap α := m.map fun kv => (kv.1, f kv.1 kv.2)

end SMap

/-- Little-endian value of a byte string (R4). -/
def leNat : List Byte → Nat
  | [] => 0
  | b :: bs => b.toNat + 256 * leNat bs

/-- The `n` little-endian bytes of a value (R4). -/
def leBytes : Nat → Nat → List Byte
  | 0, _ => []
  | n + 1, v => BitVec.ofNat 8 v :: leBytes n (v / 256)

/-- Bits [hi:lo] of a value. -/
def bitsOf (v hi lo : Nat) : Nat := (v >>> lo) % 2 ^ (hi - lo + 1)

/-- A value with bits [hi:lo] replaced. -/
def setBits (v hi lo x : Nat) : Nat :=
  let w := 2 ^ (hi - lo + 1)
  v - (bitsOf v hi lo) * 2 ^ lo + (x % w) * 2 ^ lo

/-- A Boolean as a bit. -/
def bit (b : Bool) : Nat := if b then 1 else 0

/-- A memory: cells at strictly rising addresses, none of them zero. An address without a cell reads as
zero (log entry 4). -/
abbrev Mem := List Host.Cell

namespace Mem

/-- What an unlisted address reads as. -/
def unlisted : Byte := 0

/-- One byte. -/
def read : Mem → Nat → Byte
  | [], _ => unlisted
  | (k, b) :: m, a => if k = a then b else if a < k then unlisted else read m a

/-- Write one byte in canonical form. -/
def write : Mem → Nat → Byte → Mem
  | [], a, b => if b = unlisted then [] else [(a, b)]
  | (k, x) :: m, a, b =>
    if a < k then (if b = unlisted then (k, x) :: m else (a, b) :: (k, x) :: m)
    else if a = k then (if b = unlisted then m else (a, b) :: m)
    else (k, x) :: write m a b

/-- Addresses strictly rise above a bound and no cell holds the unlisted value. -/
def wfAbove : Option Nat → Mem → Bool
  | _, [] => true
  | lo, (k, b) :: m =>
    (match lo with | none => true | some l => decide (l < k)) && b != unlisted && wfAbove (some k) m

/-- The canonical form. -/
def wf (m : Mem) : Bool := wfAbove none m

/-- `n` bytes from an address. -/
def readN (m : Mem) (a : Nat) : Nat → List Byte
  | 0 => []
  | n + 1 => read m a :: readN m (a + 1) n

/-- A byte string at an address. -/
def writeL (m : Mem) (a : Nat) : List Byte → Mem
  | [] => m
  | b :: bs => writeL (write m a b) (a + 1) bs

end Mem

/-- Ordered sets of numbers: granules, pages, cores. -/
def setInsert : List Nat → Nat → List Nat
  | [], a => [a]
  | k :: m, a => if a < k then a :: k :: m else if a = k then k :: m else k :: setInsert m a

def setErase (l : List Nat) (a : Nat) : List Nat := l.filter (· != a)

/-- The 64-byte granules that a byte range touches. -/
def granules (a n : Nat) : List Nat :=
  if n = 0 then [] else (List.range ((a + n - 1) / 64 - a / 64 + 1)).map (· + a / 64)

/-- Counters that stop at a largest value. -/
def satAdd (lim a b : Nat) : Nat := min lim (a + b)

namespace Reg

/-- Number of entries of an array of registers. -/
def size (r : Reg) : Nat := r.row.n1 * r.row.n2

/-- Key of a register in the state. -/
def key (r : Reg) (i : Nat) : Nat := r.ctorIdx * 1048576 + i

/-- BAR0 offset of a register (R464, R21). -/
def addr (r : Reg) (i : Nat) : Nat :=
  let w := r.row
  let a := i / w.n2
  let b := i % w.n2
  if w.core then
    let d := a / 592
    let k := (a / 16) % 37
    0x02000000 + (64 * d + k) * 0x10000 + 0x100 * (a % 16) + w.base + w.s2 * b
  else w.base + w.s1 * a + w.s2 * b

/-- Bits that some field of the register covers. -/
def known (r : Reg) : Nat := r.row.rw ||| r.row.w1c ||| r.row.wo ||| r.row.ro

/-- Position of an offset among the entries of a strided array. -/
def find1 (off base s n : Nat) : Option Nat :=
  if off < base then none
  else if n ≤ 1 then (if off = base then some 0 else none)
  else if (off - base) % s = 0 ∧ (off - base) / s < n then some ((off - base) / s) else none

/-- The entry of this row at an offset: within BAR0, or within a window with core C00's base. -/
def find (r : Reg) (off : Nat) : Option Nat :=
  let w := r.row
  if w.core then none
  else if w.n2 ≤ 1 then find1 off w.base w.s1 w.n1
  else if off < w.base then none
  else
    let i := if w.s1 = 0 then 0 else (off - w.base) / w.s1
    if w.n1 ≤ i then none
    else (find1 (off - w.s1 * i) w.base w.s2 w.n2).map (fun j => i * w.n2 + j)

/-- The same within the window of a physical cluster. -/
def findCore (r : Reg) (off : Nat) : Option Nat :=
  let w := r.row
  if w.core then find1 off w.base w.s2 w.n2 else none

end Reg

/-- The block of a BAR0 offset (R464); none for reserved ranges and doorbell pages. -/
def Block.at (off : Nat) : Option Block :=
  if off < 0x100000 then some .glb else if off < 0x200000 then some .kpc
  else if off < 0x400000 then some .fe else if off < 0x600000 then some .xlt
  else if off < 0x800000 then some .lke else if off < 0xA00000 then some .cis
  else if off < 0xC00000 then some .wel else if off < 0xE00000 then some .hif
  else if off < 0x1000000 then some .tlk else if off < 0x1200000 then some .ras
  else if off < 0x1400000 then some .sec
  else if 0x2000000 ≤ off ∧ off < 0x3000000 then some .window
  else none

/-- The first row of a list that has an entry at an offset. -/
def findReg (off : Nat) : List Reg → Option (Reg × Nat)
  | [] => none
  | r :: rs => match r.find off with
    | some i => some (r, i)
    | none => findReg off rs

def findCoreReg (off : Nat) : List Reg → Option (Reg × Nat)
  | [] => none
  | r :: rs => match r.findCore off with
    | some j => some (r, j)
    | none => findCoreReg off rs

/-- Physical core number of a window offset, when the window belongs to a physical cluster and the offset
to a per-core set (R21, R466). -/
def windowCore (off : Nat) : Option Nat :=
  let k := (off - 0x2000000) / 0x10000
  let o := off % 0x10000
  if k % 64 < 37 ∧ k / 64 < 4 ∧ 0x3000 ≤ o ∧ o < 0x9000 then
    some (16 * (37 * (k / 64) + k % 64) + (o / 0x100) % 16)
  else none

/-- The register at a BAR0 offset. -/
def regAt (off : Nat) : Option (Reg × Nat) :=
  match Block.at off with
  | none => none
  | some .window =>
    match windowCore off with
    | none => none
    | some p =>
      let o := off % 0x10000
      match findCoreReg (o - 0x100 * ((o / 0x100) % 16)) Block.window.regs with
      | some (r, j) => some (r, p * r.row.n2 + j)
      | none => none
  | some b => findReg off b.regs

end Sys2Proof.Machine
end

