-- ==== Sys2Proof/Machine/State.lean ====
section
/-!
DEFINITION. The state of the module: every piece of state the spec names, as plain data, with the reasons
a step can stop and the state after reset. INVENTORY.md lists each field with its rule and reset value.
-/

namespace Sys2Proof.Machine

/-- What makes a step end in a fault. The model has none: every rule that stops an agent of the module
leaves a next state of the module. -/
inductive Fault where
  /-- Raised by no command: a place holder so that the type is not empty. Safe: it is never answered. -/
  | none
deriving DecidableEq, Repr

/-- What makes a step refuse a command. -/
inductive Refusal where
  /-- Raised by Dispatch for a command without a meaning yet. Safe: nothing runs. -/
  | notModelled (mnemonic : String)
deriving DecidableEq, Repr

/-- LZC_STATE.RUN. -/
inductive Run where
  | idle | running | waiting | stopped
deriving DecidableEq, Repr

/-- How a core stopped when its launch makes way (save slot header, byte 0x611 of R365). -/
inductive Stop where
  | yieldPoint | wat | cwt | bar | qwt | halted | ended
deriving DecidableEq, Repr

/-- A register that an instruction names (R81). -/
inductive RegRef where
  | s (n : Nat) | p (n : Nat) | t (n : Nat)
deriving DecidableEq, Repr

/-- A leaf of a context's page tables (R306): the page's first physical or host address. -/
structure Leaf where
  host : Bool
  wr : Bool
  /-- A 16 GiB leaf. -/
  big : Bool
  base : Nat
deriving DecidableEq, Repr

/-- A TLB entry (R310): context, first address of the page, epoch and leaf. -/
structure TlbEntry where
  ctx : Nat
  va : Nat
  epoch : Nat
  leaf : Leaf
deriving DecidableEq, Repr

/-- A pointer entry of a walk cache (R312): the table reached for the address bits above `shift`. -/
structure WalkEntry where
  ctx : Nat
  shift : Nat
  key : Nat
  epoch : Nat
  next : Nat
deriving DecidableEq, Repr

/-- A stream (R311). A fetcher is numbered 0 to 143 for the cluster dispatchers, then 16 copy engines, 64
lookup engines and two well halves (log entry 12). -/
inductive Stream where
  | core (c : Nat) | dma (c slot : Nat) | copy (e : Nat) | fetcher (f : Nat)
deriving DecidableEq, Repr

/-- Cause codes of the fault-ring entry (R316). -/
inductive Cause where
  | noEntry | malformed | readOnly | atsFail
deriving DecidableEq, Repr

/-- An open fault record (R314). -/
structure FaultRec where
  ctx : Nat
  page : Nat
  waiters : List Stream
  va : Nat
  write : Bool
  cause : Cause
  epoch : Nat
  first : Stream
deriving DecidableEq, Repr

/-- A running invalidation (R320): context, page range (all when `none`) and epoch before it. -/
structure Inval where
  ctx : Nat
  range : Option (Nat × Nat)
  /-- The invalidation was asked for by the host (R325). -/
  ats : Bool
deriving DecidableEq, Repr

/-- An instruction that a control core's translation holds (R494): walking, or halted on a record. -/
structure Stall where
  cls : Nat
  func : Nat
  w : IWord
  va : Nat
  write : Bool
  epoch : Nat
  record : Option Nat
  /-- The record was completed with OK and the instruction may run again. -/
  ready : Bool
  since : Nat
deriving DecidableEq, Repr

/-- What a pending load writes when its data returns (R286). -/
inductive LoadKind where
  | scalar (dst size : Nat) (signed : Bool)
  | desc (dst : Nat)
  /-- Parameter slots that are resolved (R85): descriptor or scalar destination, values read, slots left,
  whether the bytes awaited are an indirect slot's value, and the first code by R76 of the slots read so far
  with the address read. -/
  | slot (tlp : Bool) (dst : Nat) (got : List DWord) (left : List Nat) (indirect : Bool)
      (err : Option (Code × Nat))
deriving DecidableEq, Repr

/-- A resolution of parameter slots. -/
def LoadKind.isSlot : LoadKind → Bool
  | .slot .. => true
  | _ => false

/-- A control-core load, atomic or descriptor load that missed the data cache. -/
structure PendLoad where
  kind : LoadKind
  pc : BitVec 57
  cls : Nat
  func : Nat
  /-- The bytes read at their point of performance; none until a remote answer arrives. -/
  data : Option (List Byte)
  poison : Bool
  /-- Transaction of a remote load. -/
  tag : Option Nat
  /-- Line of this module's cistern filled by the load: VA, local address and contents. -/
  fill : Option (Nat × Nat × List Byte)
  ctx : Nat
  epoch : Nat
  va : Nat
deriving DecidableEq, Repr

/-- A line of the data cache (R292). -/
structure DLine where
  va : Nat
  pa : Nat
  data : List Byte
deriving DecidableEq, Repr

/-- What a release performs once every earlier access is complete (R296). -/
inductive ReleaseOp where
  | sig (va : Nat) (addend : DWord)
  | rel (va : Nat) (value : DWord)
  | qpt (queue idx : Nat) (status : Nat) (info : Nat) (irq : Bool)
deriving DecidableEq, Repr

/-- A wait of a control core (R82, R294, R353). -/
inductive Wait where
  | wat (va pa : Nat) (thr : DWord) (consume dci : Bool) (dst : Nat) (tmo : Nat) (order : Nat)
  | cwt (kind idx : Nat) (thr : DWord) (dci : Bool) (dst : Nat) (tmo : Nat)
  /-- The value read, with its poison mark, once it has come; the epoch at which the read was issued, and whether it
  reads host memory. -/
  | acq (va : Nat) (data : Option (DWord × Bool)) (dci : Bool) (dst : Nat) (tag : Option Nat) (epoch : Nat) (host : Bool)
  | bar (num : Nat) (dci : Bool) (count : Nat) (arrived : Bool)
  | release (op : ReleaseOp)
  | fen
  | qwt (queue off tmo dst order : Nat)
deriving DecidableEq, Repr

/-- How an element tensor, its scales and its rows lie (R68), as read at dispatch (R82). -/
abbrev Desc := BitVec 256

/-- Bytes of a scratchpad tensor: rows of `w` bytes at `base` plus three strides (R68). -/
structure Area where
  base : Nat
  w : Nat
  e1 : Nat
  e2 : Nat
  e3 : Nat
  s1 : Nat
  s2 : Nat
  s3 : Nat
deriving DecidableEq, Repr

/-- How far a unit instruction has come. -/
inductive Prog where
  /-- Dispatched and not started. -/
  | queued
  /-- Started; for a descriptor, its next request may issue. -/
  | running
  /-- A descriptor in the 24 ns hold of R165. -/
  | short
  /-- A descriptor that waits for a page walk at an address (R311). -/
  | walking (va : Nat) (epoch : Nat)
  /-- A descriptor halted on a fault record since a tick (R173); the flag says the record was completed
  with OK. -/
  | halted (rec : Nat) (va : Nat) (since : Nat) (ready : Bool)
  /-- Every element has been issued. -/
  | issued
deriving DecidableEq, Repr

/-- One column of a weight tile as loaded: its element codes, its block scale codes, and its residual
entries, each as block within the column, residual scale code and element codes (R103, R104). -/
structure TileCol where
  elems : List Nat
  scales : List Nat
  resid : List (Nat × Nat × List Nat)
deriving DecidableEq, Repr

/-- What the checks of R111 need of a weight tile (R110). -/
structure TileSig where
  wide : Bool
  fmt : Nat
  scaling : Nat
  ext0 : Nat
  cols : Nat
deriving DecidableEq, Repr

/-- A weight tile of one array (R103). -/
structure Tile where
  sig : TileSig
  tscale : BitVec 32
  cols : List TileCol
  poison : Bool
deriving DecidableEq, Repr

/-- An accumulator bank (R99): its entries by row times 128 plus column, an absent one holding a free
value under the number of the draw made as the bank was opened, its poisoned rows and its tile flags OVF, NAN and
INVALID (R65). -/
structure Bank where
  isOpen : Bool
  int : Bool
  wide : Bool
  draw : Nat
  cells : SMap Word
  poison : List Nat
  flags : BitVec 3
deriving DecidableEq, Repr

/-- One matrix array (R100): its weight sets and banks. -/
structure Arr where
  active : Option Tile
  shadow : Option Tile
  bank0 : Bank
  bank1 : Bank
deriving DecidableEq, Repr

/-- The state of an array in program order, against which dispatch checks (R110): the tiles, and for each
open bank its type and shape. -/
structure ArrD where
  active : Option TileSig
  shadow : Option TileSig
  bank0 : Option (Bool × Bool)
  bank1 : Option (Bool × Bool)
deriving DecidableEq, Repr

/-- An instruction of classes 0x04 to 0x07 between its dispatch and its completion (R82, R157). -/
structure Job where
  id : Nat
  pc : BitVec 57
  cls : Nat
  func : Nat
  w : IWord
  w2 : DWord
  /-- Descriptor registers as read at dispatch. -/
  descs : SMap Desc
  /-- Scalar registers as read at dispatch. -/
  scal : List DWord
  reads : List Area
  writes : List Area
  /-- Vector chain: the table and the latched operands, which are read as the VCH starts, and then their bytes and
  poisoned lines (R143). -/
  fill : List Area
  latch : Mem
  latchBad : List Nat
  prog : Prog
  /-- Matrix: the tiles that the instruction streams through, by array, taken as it starts. -/
  tiles : SMap Tile
  /-- Matrix: N, the columns that it forwards, and the paired VCH (R107, R146). Vector chain: the pairing
  MST. -/
  cols : Nat
  pair : Option Nat
  /-- Vector chain: rows taken from the direct path, each with its poison mark, once forwarded. -/
  fwd : Option (List (List Word × Bool))
  /-- DMA: slot (R157), element bytes issued (R176), target (0 cistern, 1 host, 2 remote, 3 unknown). For an
  MST, `done` is the stream period and `target` the INT32 type plus twice the wide mode; for a VCH, `done` is
  the rows of its shape under DIRECT and `target` the INT32 type of a bank it reads. -/
  slot : Nat
  done : Nat
  target : Nat
  /-- DMA, FIL, SCP: granules that may still move before other agents act (R291); none for all. -/
  quota : Option Nat
deriving DecidableEq, Repr

/-- An array without tiles, both banks closed (R101). -/
def Arr.reset : Arr := ⟨none, none, ⟨false, false, false, 0, [], [], 0⟩, ⟨false, false, false, 0, [], [], 0⟩⟩

/-! Lookup and tables (R177 to R236) -/

/-- A registered table (R177): its descriptor, its shard map, and its INSTAR field (R220). -/
structure Table where
  rows : Nat
  elems : Nat
  fmt : Nat
  scaling : Nat
  rsc : Bool
  rbi : Bool
  upd : Bool
  noshd : Bool
  tscale : BitVec 32
  gshift : Nat
  /-- Node and engine of each shard. -/
  shards : List (Nat × Nat)
  cur : Nat
  other : Nat
  /-- OSTATE: 0 NONE, 1 BUILDING, 2 SEALED, 3 RETIRING, 4 RETIRING_HELD. -/
  ostate : Nat
  mirror : Bool
  clone : Bool
  packCur : Bool
  packOther : Bool
  /-- The table has received a row write, an add or a BEGIN (R209). -/
  touched : Bool
deriving DecidableEq, Repr

/-- A row page or locator page that holds anything (R207, R208), cached or only in the well. -/
structure Page where
  tid : Nat
  group : Nat
  page : Nat
  /-- A locator page, or a page found through locators. -/
  loc : Bool
  packed : Bool
  /-- Instars that the page belongs to: two while shared under CLONE (R224). -/
  insts : List Nat
  engine : Nat
  /-- Contents in the row-page cache; none when the page is only in the well. -/
  data : Option (List Byte)
  /-- Poisoned 64-byte granules, 0 to 31 (R223). -/
  poison : List Nat
  /-- Place in log order and tick at which it became dirty (R233). -/
  dirty : Option (Nat × Nat)
  /-- A write-back is under way; the place and tick at which the page was dirtied again after it began, and
  whether its bytes were counted above the budget (R233, R234). -/
  writing : Bool
  again : Option (Nat × Nat)
  above : Bool
  /-- It has a miss entry (R212). -/
  miss : Bool
  /-- Its logical page number in the well half of its engine, once assigned (R262). -/
  lpn : Option Nat
  /-- Order of the last use. -/
  used : Nat
  /-- The instar by which the page's set was chosen (R210). -/
  hashed : Nat
  /-- Rows that live in a page found through locators, as instar and row, none when only the locators say; and
  whether the return of the page has joined its miss entry (R215). -/
  rows : Option (List (Nat × Nat))
  swept : Bool
  /-- Bytes at which rows begin that WRITE_ROWS has written since granules were poisoned (R223). -/
  fresh : List Nat
deriving DecidableEq, Repr

/-- An update shadow (R229): FP32 elements of a row's instars, its engine, the tick of its first add and
whether a poisoned add went into it. -/
structure Shadow where
  tid : Nat
  row : Nat
  insts : List Nat
  engine : Nat
  vec : List Word
  since : Nat
  bad : Bool
  /-- Its fold is due and waits for the row's page, whose miss entry it has joined. -/
  due : Bool
  wait : Option Nat
deriving DecidableEq, Repr

/-- A directory entry (R216): 0 HOME, 1 REMOTE, 2 MOVING, 3 FORWARD; node and engine; for MOVING the
engine that serves the group and the entry before MIGRATE. -/
structure DirEntry where
  kind : Nat
  node : Nat
  engine : Nat
  home : Nat
  prior : Option (Nat × Nat × Nat)
deriving DecidableEq, Repr

/-- Who waits for a partial sum: a bag of a lookup job of a core, a requester on another node by node and tag,
or a part of such a requester at an engine that forwarded some of its rows (R219). -/
inductive Sender where
  | core (c job bag : Nat)
  | node (n tag : Nat)
  | relay (e n tag : Nat)
deriving DecidableEq, Repr

def Sender.isNode : Sender → Bool
  | .node .. => true
  | _ => false

/-- A part at its home engine (R197): rows still to pool with their weights, and what has been pooled. -/
structure RowPart where
  sender : Sender
  tid : Nat
  inst : Nat
  engine : Nat
  /-- 0 GATHER, 1 SUM, 2 MEAN, 3 GATHER under RAW. -/
  op : Nat
  items : List (Nat × Word)
  vec : List Word
  count : Nat
  /-- Flags byte of R189. -/
  flags : BitVec 8
  bad : Bool
  raw : List Byte
  /-- Rows forwarded elsewhere and not yet answered. -/
  subs : Nat
  /-- The engine has taken it, on a half of its hot-row store (R205); the rows that it took then, and the pages
  whose miss entries it has joined. -/
  begun : Bool
  half : Bool
  all : List Nat
  waits : List Nat
deriving DecidableEq, Repr

/-- An add at its home engine (R191). -/
structure Add where
  sender : Sender
  tid : Nat
  inst : Nat
  engine : Nat
  row : Nat
  vec : List Word
  bad : Bool
  begun : Bool
  since : Nat
  /-- Tag of the other half of a split UPDATE. -/
  also : Option Nat
  /-- The page whose miss entry it has joined, and the tick since which it waits for the shadow pool (R230). -/
  wait : Option Nat
  held : Option Nat
deriving DecidableEq, Repr

/-- A partial sum on its way to a bag combiner of this module (R197), or the code that ends its part. -/
structure Psum where
  core : Nat
  job : Nat
  bag : Nat
  vec : List Word
  count : Nat
  flags : BitVec 8
  bad : Bool
  raw : List Byte
  code : Code
deriving DecidableEq, Repr

/-- A hot entry (R203): the row's stored bytes, as at its home, and the bytes of the half that it takes. -/
structure HotEntry where
  tid : Nat
  row : Nat
  inst : Nat
  raw : List Byte
  bad : Bool
  size : Nat
deriving DecidableEq, Repr

/-- One engine's slice of the hot-row store (R203 to R205): entries of half 0 and half 1, and a load's list
address, entries left and position. -/
structure Hot where
  h0 : List HotEntry
  h1 : List HotEntry
  load : Option (Nat × Nat × Nat)
  /-- The page whose miss entry the load has joined. -/
  wait : Option Nat
deriving DecidableEq, Repr

/-- A sketch set (R200, R201): counters by 4,096 times depth plus index, and candidates by row with their
estimates. -/
structure Sketch where
  counters : SMap Nat
  cands : List (Nat × Nat)
deriving DecidableEq, Repr

/-- A row that repacking moves (R215): its engine, and the page whose miss entry its move has joined. -/
structure Cand where
  tid : Nat
  inst : Nat
  group : Nat
  row : Nat
  engine : Nat
  wait : Option Nat
deriving DecidableEq, Repr

/-- A migration (R217, R218): its group, its destination, the pages of the present pass, the delta map, and
whether it has begun to cut over. -/
structure Mig where
  tid : Nat
  group : Nat
  node : Nat
  engine : Nat
  copying : List Nat
  delta : List Nat
  cutting : Bool
deriving DecidableEq, Repr

/-- The lifecycle command that runs (R223, R230, R236). -/
inductive LcRun where
  /-- Table, target is the other instar, next entry's address, entries left. -/
  | write (tid : Nat) (other : Bool) (at_ left : Nat)
  /-- Table, rows to fold, as table, row and instar of their shadow, and whether one met an unreadable page. -/
  | fold (tid : Nat) (rows : List (Nat × Nat × Nat)) (code : Code)
  /-- FLUSH: rows to fold; once they are, the place in log order before which every dirty page is to be
  written back. -/
  | flush (rows : List (Nat × Nat × Nat)) (mark : Option Nat) (code : Code)
deriving DecidableEq, Repr

/-- A bag in the combiner of a core (R198): parts not yet answered, sum so far, count and flags. -/
structure Bag where
  job : Nat
  bag : Nat
  left : Nat
  vec : List Word
  count : Nat
  flags : BitVec 8
  bad : Bool
  raw : List Byte
deriving DecidableEq, Repr

/-- A bag whose parts wait for combiner space: for each part, node, engine and items (R198). -/
structure BagWait where
  job : Nat
  bag : Nat
  flags : BitVec 8
  bad : Bool
  parts : List (Nat × Nat × List (Nat × Word))
deriving DecidableEq, Repr

/-- An add or part of a core that waits for a transaction tag (R397). -/
structure LkWait where
  job : Nat
  bag : Nat
  isAdd : Bool
  pkt : Packet
deriving DecidableEq, Repr

/-! The well (R257 to R281) -/

/-- A request at a well half, in order of arrival (R263). -/
inductive WellReq where
  | read (lpn : Nat)
  | write (lpn page : Nat) (data : List Byte)
  | trim (lpn : Nat)
deriving DecidableEq, Repr

/-- A programmed codeword (R259): its kind (0 data, 1 map page, 2 journal, 3 system), number, write sequence number,
number of the media key, and plain data bytes. -/
structure Cell where
  kind : Nat
  lpn : Nat
  seq : Nat
  key : Nat
  data : List Byte
deriving DecidableEq, Repr

/-- A block: erase count, reads since it was programmed (R272), the seven read-level offsets (R271), the highest
temperature of its package since its last scrub and the codeword that the next scrub samples (R270), and the stripe
block that it belongs to. -/
structure Blk where
  erases : Nat
  reads : Nat
  offsets : List Int
  hot : Nat
  rot : Nat
  stripe : Option Nat
deriving DecidableEq, Repr

/-- A stripe block in use (R260): group, plane, its blocks as channel and block, page positions programmed, and whether
it waits for its erase. -/
structure Stripe where
  group : Nat
  plane : Nat
  blks : List (Nat × Nat)
  pos : Nat
  gone : Bool
deriving DecidableEq, Repr

/-- A NAND read in progress (R275): LPN, location, step of the retry ladder, and the read levels of each of the reads
that the step makes (R271). -/
structure NandRead where
  lpn : Nat
  pca : Nat
  step : Nat
  levels : List (List Int)
deriving DecidableEq, Repr

/-- A checkpoint (R266): the locations of the map pages, the bad-block table, erase counts and read-level offsets. -/
structure Ckpt where
  mapAt : SMap Nat
  bad : List Nat
  wear : SMap Nat
  offsets : SMap (List Int)
deriving DecidableEq, Repr

/-- A write in the write buffer (R263): the page that it cleans, and whether it has been acknowledged. -/
structure BufWrite where
  lpn : Nat
  page : Nat
  data : List Byte
  acked : Bool
deriving DecidableEq, Repr

/-- One half of the well. -/
structure Well where
  reqs : List WellReq
  reads : List NandRead
  buf : List BufWrite
  /-- Map of R262: PCA by LPN. -/
  map : SMap Nat
  /-- Places of the map pages in flash by number, of the journal's codewords since the last checkpoint, and of that
  checkpoint's (R266). -/
  mapAt : SMap Nat
  jourAt : List Nat
  sysAt : List Nat
  /-- Map changes that the journal in flash lacks, oldest first, and map pages that changed since the last
  checkpoint. -/
  pend : List (Nat × Option Nat)
  touched : List Nat
  /-- The map as the checkpoint and the journal in flash give it, and the sequence number at its last write. -/
  jmap : SMap Nat
  jseq : Nat
  ckpt : Ckpt
  /-- How the journal ends: 0 no marker, 1 a clean shutdown, 2 a completed power-loss sequence, 3 a warm reset (R276,
  R278, R281). -/
  marker : Nat
  /-- Pages whose WRITE is acknowledged once the journal is written (R263). -/
  unacked : List (Nat × Nat)
  /-- Programmed codewords by PCA, and the stored bytes of the parity codewords (R260). -/
  cells : SMap Cell
  parity : SMap (List Byte)
  /-- Blocks by bits [33:14] of their PCAs; an absent one is free and was never erased. -/
  blocks : SMap Blk
  /-- Stripe blocks in use by number, the four that are open, one on each plane of a group, and the next number. -/
  stripes : SMap Stripe
  opened : List Nat
  nextStripe : Nat
  /-- Stripe blocks being erased, and those that a SANITIZE erases. -/
  erasing : List Nat
  sanit : List Nat
  lost : List Nat
  seq : Nat
  /-- Answers to READs on their way to the row-page cache, with their code. -/
  arrived : List (Nat × Code × List Byte)
  /-- Failed dies as 8 * channel + die, and the groups that are being rebuilt (R274). -/
  failed : List Nat
  rebuilding : List Nat
  /-- The bad-block table's factory and grown entries (R273), and the blocks that failed within the hour with their
  tick (R274). -/
  factory : List Nat
  grown : List Nat
  fails : List (Nat × Nat)
  /-- Number of the media key in use, and of the wrapped one in the system area (R280). -/
  key : Nat
  wrapped : Nat
  /-- Codewords written for the lookup engines and codewords programmed (R267): now, and on each of the last 30 days
  before the first program of the day. -/
  written : Nat
  programmed : Nat
  marks : List (Nat × Nat × Nat)
  /-- LPNs assigned by the engine side: the next one, and those returned by TRIM. -/
  lpnNext : Nat
  lpnFree : List Nat
  /-- The daily write budget last reported and the days in service then (R268). -/
  rated : Rat
  days : Nat
  /-- The readings of the half's package sensors (R270). -/
  temps : List Nat
deriving DecidableEq, Repr

/-- A half without media data (log entry 18). -/
def Well.reset : Well where
  reqs := []
  reads := []
  buf := []
  map := []
  mapAt := []
  jourAt := []
  sysAt := []
  pend := []
  touched := []
  jmap := []
  jseq := 0
  ckpt := ⟨[], [], [], []⟩
  marker := 1
  unacked := []
  cells := []
  parity := []
  blocks := []
  stripes := []
  opened := []
  nextStripe := 0
  erasing := []
  sanit := []
  lost := []
  seq := 0
  arrived := []
  failed := []
  rebuilding := []
  factory := []
  grown := []
  fails := []
  key := 0
  wrapped := 0
  written := 0
  programmed := 0
  marks := []
  lpnNext := 0
  lpnFree := []
  rated := 0
  days := 0
  temps := []

/-- A batch buffer in use (R372): its number, and the queue, ring index and TAG of its launch entry. -/
structure Batch where
  buf : Nat
  queue : Nat
  idx : Nat
  tag : Nat
deriving DecidableEq, Repr

/-- One core (R22, R66). -/
structure Core where
  /-- What the core does (LZC_STATE). -/
  run : Run
  /-- Launch that runs on the core. -/
  launch : Option Nat
  /-- Context of that launch. -/
  ctx : Nat
  /-- PC, a device address (R66). -/
  pc : BitVec 57
  /-- s1 to s63; an absent register is zero and s0 is never present (R66). -/
  s : SMap DWord
  /-- Bit i holds p(i); bit 0 is not used (R66). -/
  p : BitVec 8
  /-- t0 to t31; an absent one is zero (R66, R68). -/
  t : SMap Desc
  /-- CST (R97). -/
  cst : DWord
  /-- LZC_FAULT: code of the fault that stopped the core (R77). -/
  fault : Code
  /-- CLASS and FUNC of the instruction that faulted (LZC_FAULT). -/
  faultCls : Nat
  /-- FUNC of that instruction. -/
  faultFunc : Nat
  /-- LZC_FAULT_PC (R77). -/
  faultPc : BitVec 57
  /-- Instructions retired (LZC_RETIRED). -/
  retired : DWord
  /-- Registers that a pending load or a unit instruction still writes (R81). -/
  busy : List RegRef
  /-- Loads whose data has not returned (R81, R286). -/
  loads : List PendLoad
  /-- An access that waits for its translation (R314). -/
  stall : Option Stall
  /-- A wait of class 0x08, of FEN or of QWT (R298, R353). -/
  wait : Option Wait
  /-- Jobs that the next instruction waited on when it was last tried (R175). -/
  heldBy : List Nat
  /-- Where the core has stopped to make way (R363). -/
  stop : Option Stop
  /-- The core has completed END (R95). -/
  ended : Bool
  /-- KEEP of the last YLD, in 4 KiB units (R368). -/
  keep : Nat
  /-- TLB, newest first (R310). -/
  tlb : List TlbEntry
  /-- Data-cache lines, newest first (R292). -/
  dcache : List DLine
  /-- Lines of the instruction cache, by address. -/
  icache : List Nat
  /-- SYN_WADDR (R299). -/
  waddr : Nat
  /-- Unit instructions dispatched and not yet complete, in program order (R82). -/
  jobs : List Job
  /-- The next unit instruction's number. -/
  nextJob : Nat
  /-- MX0 to MX3; an absent one is `Arr.reset`. -/
  arrs : SMap Arr
  /-- The arrays in program order (R110); an absent one has nothing. -/
  arrds : SMap ArrD
  /-- Seed of the stochastic-rounding generator (R63). -/
  srSeed : DWord
  /-- Element positions written since the seed was loaded (R63). -/
  srPos : Nat
  /-- Stream records by slot (R176). -/
  srec : SMap (List Byte)
  /-- Bags of the lookup unit in flight (R197). -/
  bags : List Bag
  /-- Bags that wait for space (R198). -/
  bagWaits : List BagWait
  /-- Packets of lookups that wait for a tag (R397). -/
  lkWaits : List LkWait
deriving DecidableEq, Repr

/-- A core after reset: idle, every register zero where the spec gives no value (log entry 6). -/
def Core.reset : Core where
  run := .idle
  launch := none
  ctx := 0
  pc := 0
  s := []
  p := 0
  t := []
  cst := 0
  fault := .ok
  faultCls := 0
  faultFunc := 0
  faultPc := 0
  retired := 0
  busy := []
  loads := []
  stall := none
  wait := none
  heldBy := []
  stop := none
  ended := false
  keep := 256
  tlb := []
  dcache := []
  icache := []
  waddr := 0
  jobs := []
  nextJob := 0
  arrs := []
  arrds := []
  srSeed := 0
  srPos := 0
  srec := []
  bags := []
  bagWaits := []
  lkWaits := []

/-- FE_Q_n_STATE.FETCH. -/
inductive Fetch where
  | idle | active | blocked | stalled
deriving DecidableEq, Repr

/-- A completion record (R344) before it is laid out in its ring. -/
structure Rec where
  tag : Nat
  queue : Nat
  sqHead : Nat
  seq : Nat
  status : Code
  tries : Nat
  unit : Nat
  time : Nat
  info : Nat
  irqNow : Bool
deriving DecidableEq, Repr

/-- A queue (R327): ring indices, phase, fetch state, waiting and unsignalled records. -/
structure Queue where
  sqHead : Nat
  sqTail : Nat
  cqHead : Nat
  cqTail : Nat
  phase : Bool
  fetch : Fetch
  buf : List Rec
  /-- Records written to the ring and not yet signalled, and the tick of the oldest (R347). -/
  unsig : Nat
  unsigSince : Nat
  /-- Entries taken whose records are not yet made. -/
  running : Nat
deriving DecidableEq, Repr

/-- An entry fetched by an owner and not yet taken (R333): its queue, ring index, bytes and poison. -/
structure Entry where
  queue : Nat
  idx : Nat
  bytes : List Byte
  poison : Bool
deriving DecidableEq, Repr

/-- The stages of a launch. -/
inductive Phase where
  /-- Taken and not started (R361). -/
  | waiting
  | running
  /-- Failed or ended; its cores have stopped and its writes are not yet complete (R343). -/
  | ending
  | suspended
  /-- A failed attempt that R350 starts again. -/
  | restart
deriving DecidableEq, Repr

/-- An open barrier episode (R300). -/
structure Episode where
  count : Nat
  arrived : List Nat
deriving DecidableEq, Repr

/-- What a core of a suspended launch halts on (R366): the core, its halted descriptor (none for the control core's
own access), the fault record, and the code with which the record was completed meanwhile. -/
structure Halt where
  core : Nat
  job : Option Job
  rec_ : Nat
  code : Option Code
deriving DecidableEq, Repr

/-- A launch (R335, R337, R339) from its taking to its record. -/
structure Launch where
  seq : Nat
  phase : Phase
  queue : Nat
  sqHead : Nat
  tag : Nat
  irqNow : Bool
  first : Nat
  clusters : Nat
  cls : Nat
  ctx : Nat
  image : Nat
  param : Nat
  restartable : Bool
  retries : Nat
  minCores : Nat
  codeSize : Nat
  entry : Nat
  /-- COUNT and the indirection bits of the parameter block's header, as read at launch start (R339). -/
  count : Nat
  ind : Nat
  tids : List Nat
  windows : List (BitVec 64)
  /-- Physical core numbers, in launch order (R342). -/
  cores : List Nat
  /-- Pinned table instars (R221): TID and instar. -/
  pins : List (Nat × Nat)
  code : Code
  unit : Nat
  info : Nat
  tries : Nat
  /-- Keeper tick at which it was taken or suspended (waiting time, R361). -/
  since : Nat
  /-- Keeper tick of the first attempt's start, and of the present start. -/
  started : Nat
  startedNow : Nat
  /-- The launch has been asked to make way (R363). -/
  asked : Bool
  askedSince : Nat
  /-- The launch reserves its span (R361). -/
  reserved : Bool
  barriers : SMap Episode
  /-- Cores whose kept arrival closed its episode before they execute their BAR again (R300). -/
  passed : List Nat
  /-- Task entries taken and not posted (R354): queue, ring index, TAG, SQ_HEAD. -/
  tasks : List (Nat × Nat × Nat × Nat)
  /-- Suspended (R364): halts, and the instructions that each core had issued. -/
  halts : List Halt
  issued : SMap DWord
deriving DecidableEq, Repr

/-- A command-queue entry that waits for the end of the last command it started (R336). -/
structure CmdJob where
  queue : Nat
  sqHead : Nat
  tag : Nat
  /-- Which command it waits on: 0 lifecycle, 1 well, 2 hot load of an engine, 3 sketch snapshot. -/
  kind : Nat
  unit : Nat
deriving DecidableEq, Repr

/-- A sump entry (R421). -/
structure Sump where
  seq : Nat
  time : Nat
  kind : Nat
  inst : Nat
  status : Code
  action : Nat
  ctx : Option Nat
  launch : Nat
  loc : Nat
  detail : Nat
  count : Nat
  gen : Nat
deriving DecidableEq, Repr

/-- A configuration-write record that waits to be folded (R459), before its COUNT is known. -/
structure DigRec where
  src : Nat
  fn : Nat
  off : Nat
  val : Nat
deriving DecidableEq, Repr

/-- What a Turlis transaction of this module serves (R397). -/
inductive Owner where
  /-- A store or REL of a core's control core. -/
  | store (c : Nat)
  /-- A pending load of a core, by its destination (R286). -/
  | load (c : Nat)
  | acq (c : Nat)
  /-- A DMA descriptor: job, and the scratchpad address a read returns to. -/
  | dma (c job pad : Nat)
  /-- A copy job: local cistern or host address that a read returns to. -/
  | copy (job : Nat) (host : Bool) (addr : Nat)
  /-- A part of a bag, and an add, by core and lookup job. -/
  | part (c job bag : Nat)
  | update (c job : Nat)
  /-- The rows of another node's part that its engine forwards while it pools the rest (R219): engine, node and
  tag. -/
  | relay (e n tag : Nat)
  /-- The domain that asked has been reset since: the answer is dropped (R427). -/
  | gone
  | other
deriving DecidableEq, Repr

/-- An outstanding Turlis transaction (R397): its packet, for a retry, and what it belongs to. -/
structure Txn where
  owner : Owner
  pkt : Packet
  ctx : Nat
  epoch : Nat
  va : Nat
  since : Nat
  /-- Tick of the first refusal with BUSY, and whether a retry is due (R170). -/
  refused : Option Nat
  retry : Bool
deriving DecidableEq, Repr

/-- A chunk of a digest stream or of a Turlis counter (R405 to R408): bytes counted and their digest in this
round, the digest that came or went with the round, and the settling of a disagreement. -/
structure Chunk where
  bytes : Nat
  sum : Nat
  /-- Stream: the digest last sent. Counter: the digest that has arrived. -/
  digest : Option Nat
  /-- The digest that came with RESENT set. -/
  resent : Option Nat
  /-- A disagreement is open, since a tick. -/
  settling : Option Nat
  /-- Node that sent the round (counter). -/
  peer : Nat
deriving DecidableEq, Repr

/-- A host write that waits for a port whose link is down (R378), or behind one that waits. -/
structure HostWait where
  port : Nat
  owner : Owner
  ctx : Nat
  epoch : Nat
  va : Nat
  addr : Nat
  bytes : List Byte
  poison : Bool
  since : Nat
  /-- It follows the context's earlier host writes (R284). -/
  follows : Bool
deriving DecidableEq, Repr

/-- A request to a cistern channel that waits outside it (R250): its channel-local offset, the data of a write, and
what a read finds wrong. -/
structure CisReq where
  off : Nat
  data : Option (List Byte)
  err : AccessErr
deriving DecidableEq, Repr

/-- The answer to a read of an access: its offset, data and poison mark. -/
structure CisAns where
  off : Nat
  data : List Byte
  poison : Bool
deriving DecidableEq, Repr

/-- A sub-channel (R237, R251): it serves writes, the reads that it holds with their answers, and the offsets of
its writes. -/
structure SubChan where
  writing : Bool
  reads : List CisAns
  writes : List Nat
deriving DecidableEq, Repr

/-- What lies in a poisoned access of the module's own slices (R246): tags or tables, a granule of a cached page, or
a shadow by table, row and instar. -/
inductive OwnCell where
  | table
  | page (id g : Nat)
  | shadow (tid row inst : Nat)
deriving DecidableEq, Repr

/-- An allocator pool (R252): its descriptor's fields, its free blocks by address with class, and its
allocated blocks. -/
structure Pool where
  base : Nat
  size : Nat
  classes : Nat
  merge : Bool
  low : Nat
  free : SMap Nat
  used : SMap Nat
deriving DecidableEq, Repr

/-- A host translation that the ATS cache of an X die holds (R325): context, epoch, host page as the leaf names it, and
the page that the host translates it to. -/
structure AtsEntry where
  ctx : Nat
  epoch : Nat
  page : Nat
  hpa : Nat
deriving DecidableEq, Repr

/-- How a host request is marked (R325, R376): its port, the function whose identity it carries, its PASID, and its
translated address. -/
structure HostReq where
  port : Nat
  fn : Nat
  pasid : Option Nat
  hpa : Option Nat
deriving DecidableEq, Repr

/-- What has left the module (log entry 9). -/
inductive Out where
  /-- An MSI-X message of a function's appearance on a port (R347, R376). -/
  | msix (port fn vec : Nat)
  /-- A write sent to host memory on a port (R283): address and bytes, and its poisoned attribute. -/
  | hostWrite (req : HostReq) (addr : Nat) (bytes : List Byte) (poison : Bool)
  /-- A translation request for a host page of a context, by the cache of an X die (R325). -/
  | atsRequest (die : Nat) (req : HostReq) (page : Nat)
  /-- A zero-length read on a port (R284). -/
  | zeroRead (port : Nat)
  /-- The completion of a read of the module: data, poisoned attribute, or Unsupported Request. -/
  | readData (bytes : List Byte) (poison : Bool)
  | unsupported
  /-- A packet sent on a link, in its DATA flits (R390, R400). -/
  | packet (link : Nat) (p : Packet) (flits : List (List Byte))
  /-- DATA flits sent again on a link from a sequence number (R391), and the failover pattern (R410). -/
  | replay (link seq : Nat)
  | pattern (link : Nat)
  /-- The answer to an ATS invalidation (R325). -/
  | atsDone (ctx : Nat)
  /-- A management response: command, module status code and value. -/
  | response (cmd : Nat) (code : Code) (bytes : List Byte)
deriving DecidableEq, Repr

/-! ### Copy engines, links, resets, power and boot (R386 to R481) -/

/-- A copy job from its taking to its record (R386, R387): its queue, SQ_HEAD, TAG and flags, its engine, job
slot and entry, bytes moved in row order, the halves of its translation that it holds, the direction of the
translation that it waits for, and the code it ends with. -/
structure CopyJob where
  queue : Nat
  sqHead : Nat
  tag : Nat
  irqNow : Bool
  order : Bool
  engine : Nat
  /-- Job slot of a running job. -/
  slot : Option Nat
  src : Nat
  dst : Nat
  len : Nat
  rows : Nat
  sstride : Nat
  dstride : Nat
  done : Nat
  /-- Pieces that may still move before other agents act (R291); none for all. -/
  quota : Option Nat
  prog : Prog
  srcT : Option TlbEntry
  dstT : Option TlbEntry
  write : Bool
  code : Code
  info : Nat
deriving DecidableEq, Repr

/-- A packet that waits for credits at a link (R393), and the link and credit class that it came in by. -/
structure Waiting where
  pkt : Packet
  back : Option (Nat × Nat)
deriving DecidableEq, Repr

/-- One Turlis link (R390 to R394, R410): the number of the last DATA flit received and whether it asks for a
replay; the number of the next flit sent, the replay buffer as packets with the number of their last flit,
the number of the last flit acknowledged; the five credit counts used, seen back, and freed here; packets
received and not performed, packets that wait to leave; a failover under way, and its failed lanes. -/
structure Link where
  rxSeq : Nat
  rpl : Bool
  txSeq : Nat
  acked : Nat
  replay : List (Nat × Packet)
  used : List Nat
  seen : List Nat
  freed : List Nat
  rx : List Packet
  /-- Bytes received of a packet that goes on in the next DATA flit (R390). -/
  part : List Byte
  wait : List Waiting
  failover : Bool
  failRx : Option Nat
  failTx : Option Nat
deriving DecidableEq, Repr

/-- A link as training leaves it. Flit numbers begin at 1, and the last one received is 0. -/
def Link.reset : Link := ⟨0, false, 1, 0, [], [0, 0, 0, 0, 0], [0, 0, 0, 0, 0], [0, 0, 0, 0, 0], [], [], [], false, none, none⟩

/-- A domain reset (R426): kind, instance, cause as in the chrysalis record, phase (0 due, 1 quiesce, 2 reset
proper, 3 return), whether RAS_RESET_CMD commanded it, the core that is fenced when it ends (R431), and its sump entry. -/
structure DomReset where
  kind : Nat
  inst : Nat
  cause : Nat
  phase : Nat
  command : Bool
  fence : Option Nat
  seq : Nat
deriving DecidableEq, Repr

/-- A copy of the boot descriptor (R453): its sequence number, the slot it prefers, and whether its CRC holds. -/
structure BootDesc where
  seq : Nat
  pref : Nat
  crcOk : Bool
deriving DecidableEq, Repr

/-- A register write that is held at its port (R460): who sent it, the BAR0 offset, and the value. -/
structure HeldWrite where
  src : Src
  off : Nat
  val : Word
deriving DecidableEq, Repr

/-- Where the power of the module stands (R440, R473): no keeper, the keeper alone, or the dies powered. -/
inductive Power where
  | off | keeper | on
deriving DecidableEq, Repr

set_option maxRecDepth 2048 in
/-- The module. -/
structure State where
  /-- Commands that wait, first in first out (the model's own). -/
  pending : List Instr
  /-- Free values drawn (the model's own, log entry 1). -/
  free : Nat
  /-- Keeper ticks of 20 ns since cold reset (R438). -/
  ticks : Nat
  /-- Arithmetic-clock cycles since cold reset (R97). -/
  cycle : Nat
  /-- Registers of the register tables, by key; an absent one holds its reset value. -/
  regs : SMap Word
  /-- HI words latched when their LO words were read (R465). -/
  latch : SMap Word
  cores : SMap Core
  /-- Launches by the model's number, from taking to record; next number; last sequence number. -/
  launches : SMap Launch
  nextLaunch : Nat
  seq : Nat
  queues : SMap Queue
  /-- Entries fetched and not yet taken, by queue; the last LAUNCH queue served, by dispatcher (R361). -/
  fetched : SMap (List Entry)
  turn : SMap Nat
  cmdJobs : List CmdJob
  /-- Cistern working memory, its poisoned granules, and the key under which a granule of a sealed pool
  was encrypted (R249, R240, R462). -/
  cis : Mem
  cisPoison : List Nat
  cisKey : SMap Nat
  /-- Host memory as the module sees it (R282). -/
  host : Mem
  /-- Scratchpads by core, and their poisoned lines. -/
  pads : SMap Mem
  padPoison : SMap (List Nat)
  /-- Open fault records, those waiting for ring space in order, the ring's phase, the invalidation that
  runs, walk caches by pool, ATS caches by X die (R312 to R325). -/
  recs : SMap FaultRec
  ringWait : List Nat
  ringPhase : Bool
  inval : Option Inval
  wcache : SMap (List WalkEntry)
  ats : SMap (List AtsEntry)
  /-- Streams with a miss outstanding, in the order in which they take walkers (R312). -/
  walkQ : List Stream
  /-- The spill ring's phase and the records that wait for it are in the queues (R349). -/
  sump : SMap Sump
  outbox : List Out
  /-- Configuration digest D and count N, and the records that wait (R459, R460). -/
  digD : List Byte
  digN : Nat
  digQ : List DigRec
  /-- Writes held at their ports while 4,096 records wait, in order (R460). -/
  held : List HeldWrite
  /-- MSI-X vectors masked and pending, as port * 131,072 + function * 2,048 + vector (R347, R376). -/
  msixMask : List Nat
  msixPend : List Nat
  /-- A sump entry has been written since the last message (R421). -/
  sumpIrq : Bool
  /-- Outstanding Turlis transactions by X die times 8,192 plus tag (R397). -/
  txns : SMap Txn
  hostWaits : List HostWait
  /-- Ports that carried host writes since a zero-length read there returned (R284), as 2 * context + port. -/
  hostSent : List Nat
  /-- Lines of the host line cache, newest first (R379). -/
  hlc : List Nat
  /-- Number of the key of each sealed context, and the next key's (R461). -/
  keys : SMap Nat
  nextKey : Nat
  /-- Allocator pools by context times 16 plus pool (R252). -/
  pools : SMap Pool
  /-- Sub-channels by channel times 2 plus sub-channel; requests outside a full channel, by channel; answers that
  have left a channel, with its number; poisoned accesses of the module's own slices, by channel times 2^29 plus
  access; the next access that the patrol scrub reads (R240, R242, R250, R251). -/
  subs : SMap SubChan
  cisQ : SMap (List CisReq)
  cisOut : List (Nat × CisAns)
  ownPoison : SMap OwnCell
  scrubPos : Nat
  /-- Generations of the reset domains by 4,096 times kind plus instance (R427). -/
  gens : SMap Nat
  /-- Order in which watches and QWT waits began (R298, R353; the model's own). -/
  nextWatch : Nat
  /-- Chunks of digest streams and of Turlis counters, by stream or counter and chunk (R405 to R408). -/
  dsChunks : SMap (SMap Chunk)
  cntChunks : SMap (SMap Chunk)
  /-- Committed addresses of the LO and HI pairs, by the key of their HI register (R493). -/
  addrs : SMap Nat
  /-- Batch buffers in use, by composer (R372). -/
  batches : SMap (List Batch)
  /-- The frame clock (R355 to R358): STOP accepted; next entry of the frame; tick at which SCH_POS was last
  set; make-way windows as entry and cluster. -/
  schStop : Bool
  schNext : Nat
  /-- Classes that clusters take once the launch that runs on them ends: no launch makes way while no save area is set
  (R365). -/
  reassign : SMap Nat
  frameTick : Nat
  wayWin : List (Nat × Nat)
  /-- The registry (R177), pages by the model's own number and the next number, and the log order (R233). -/
  tables : SMap Table
  pages : SMap Page
  nextPage : Nat
  order : Nat
  /-- Where the next row of a PACKED instar goes (R208, log entry 19): page and byte, by table, instar and
  group. -/
  tails : List (Nat × Nat × Nat × Nat × Nat)
  shadows : List Shadow
  /-- Row directory by TID times 2^42 plus group (R216). -/
  dir : SMap DirEntry
  /-- Parts and adds by engine, in order of arrival, and partial sums under way (R197, R231). -/
  parts : SMap (List RowPart)
  adds : SMap (List Add)
  psums : List Psum
  /-- First halves of split packets, until the other half comes (R396). -/
  halves : List Packet
  /-- Hot-row store by engine; sketch sets by 16 times engine plus set; accesses waiting for a snapshot to end,
  as set and row, and the next snapshot number, by engine (R200 to R205). -/
  hots : SMap Hot
  sketches : SMap Sketch
  snapWait : SMap (List (Nat × Nat))
  snapSeq : SMap Nat
  /-- Committed hash constants A_d and B_d (R200). -/
  cmsHash : List (Nat × Nat)
  migs : SMap Mig
  lcRun : Option LcRun
  /-- The page whose miss entry a WRITE_ROWS has joined (R212). -/
  lcWait : Option Nat
  /-- Write-budget tokens, in units of 1/4,320 byte (R234). -/
  tokens : Int
  /-- Bytes written above the budget (R234). -/
  overBytes : Nat
  /-- Positions written by each engine's fold generator (R229). -/
  foldPos : SMap Nat
  /-- Repack candidates, oldest first (R215). -/
  repacks : List Cand
  wells : SMap Well
  /-- The well command that runs, by its OP (WEL_CMD); the kind of a mount that is under way. -/
  welRun : Option Nat
  welMount : Option Nat
  /-- The keeper's release of the well engine is due: after a cold boot, a MOUNT, or a warm reset that finds SHUT
  (R279, R281). -/
  mountDue : Bool
  /-- Copy jobs by the model's number (R386), and the next number. -/
  copies : SMap CopyJob
  nextCopy : Nat
  /-- MSI-X table words as software wrote them, by port * 524,288 + function * 8,192 + word
  (R347). -/
  msixTab : SMap Word
  /-- Links, and cages: 1 a pluggable in high-power mode, 2 one left in low-power mode (R481). -/
  links : SMap Link
  cages : SMap Nat
  /-- Domain resets due or in progress (R426). -/
  resets : List DomReset
  /-- Resets of each domain since cold reset, by 4,096 times kind plus instance (RAS_GEN). -/
  resetCount : SMap Nat
  /-- A device warm reset is due, with its cause (R429). -/
  warm : Option Nat
  /-- The chrysalis buffer, oldest record first, and the records not yet copied to the ring (R430). -/
  chrys : List (List Byte)
  chrysWait : List (List Byte)
  /-- Corrected counts at the last minute (R422), and the tick of each cluster's last reset (R432). -/
  ceLast : SMap Nat
  clusterReset : SMap Nat
  /-- Power of the module; keeper ticks of earlier spells of input power (R450); the power-loss signal is
  raised; a cold boot is due; THERM_TRIP# is low (R440, R447,
  R473, R474, R477). -/
  power : Power
  powered : Nat
  lost : Bool
  bootDue : Bool
  tripPin : Bool
  /-- State that a cluster is moving to, and clusters whose wake arrived during an entry (R443). -/
  moving : SMap Nat
  wakeWait : List Nat
  /-- Power samples of the last 1 ms, newest first; samples in a row 3 % below the cap, and above it at minimum
  duty; start duties for power and for temperature, 16 when absent (R444 to R446). -/
  powerLog : List Nat
  powerLow : Nat
  powerMiss : Nat
  dutyP : SMap Nat
  dutyT : SMap Nat
  /-- Samples in a row at or above 115 °C by die, dies that the thermal governor throttles, dies at or above
  110 °C, halves that defer programs, the tick of the last inlet entry, and the 700 W cap of a hot inlet
  (R446). -/
  hotFor : SMap Nat
  thermOn : List Nat
  hot110 : List Nat
  nandHot : List Nat
  inletAt : Option Nat
  inletCap : Bool
  /-- A maintenance point: 0 none, 1 begun, 2 measured (R450). -/
  maint : Nat
  /-- The SPI NOR flash (R453): images of slots A and B, the two copies of the boot descriptor, the topology table,
  the partition table. -/
  slots : SMap FwImage
  bootDescs : BootDesc × BootDesc
  topology : SMap TopoEntry
  partition : PartTable
  /-- Measured at boot (R459, R460): SLOT_ID, and the digests of the firmware, the topology entry and the
  partition table. -/
  slotId : Nat
  fwDigest : List Byte
  topoDigest : List Byte
  partDigest : List Byte
  /-- Ports whose PERST# is asserted (R479), and the instruction of the test access port (R480). -/
  perst : List Nat
  /-- VFs that a port's configuration space enables, as 64 times the port plus the function (R375). -/
  vfs : List Nat
  tap : TapOp
  /-- SPDM sessions, each with whether it is finished, and the next number (R460). -/
  sessions : List (Nat × Bool)
  nextSession : Nat
deriving DecidableEq, Repr

/-- The module after cold reset (log entries 4 to 6, 18, 38, 41). -/
def State.reset : State where
  pending := []
  free := 0
  ticks := 0
  cycle := 0
  regs := []
  latch := []
  cores := []
  launches := []
  nextLaunch := 0
  seq := 0
  queues := []
  fetched := []
  turn := []
  cmdJobs := []
  cis := []
  cisPoison := []
  cisKey := []
  host := []
  pads := []
  padPoison := []
  recs := []
  ringWait := []
  ringPhase := true
  inval := none
  wcache := []
  ats := []
  walkQ := []
  sump := []
  outbox := []
  digD := []
  digN := 0
  digQ := []
  held := []
  msixMask := []
  msixPend := []
  sumpIrq := false
  txns := []
  hostWaits := []
  hostSent := []
  hlc := []
  keys := []
  nextKey := 1
  pools := []
  subs := []
  cisQ := []
  cisOut := []
  ownPoison := []
  scrubPos := 0
  gens := []
  nextWatch := 0
  dsChunks := []
  cntChunks := []
  addrs := []
  batches := []
  schStop := false
  schNext := 0
  reassign := []
  frameTick := 0
  wayWin := []
  tables := []
  pages := []
  nextPage := 0
  order := 0
  tails := []
  shadows := []
  dir := []
  parts := []
  adds := []
  psums := []
  halves := []
  hots := []
  sketches := []
  snapWait := []
  snapSeq := []
  cmsHash := [(0x9E3779B1, 0), (0x9E3779B3, 0), (0x9E3779B5, 0), (0x9E3779B7, 0)]
  migs := []
  lcRun := none
  lcWait := none
  tokens := 0
  overBytes := 0
  foldPos := []
  repacks := []
  wells := []
  welRun := none
  welMount := none
  mountDue := false
  copies := []
  nextCopy := 0
  msixTab := []
  links := []
  cages := []
  resets := []
  resetCount := []
  warm := none
  chrys := []
  chrysWait := []
  ceLast := []
  clusterReset := []
  power := .keeper
  powered := 0
  lost := false
  bootDue := true
  tripPin := false
  moving := []
  wakeWait := []
  powerLog := []
  powerLow := 0
  powerMiss := 0
  dutyP := []
  dutyT := []
  hotFor := []
  thermOn := []
  hot110 := []
  nandHot := []
  inletAt := none
  inletCap := false
  maint := 0
  slots := [(0, ⟨0x48360F1A, 1, true, 0, 4096, true, true, []⟩)]
  bootDescs := (⟨1, 0, true⟩, ⟨0, 0, false⟩)
  topology := []
  partition := ⟨List.replicate 64 0⟩
  slotId := 0
  fwDigest := []
  topoDigest := []
  partDigest := []
  perst := [0, 1]
  vfs := []
  tap := .bypass
  sessions := []
  nextSession := 0

end Sys2Proof.Machine
end

