-- ==== Sys2Proof/Machine/Flit.lean ====
section
/-!
DEFINITION. Bytes of the Turlis link: little-endian fields of byte strings, packets (R396), flits and their CRC (R390).
-/

namespace Sys2Proof.Machine

/-- Little-endian field of `n` bytes at an offset. -/
def fieldAt (bs : List Byte) (off n : Nat) : Nat := leNat ((bs.drop off).take n)

/-- Some byte of a range is not zero. -/
def nonzeroAt (bs : List Byte) (off n : Nat) : Bool := ((bs.drop off).take n).any (· != 0)

/-! ### Packets (R393, R396) -/

/-- Virtual channel of a packet (R393, R396). -/
def vcOf (p : Packet) : Nat :=
  if p.type = 0x04 then 2 else if p.type < 0x10 then 0 else if p.type < 0x20 then 1 else 3

/-- Bytes, credits and DATA flits of a packet (R390, R393): the model starts each packet in a flit of its own. -/
def pktBytes (p : Packet) : Nat := 32 + p.body.length
def pktCredits (p : Packet) : Nat := (pktBytes p + 127) / 128
def pktFlits (p : Packet) : Nat := (pktBytes p + 241) / 242

/-- The 32-byte header and the body of a packet. -/
def packetBytes (p : Packet) : List Byte :=
  leBytes 2 (p.dst + 2 ^ 12 * p.hops) ++ leBytes 2 p.src ++ leBytes 1 p.type ++ leBytes 1 (vcOf p + 4 * bit p.pool) ++
    leBytes 2 p.body.length ++ leBytes 4 p.tag ++ leBytes 4 p.pmask ++ leBytes 8 p.addr ++ leBytes 8 p.arg ++ p.body

/-- The packet of its bytes; none when a bit shown as zero is set. -/
def packetOf (bs : List Byte) : Option Packet :=
  if bitsOf (fieldAt bs 2 2) 15 12 ≠ 0 ∨ bitsOf (fieldAt bs 5 1) 7 3 ≠ 0 ∨ bitsOf (fieldAt bs 6 2) 15 12 ≠ 0 then none
  else some {
    dst := bitsOf (fieldAt bs 0 2) 11 0
    hops := bitsOf (fieldAt bs 0 2) 15 12
    src := bitsOf (fieldAt bs 2 2) 11 0
    type := fieldAt bs 4 1
    pool := (fieldAt bs 5 1).testBit 2
    tag := fieldAt bs 8 4
    pmask := fieldAt bs 12 4
    addr := fieldAt bs 16 8
    arg := fieldAt bs 24 8
    body := bs.drop 32 }

/-- Bytes of the packet that a header begins. -/
def rawSize (bs : List Byte) : Nat := 32 + bitsOf (fieldAt bs 6 2) 11 0

/-- Credits of a packet's bytes, and their class: 0 to 3 are the channels', 4 is shared (R393). -/
def rawCredits (bs : List Byte) : Nat := (bs.length + 127) / 128
def rawClass (bs : List Byte) : Nat :=
  if (fieldAt bs 5 1).testBit 2 then 4 else bitsOf (fieldAt bs 5 1) 1 0

/-- Packets that follow one another, and the bytes of one that goes on in the next flit. Zero bytes to the end of a flit
are no packet (log entry 76). -/
def cutPackets : Nat → List Byte → List (List Byte) × List Byte
  | 0, bs => ([], bs)
  | fuel + 1, bs =>
    if bs.all (· == 0) then ([], [])
    else if bs.length < 32 ∨ bs.length < rawSize bs then ([], bs)
    else
      let (ps, rest) := cutPackets fuel (bs.drop (rawSize bs))
      (bs.take (rawSize bs) :: ps, rest)

/-- Packets that end in a DATA flit: the one in progress goes on in its packet area, and the others begin at FIRST. -/
def packetsOf (part : List Byte) (first : Nat) (area : List Byte) : List (List Byte) × List Byte :=
  let fresh := if first < area.length then cutPackets 8 (area.drop first) else ([], [])
  if part.isEmpty then fresh
  else
    let bs := part ++ area
    if bs.length < 32 ∨ bs.length < rawSize bs then ([], bs) else (bs.take (rawSize bs) :: fresh.1, fresh.2)

/-! ### Flits (R390) -/

/-- One bit of CRC-32C, the Castagnoli polynomial with its bits reflected (RFC 3720). -/
def crcBit (c : Nat) : Nat := if c % 2 = 1 then c / 2 ^^^ 0x82F63B78 else c / 2

/-- One byte of CRC-32C. -/
def crcByte (c : Nat) (b : Byte) : Nat :=
  crcBit (crcBit (crcBit (crcBit (crcBit (crcBit (crcBit (crcBit (c ^^^ b.toNat))))))))

/-- CRC-32C of a byte string. -/
def crc32c (bs : List Byte) : Nat := bs.foldl crcByte 0xFFFFFFFF ^^^ 0xFFFFFFFF

/-- The 256 bytes of a flit: its fields, the five cumulative credit counts, and its packet area filled up with zeros. -/
def flitBytes (seq ack : Nat) (idle rpl : Bool) (first : Nat) (credits : List Nat) (area : List Byte) : List Byte :=
  let cr := fun (i : Nat) => 2 ^ (30 + 10 * i) * (credits.getD i 0 % 1024)
  let head := seq % 1024 + 2 ^ 10 * (ack % 1024) + 2 ^ 20 * bit idle + 2 ^ 21 * bit rpl + 2 ^ 22 * first +
    cr 0 + cr 1 + cr 2 + cr 3 + cr 4
  let bs := leBytes 10 head ++ (area ++ List.replicate (242 - area.length) 0)
  bs ++ leBytes 4 (crc32c bs)

/-- The first 80 bits of a flit. -/
def flitHead (f : Flit) : Nat := leNat (f.bytes.take 10)

def flitSeq (f : Flit) : Nat := bitsOf (flitHead f) 9 0
def flitAck (f : Flit) : Nat := bitsOf (flitHead f) 19 10
def flitIdle (f : Flit) : Bool := (flitHead f).testBit 20
def flitRpl (f : Flit) : Bool := (flitHead f).testBit 21
def flitFirst (f : Flit) : Nat := bitsOf (flitHead f) 29 22

/-- Cumulative credits returned, of class 0 to 4. -/
def flitCredit (f : Flit) (i : Nat) : Nat := bitsOf (flitHead f) (39 + 10 * i) (30 + 10 * i)

/-- The packet area. -/
def flitArea (f : Flit) : List Byte := (f.bytes.drop 10).take 242

/-- The CRC is good. -/
def flitCrcOk (f : Flit) : Bool := crc32c (f.bytes.take 252) == leNat ((f.bytes.drop 252).take 4)

end Sys2Proof.Machine
end

