-- ==== Sys2Proof/Config.lean ====
section
/-!
DEFINITION. What the spec leaves open: values without a body, so that nothing can be proved of the
value they take, and the constants that one build of the module fixes.
-/

namespace Sys2Proof.Config

/-- The free value number `i` of draw `k` (log entry 1). Every value that the spec leaves undefined or
unstated after an operation that completes is read from here; `k` is the counter in the state. -/
opaque freeAt : Nat → Nat → BitVec 64

/-- The 16-bit output number `n` of a stochastic-rounding generator loaded with a seed: R63 fixes it
by the seed and the number of positions written and says nothing more (log entry 1). -/
opaque srOut : BitVec 64 → Nat → BitVec 16

/-- A transcendental function of the vector chain, by its code and the FP32 bits of its argument.
R135 bounds its error and states no value (log entry 1). -/
opaque funcOut : Nat → BitVec 32 → BitVec 32

/-- Which lane the reduction tree of the vector chain pairs with the first one left, at a level and step:
R139 says that the order is fixed and does not give it (log entry 1). -/
opaque treePick : Nat → Nat → Nat

/-- What the vector chain writes in a row where the spec leaves bits open (the payload of a NaN, the code of a NaN lane
under an infinite reciprocal, the exponent of an error of zero): by all that the VCH names and reads for the row, and by the
place in it. R139 lets two runs on the same data differ in nothing (log entry 1). -/
opaque chainFree : List Nat → Nat → BitVec 64

/-- SHAKE256 of a byte string, taken to a number of bytes. The digest is that of an outside standard;
no value of it is used here (log entry 2). -/
opaque shake256 : List Byte → Nat → List Byte

/-- One byte of a 64-byte granule of a sealed pool that was written under one key number and read under
another, zero standing for no key: the granule's number, its plain bytes and the byte's place (R462, log
entry 1). -/
opaque cipher : Nat → Nat → Nat → List Byte → Nat → Byte

/-- One ciphertext byte of a codeword's data: the number of the media key, the tweak, the 2,048 plain bytes and the
byte's place (R280: XTS-AES-256 under a key that no interface returns; log entry 2). -/
opaque xts : Nat → Nat → List Byte → Nat → Byte

/-- One byte that a codeword written under one media key reads as under another: both key numbers, the tweak, the plain
bytes and the byte's place (R280, log entry 1). -/
opaque xtsWrong : Nat → Nat → Nat → List Byte → Nat → Byte

/-- One byte of a codeword's LDPC parity, over its data and header: R259 gives the code's length and rate and no matrix
(log entry 2). -/
opaque ldpc : List Byte → Nat → Byte

/-- Good blocks that a well half reserves for reclaim: R269 leaves the number open (log entry 1). -/
opaque reclaimRoom : Nat

/-- The set of the row-page cache that holds a page: R210 fixes a hash and does not publish it
(log entry 1). -/
opaque pageSet : Nat → Nat

/-- The set, of 16,384 in each half, of the host line cache that holds a line: R379 gives 16 ways and no index
(log entry 1). -/
opaque hlcSet : Nat → Fin 16384

/-- Digest of the boot ROM, from fuses (R459, log entry 2). -/
opaque romDigest : List Byte

/-- Digest of the public key, from fuses (R455, log entry 2). -/
opaque pkDigest : List Byte

/-- The identity certificate chain of the SPI NOR (R453, log entry 2). -/
opaque certChain : List Byte

/-- What an SPDM response carries that the standards named by the spec compute: signatures, key shares, transcript
digests, by command, draw and request (log entry 2). -/
opaque spdmBytes : Nat → Nat → List Byte → List Byte

end Sys2Proof.Config
end

