-- ==== Sys2Proof/Machine/Ops.lean ====
section
/-!
DEFINITION. The named operations over the state: registers, cores, memories, sump entries, messages and
free values. Every meaning is written over these.
-/

namespace Sys2Proof.Machine

/-- The outcome of a command. -/
abbrev Outcome := Host.Outcome State Fault Refusal

/-! ### Registers -/

/-- Value of a register after cold reset (R11). The table gives most; fuse values are those of log entry 5
and the rest follow their formulas. -/
def Reg.resetVal (r : Reg) (i : Nat) : Nat :=
  match r with
  | .glbIdent => 0x4836 + 0x10000 + 144 * 0x100000
  | .glbSpare => 0x64646464
  | .glbClmap => i % 36 + 64 * (i / 36)
  | .numSeedLo => 2 * i + 1
  | .cmsHashALo => 0x9E3779B1 + 2 * i
  | .cisPart => 384 + 48 * 1024 + 12 * 1048576
  | .kpcVid => 740 + 740 * 1024 + 800 * 1048576
  | r => r.row.reset

/-- The LO register of an address pair, of its HI register (R493). -/
def Reg.pairLo : Reg → Option Reg
  | .feSpillHi => some .feSpillLo
  | .feQSqHi => some .feQSqLo
  | .feQCqHi => some .feQCqLo
  | .schSaveHi => some .schSaveLo
  | .cmpChRingHi => some .cmpChRingLo
  | .cmpStRingHi => some .cmpStRingLo
  | .cmpImageHi => some .cmpImageLo
  | .cmpTemplateHi => some .cmpTemplateLo
  | .cmpBatchHi => some .cmpBatchLo
  | .xltInvVaHi => some .xltInvVaLo
  | .fringHi => some .fringLo
  | .ctxRootHi => some .ctxRootLo
  | .hotListHi => some .hotListLo
  | .cmsBufHi => some .cmsBufLo
  | .chrysHi => some .chrysLo
  | .winBaseHi => some .winBaseLo
  | _ => none

namespace State

/-- The stored value of a register. -/
def reg (s : State) (r : Reg) (i : Nat) : Word :=
  (s.regs.get? (r.key i)).getD (BitVec.ofNat 32 (r.resetVal i))

/-- A field of a stored register. -/
def fld (s : State) (r : Reg) (i hi lo : Nat) : Nat := bitsOf (s.reg r i).toNat hi lo

/-- A one-bit field. -/
def flag (s : State) (r : Reg) (i b : Nat) : Bool := (s.reg r i).getLsbD b

def setReg (s : State) (r : Reg) (i : Nat) (v : Word) : State :=
  { s with regs := s.regs.set (r.key i) v }

def setFld (s : State) (r : Reg) (i hi lo x : Nat) : State :=
  s.setReg r i (BitVec.ofNat 32 (setBits (s.reg r i).toNat hi lo x))

def setFlag (s : State) (r : Reg) (i b : Nat) (x : Bool) : State := s.setFld r i b b (bit x)

/-- A 32-bit counter that saturates. -/
def bump (s : State) (r : Reg) (i n : Nat) : State :=
  s.setReg r i (BitVec.ofNat 32 (satAdd 0xFFFFFFFF (s.reg r i).toNat n))

/-- A 64-bit value in a LO and a HI register. -/
def reg64 (s : State) (lo hi : Reg) (i : Nat) : Nat := (s.reg lo i).toNat + 2 ^ 32 * (s.reg hi i).toNat

def setReg64 (s : State) (lo hi : Reg) (i v : Nat) : State :=
  (s.setReg lo i (BitVec.ofNat 32 v)).setReg hi i (BitVec.ofNat 32 (v / 2 ^ 32))

/-- A 64-bit counter, wrapping. -/
def bump64 (s : State) (lo hi : Reg) (i n : Nat) : State :=
  s.setReg64 lo hi i ((s.reg64 lo hi i + n) % 2 ^ 64)

/-- The address in force of a LO and HI pair (R493), by its HI register: zero until a first commit. -/
def addr (s : State) (hi : Reg) (i : Nat) : Nat := s.addrs.getD (hi.key i) 0

/-- This module's node identifier (R303). -/
def node (s : State) : Nat := s.fld .xltNode 0 11 0

/-- W: bytes of cistern working memory (R246). -/
def workSize (s : State) : Nat := s.fld .cisWork 0 11 0 * 2 ^ 30

/-! ### Free values -/

/-- Draw a free value; `n` of them may be read under the draw's number. -/
def draw (s : State) : Nat × State := (s.free, { s with free := s.free + 1 })

end State

/-! ### Cores -/

/-- A core before any launch (log entry 6). -/
def Core.init : Core := Core.reset

namespace Core

/-- s(n); s0 reads as zero (R66). -/
def getS (c : Core) (n : BitVec 6) : DWord := if n = 0 then 0 else c.s.getD n.toNat 0

/-- Write s(n); a write to s0 is discarded (R66). -/
def setS (c : Core) (n : BitVec 6) (v : DWord) : Core :=
  if n = 0 then c else if v = 0 then { c with s := c.s.erase n.toNat } else { c with s := c.s.set n.toNat v }

/-- p(n); p0 reads as 1 (R66). -/
def getP (c : Core) (n : Nat) : Bool := if n % 8 = 0 then true else c.p.getLsbD (n % 8)

/-- Write p(n); a write to p0 is discarded (R66). -/
def setP (c : Core) (n : Nat) (v : Bool) : Core :=
  if n % 8 = 0 then c else { c with p := BitVec.ofNat 8 (setBits c.p.toNat (n % 8) (n % 8) (bit v)) }

def getT (c : Core) (n : Nat) : Desc := c.t.getD (n % 32) 0

def setT (c : Core) (n : Nat) (v : Desc) : Core :=
  if v = 0 then { c with t := c.t.erase (n % 32) } else { c with t := c.t.set (n % 32) v }

/-- A register is still to be written by an earlier instruction (R81). -/
def isBusy (c : Core) (l : List RegRef) : Bool := l.any fun r => c.busy.contains r

def addBusy (c : Core) (r : RegRef) : Core := { c with busy := r :: c.busy }

/-- The earlier write to a register has been made. -/
def freeBusy (c : Core) (r : RegRef) : Core := { c with busy := c.busy.erase r }

end Core

namespace State

/-- A core that nothing has touched holds the generator that its seed registers' reset values load (R63). -/
def core (s : State) (p : Nat) : Core := s.cores.getD p { Core.init with srSeed := BitVec.ofNat 64 (2 * p + 1) }

def setCore (s : State) (p : Nat) (c : Core) : State := { s with cores := s.cores.set p c }

def modCore (s : State) (p : Nat) (f : Core → Core) : State := s.setCore p (f (s.core p))

/-- Scratchpad of a core. -/
def pad (s : State) (p : Nat) : Mem := s.pads.getD p []

def setPad (s : State) (p : Nat) (m : Mem) : State := { s with pads := s.pads.set p m }

def poisonedPad (s : State) (p : Nat) : List Nat := s.padPoison.getD p []

/-- Read scratchpad bytes, and whether any of their lines is poisoned. -/
def padRead (s : State) (p a n : Nat) : List Byte × Bool :=
  ((s.pad p).readN a n, (granules a n).any fun g => (s.poisonedPad p).contains g)

/-- Lines that a write covers whole lose their poison (R417); the lines marked take it. -/
def clearGranules (set : List Nat) (a n : Nat) (mark : Bool) : List Nat :=
  (granules a n).foldl (fun acc g =>
    if mark then setInsert acc g
    else if a ≤ 64 * g ∧ 64 * g + 64 ≤ a + n then setErase acc g else acc) set

/-- Write scratchpad bytes, poisoned or not. -/
def padWrite (s : State) (p a : Nat) (bs : List Byte) (poison : Bool := false) : State :=
  let s := s.setPad p ((s.pad p).writeL a bs)
  let g := clearGranules (s.poisonedPad p) a bs.length poison
  if g = s.poisonedPad p then s else { s with padPoison := s.padPoison.set p g }

/-- Mark the scratchpad lines of a range as poisoned. -/
def padMark (s : State) (p a n : Nat) : State :=
  if n = 0 then s else { s with padPoison := s.padPoison.set p ((granules a n).foldl setInsert (s.poisonedPad p)) }

/-- A launch by the model's number. -/
def launch (s : State) (l : Nat) : Option Launch := s.launches.get? l

def setLaunch (s : State) (l : Nat) (x : Launch) : State := { s with launches := s.launches.set l x }

def modLaunch (s : State) (l : Nat) (f : Launch → Launch) : State :=
  match s.launch l with
  | some x => s.setLaunch l (f x)
  | none => s

/-- The launch that runs on a core. -/
def launchOf (s : State) (p : Nat) : Option (Nat × Launch) :=
  match (s.core p).launch with
  | some l => (s.launch l).map (fun x => (l, x))
  | none => none

/-- Queue `q`: after reset every index is zero and PHASE is 1. -/
def queue (s : State) (q : Nat) : Queue := s.queues.getD q ⟨0, 0, 0, 0, true, .idle, [], 0, 0, 0⟩

def setQueue (s : State) (q : Nat) (x : Queue) : State := { s with queues := s.queues.set q x }

def modQueue (s : State) (q : Nat) (f : Queue → Queue) : State := s.setQueue q (f (s.queue q))

def emit (s : State) (o : Out) : State := { s with outbox := s.outbox ++ [o] }

end State

/-! ### Register writes -/

/-- The last-write-status register of the set that holds a register (R467). -/
def Reg.last (r : Reg) (i : Nat) : Reg × Nat :=
  let w := r.row
  if w.core then
    let p := i / w.n2
    (if w.base < 0x4000 then .lzcLast else if w.base < 0x5000 then .numLast
     else if w.base < 0x6000 then .mxuLast else if w.base < 0x7000 then .vcuLast
     else if w.base < 0x8000 then .dmaLast else .synLast, p)
  else match Block.at w.base with
    | some .glb => (.glbLast, 0)
    | some .kpc => (.kpcLast, 0)
    | some .fe => (.feLast, 0)
    | some .xlt => (.xltLast, 0)
    | some .lke =>
      if w.base < 0x610000 then (.lkeLast, 0)
      else if w.base < 0x620000 then (.lkeEngLast, i / w.n2) else (.lcLast, 0)
    | some .cis => (.cisLast, 0)
    | some .wel => if w.base < 0xA10000 then (.welLast, 0) else (.whLast, i / w.n2)
    | some .hif => (.hifLast, 0)
    | some .tlk => if 0xE10000 ≤ w.base ∧ w.base < 0xE20000 then (.lnkLast, i / w.n2) else (.tlkLast, 0)
    | some .ras => (.rasLast, 0)
    | some .sec => (.secLast, 0)
    | _ => (.glbLast, 0)

namespace State

/-- Record a write's code in a last-write-status register: COUNT rises for a rejection (R467). -/
def recordLast (s : State) (l : Reg × Nat) (code : Code) : State :=
  let n := if code = .ok then 0 else 1
  if l.1 = .feLast then
    let v := (s.reg .feLast 0).toNat
    s.setReg .feLast 0 (BitVec.ofNat 32 (setBits (setBits v 31 20 (satAdd 0xFFF (bitsOf v 31 20) n)) 7 0 code.toNat))
  else
    let v := (s.reg l.1 l.2).toNat
    s.setReg l.1 l.2 (BitVec.ofNat 32 (satAdd 0xFFFFFF (v / 256) n * 256 + code.toNat))

/-- FE_LAST_STATUS also names the queue of the write (R467). -/
def recordFe (s : State) (q : Nat) (code : Code) : State :=
  (s.setFld .feLast 0 19 8 q).recordLast (.feLast, 0) code

/-- Plain storage of a write: RW fields take the value, W1C bits written 1 clear (R6). A write to the HI word
of an address pair commits the staged LO word and the HI word at once (R493). -/
def store (s : State) (r : Reg) (i : Nat) (v : Word) : State :=
  let w := r.row
  let old := (s.reg r i).toNat
  let new := (old &&& (0xFFFFFFFF ^^^ w.rw)) ||| (v.toNat &&& w.rw)
  let s := s.setReg r i (BitVec.ofNat 32 (new &&& (0xFFFFFFFF ^^^ (v.toNat &&& w.w1c))))
  match r.pairLo with
  | some lo => { s with addrs := s.addrs.set (r.key i) ((s.reg lo i).toNat + 2 ^ 32 * (s.reg r i).toNat) }
  | none => s

/-- The address that the staged LO word of a pair and a HI word would commit (R493). -/
def wouldBe (s : State) (lo : Reg) (i : Nat) (v : Word) : Nat := (s.reg lo i).toNat + 2 ^ 32 * v.toNat

end State

/-- SRC and FN of a digest record (R459). -/
def srcDigest : Src → Nat × Nat
  | .host p fn => (p.val, fn.val)
  | .entry => (2, 0)
  | .mgmt => (3, 0)

/-- Registers whose accepted writes are not configuration writes (R458). SEC_CMD is excluded with SNAP
only. -/
def notConfig (r : Reg) (v : Word) : Bool :=
  match r with
  | .cmpTails | .fringHead | .feSpillHead | .sumpHead | .xltFcmp | .rgnCtrl | .cntCtrl => true
  | .secCmd => v.toNat % 16 == 1
  | _ => false

namespace State

/-- Queue the record of an accepted configuration write (R458 to R460). -/
def fold (s : State) (src : Src) (r : Reg) (i : Nat) (v : Word) : State :=
  if notConfig r v then s
  else { s with digQ := s.digQ ++ [⟨(srcDigest src).1, (srcDigest src).2, r.addr i, v.toNat⟩] }

/-- A host port's link is up (HIF_STATE). -/
def portUp (s : State) (p : Nat) : Bool := s.flag .hifState 0 (16 * (p % 2))

/-- A function appears on a port: PF0 always, a VF while that port's configuration space enables it (R375; log entry
74). -/
def appears (s : State) (p fn : Nat) : Bool := fn == 0 || s.vfs.contains (64 * (p % 2) + fn)

/-- A request of a context can leave by a port: its link is up, and the context's owner appears there (R376). -/
def leaves (s : State) (p ctx : Nat) : Bool := s.portUp p && s.appears p (s.fld .hifCtx ctx 5 0)

/-- Some port can carry a read of a context. -/
def hostOpen (s : State) (ctx : Nat) : Bool := s.leaves 0 ctx || s.leaves 1 ctx

/-- A host port goes down, with its VFs and the writes held at it. -/
def portDown (s : State) (p : Nat) : State :=
  { s.setFlag .hifState 0 (16 * (p % 2)) false with
    vfs := s.vfs.filter fun k => k / 64 != p % 2
    held := s.held.filter fun h => match h.src with | .host q _ => q.val != p % 2 | _ => true }

/-- A register access reaches the module: its port's link is up and its function appears there, or for management the
dies are powered. -/
def arrives (s : State) : Src → Bool
  | .host p fn => s.portUp p.val && s.appears p.val fn.val
  | .entry => true
  | .mgmt => s.power == .on

/-- A register access reaches its register: while the dies are down management reaches the keeper's blocks only. -/
def reaches (s : State) (src : Src) (r : Reg) : Bool :=
  s.arrives src || (src == .mgmt && s.power == .keeper && s.fld .secState 0 17 14 == 1 &&
    [Block.glb, Block.kpc, Block.ras, Block.sec].any fun b => Block.at r.row.base == some b && !r.row.core)

/-- A host access comes from a VF, whose BAR0 holds doorbells and its MSI-X table only (R380). -/
def fromVf : Src → Bool
  | .host _ fn => fn.val != 0
  | _ => false

/-- A write of a sender waits behind one that is held (R460). -/
def holds (s : State) (src : Src) : Bool := s.held.any fun h => h.src == src

/-- A write is held at its port. -/
def holdWrite (s : State) (src : Src) (off : Nat) (v : Word) : State := { s with held := s.held ++ [⟨src, off, v⟩] }

/-- A register write (R7): the reserved bits (R8), then the register's own check; on a rejection nothing
but the last-write status changes, otherwise the effect is made, the status recorded and the record
queued. A configuration write is held while 4,096 records wait (R460); one of a VF is dropped (R380). -/
def busWrite (s : State) (src : Src) (r : Reg) (i : Nat) (v : Word) (check : Code)
    (eff : State → State) : State :=
  let code := if v.toNat &&& (0xFFFFFFFF ^^^ r.known) ≠ 0 then .badField else check
  let s0 := match Block.at r.row.base with
    | some .fe => if r.row.n1 = 4096 ∧ ¬ r.row.core then s.setFld .feLast 0 19 8 i else s
    | _ => s
  if !s.reaches src r then s
  else if fromVf src then s.recordLast (.hifLast, 0) .range
  else if s.holds src then s.holdWrite src (r.addr i) v
  else if code ≠ .ok then s0.recordLast (r.last i) code
  else if ¬ notConfig r v ∧ 4096 ≤ s.digQ.length then s.holdWrite src (r.addr i) v
  else ((eff s0).recordLast (r.last i) .ok).fold src r i v

/-! ### Reset domains (R425) -/

/-- The die of a reset domain or unit, as an instance of kind 8. -/
def domDie (kind inst : Nat) : Nat :=
  match kind with
  | 1 => inst / 592
  | 2 => inst / 36
  | 3 => 4 + inst / 32
  | 4 => 4 + inst / 8
  | 5 => 4 + inst / 18
  | 6 => 4 + inst / 24
  | 7 => 4 + inst / 16
  | _ => inst

/-- The cluster of a core: the physical cluster that bears logical cluster `n`. -/
def bears (s : State) (n p : Nat) : Bool := 37 * s.fld .glbClmap n 7 6 + s.fld .glbClmap n 5 0 == p / 16

/-- A reset of domain (k, i) resets domain (kind, inst) with it. -/
def within (s : State) (kind inst k i : Nat) : Bool :=
  (kind == k && inst == i) || (k == 9) || (k == 8 && kind < 8 && domDie kind inst == i) || (k == 2 && kind == 1 && s.bears i inst)

/-- A domain is in a phase of its own reset or of one that encloses it (R426): it takes no request. -/
def inReset (s : State) (kind inst : Nat) : Bool :=
  s.resets.any fun x => decide (x.phase ≠ 0) && s.within kind inst x.kind x.inst

/-- The front end takes entries and starts launches (R429, R440). -/
def serving (s : State) : Bool := s.fld .secState 0 17 14 == 4 && s.warm.isNone

/-! ### The sump and messages -/

/-- Number of a vector of a function's appearance on a port. -/
def msixKey (port fn vec : Nat) : Nat := port * 131072 + fn * 2048 + vec

/-- A write on a port that must follow earlier host writes of some contexts (R284): a zero-length read goes to each other
port that carried such writes. It returns at once (log entry 69); none while such a port is down. -/
def orderPorts (s : State) (port : Nat) (mine : Nat → Bool) : Option State :=
  let ks := s.hostSent.filter fun k => k % 2 != port && mine (k / 2)
  if ks.isEmpty then some s
  else if s.portUp (1 - port) then some ({ s with hostSent := s.hostSent.filter fun k => !ks.contains k }.emit (.zeroRead (1 - port)))
  else none

/-- A message of a function on a port, after the host writes of its contexts (R284). One whose vector is masked sets its
pending bit (R347), and so does one whose port is down or bears no such function (R376, log entry 34). -/
def msix (s : State) (port fn vec : Nat) : State :=
  let k := msixKey port fn vec
  match (if s.msixMask.contains k || !s.portUp port || !s.appears port fn then none else s.orderPorts port fun c => s.fld .hifCtx c 5 0 == fn) with
  | some s => s.emit (.msix port fn vec)
  | none => { s with msixPend := setInsert s.msixPend k }

/-- Port of the sump's, the spill ring's and the fault ring's messages (HIF_CFG.SVC_PORT). -/
def svcPort (s : State) : Nat := s.fld .hifCfg 0 0 0

/-- The pending message of a vector that is not masked is sent. -/
def msixSend (s : State) (k : Nat) : State :=
  if s.msixPend.contains k then { s with msixPend := setErase s.msixPend k }.msix (k / 131072) (k / 2048 % 64) (k % 2048) else s

/-- The sequence number after another; zero is never used (R421). -/
def nextSeq (n : Nat) : Nat := if n = 0xFFFFFFFF then 1 else n + 1

/-- Raise a sump entry (R421): it takes TAIL, overwrites the entry 4,096 before it, and counts an unread
one lost. The message is the row SUMP_IRQ's. -/
def raise (s : State) (kind inst : Nat) (status : Code) (action : Nat) (ctx : Option Nat := none)
    (launch loc detail : Nat := 0) (count : Nat := 1) (gen : Nat := 0) : State :=
  let seq := (s.reg .sumpTail 0).toNat
  let slot := seq % 4096
  let head := (s.reg .sumpHead 0).toNat
  let unread := (seq + 0xFFFFFFFF - head) % 0xFFFFFFFF
  let s := if 4096 ≤ unread then
      ((s.bump .sumpLost 0 1).setFlag .rasState 0 1 true).bump .sumpEvt 0 1 else s
  let s := s.setReg .sumpTail 0 (BitVec.ofNat 32 (nextSeq seq))
  { s with
    sump := s.sump.set slot ⟨seq, s.ticks, kind, inst, status, action, ctx, launch, loc, detail, count, gen⟩
    sumpIrq := true }

/-- A status code that no rule names (log entry 1). -/
def drawCode (s : State) : Code × State :=
  let (k, s) := s.draw
  ((Code.ofByte ((Config.freeAt k 0).toNat % 20)).getD .ok, s)

/-- A sump entry whose STATUS no rule names. -/
def raiseFree (s : State) (kind inst action : Nat) (ctx : Option Nat := none) (launch loc detail : Nat := 0)
    (gen : Nat := 0) : State :=
  let (c, s) := s.drawCode
  s.raise kind inst c action ctx launch loc detail 1 gen

/-- Number of the sump entry raised last. -/
def lastSump (s : State) : Nat :=
  let t := (s.reg .sumpTail 0).toNat
  if t ≤ 1 then (if s.sump.isEmpty then 0 else 0xFFFFFFFF) else t - 1

end State

end Sys2Proof.Machine
end

