-- ==== Sys2Proof/Machine/Xlt.lean ====
section
/-!
DEFINITION. Address translation (R303 to R316): places, page walks, the TLB, and fault records.
-/

namespace Sys2Proof.Machine

/-- Where a translated address lies (R303 to R305). -/
inductive Place where
  | cis (a : Nat) | host (h : Nat) | remote (node a : Nat) | bad
deriving DecidableEq, Repr

/-- How a walk ends (R307). -/
inductive Walk where
  | leaf (l : Leaf) | fault (c : Cause) | poisoned
deriving DecidableEq, Repr

/-- Bytes of a leaf's page: 16 GiB or 256 MiB. -/
def Leaf.size (l : Leaf) : Nat := if l.big then 2 ^ 34 else 2 ^ 28

namespace State

/-- The place a leaf gives an address (R303, R304). -/
def place (s : State) (l : Leaf) (va : Nat) : Place :=
  let x := l.base + va % l.size
  if l.host then .host x
  else if x / 2 ^ 44 ≠ s.node then .remote (x / 2 ^ 44) (x % 2 ^ 44)
  else if x % 2 ^ 44 < s.workSize then .cis (x % 2 ^ 44)
  else .bad

/-- A page-table entry and whether it is poisoned. -/
def tableEntry (s : State) (a : Nat) : Nat × Bool :=
  (leNat (s.cis.readN a 8), s.cisPoison.contains (a / 64))

/-- A pointer entry (R306): zero bits, an aligned next table that lies in working memory. -/
def pointerOk (s : State) (e size : Nat) : Bool :=
  bitsOf e 8 3 == 0 && bitsOf e 2 2 == 0 && bitsOf e 63 44 == 0 &&
  (bitsOf e 43 9 * 512) % size == 0 && bitsOf e 43 9 * 512 + size ≤ s.workSize

/-- A leaf entry (R306). -/
def leafOk (e : Nat) (big : Bool) : Bool :=
  bitsOf e 3 3 == 0 && bitsOf e 8 5 == 0 && bitsOf e 27 9 == 0 &&
  (bitsOf e 2 2 == 1 || bitsOf e 63 56 == 0) && (!big || bitsOf e 33 28 == 0)

/-- The leaf of an entry: a physical or host address from bit 28 up. -/
def leafOf (e : Nat) (big : Bool) : Leaf :=
  let host := bitsOf e 2 2 == 1
  ⟨host, bitsOf e 4 4 == 1, big, (if host then bitsOf e 63 28 else bitsOf e 55 28) * 2 ^ 28⟩

/-- A leaf reached, for a read or a write (R307). -/
def endLeaf (e : Nat) (big write : Bool) : Walk :=
  if !leafOk e big then .fault .malformed
  else if write && bitsOf e 4 4 == 0 then .fault .readOnly
  else .leaf (leafOf e big)

/-- The L0 step of a walk. -/
def walkL0 (s : State) (table va : Nat) (write : Bool) : Walk :=
  let (e, p) := s.tableEntry (table + 8 * (va / 2 ^ 28 % 64))
  if p then .poisoned
  else if bitsOf e 0 0 = 0 then .fault .noEntry
  else if bitsOf e 1 1 = 0 then .fault .malformed
  else endLeaf e false write

/-- The L1 step: a 16 GiB leaf or the L0 table. The second part is the L0 table reached. -/
def walkL1 (s : State) (table va : Nat) (write : Bool) : Walk × Option Nat :=
  let (e, p) := s.tableEntry (table + 8 * (va / 2 ^ 34 % 256))
  if p then (.poisoned, none)
  else if bitsOf e 0 0 = 0 then (.fault .noEntry, none)
  else if bitsOf e 1 1 = 1 then (endLeaf e true write, none)
  else if !s.pointerOk e 512 then (.fault .malformed, none)
  else (s.walkL0 (bitsOf e 43 9 * 512) va write, some (bitsOf e 43 9 * 512))

/-- The L2 step. The second part lists the tables reached, as (shift, table). -/
def walkL2 (s : State) (table va : Nat) (write : Bool) : Walk × List (Nat × Nat) :=
  let (e, p) := s.tableEntry (table + 8 * (va / 2 ^ 42 % 32768))
  if p then (.poisoned, [])
  else if bitsOf e 0 0 = 0 then (.fault .noEntry, [])
  else if bitsOf e 1 1 = 1 then (.fault .malformed, [])
  else if !s.pointerOk e 2048 then (.fault .malformed, [])
  else
    let t := bitsOf e 43 9 * 512
    let (r, l0) := s.walkL1 t va write
    (r, (42, t) :: (match l0 with | some x => [(34, x)] | none => []))

/-- Translation epoch of a context (R309). -/
def epoch (s : State) (ctx : Nat) : Nat := (s.reg .ctxEpoch ctx).toNat

/-- ROOT of a context (R306). -/
def root (s : State) (ctx : Nat) : Nat := s.addr .ctxRootHi ctx

/-- The walker pool of a stream (R312): the die of the core, or the X die of the engine or fetcher. -/
def poolOf : Stream → Nat
  | .core c => c / 592
  | .dma c _ => c / 592
  | .copy e => 4 + e / 8
  | .fetcher f => if f < 144 then f / 36 else if f < 160 then 4 + (f - 144) / 8
      else if f < 224 then 4 + (f - 160) / 32 else 4 + (f - 224)

/-- Walkers of a pool: 32 of a Q die, 16 of an X die (R312). -/
def walkers (pool : Nat) : Nat := if pool < 4 then 32 else 16

/-- A stream has a miss outstanding: it takes a walker in its turn. -/
def missed (s : State) (st : Stream) : State := if s.walkQ.contains st then s else { s with walkQ := s.walkQ ++ [st] }

/-- A pointer that a walk cache holds for an address (R312). -/
def cached (s : State) (pool ctx shift va : Nat) : Option Nat :=
  ((s.wcache.getD pool []).find? fun e =>
    e.ctx == ctx && e.shift == shift && e.key == va / 2 ^ shift && e.epoch == s.epoch ctx).map (·.next)

/-- A walk for a stream (R307), with the walk cache of its pool; new pointers enter the cache, which keeps
the newest 256 (log entry 13). -/
def walk (s : State) (st : Stream) (ctx va : Nat) (write : Bool) : Walk × State :=
  let pool := poolOf st
  let (r, found) := match s.cached pool ctx 34 va with
    | some t => (s.walkL0 t va write, [])
    | none => match s.cached pool ctx 42 va with
      | some t =>
        let (r, l0) := s.walkL1 t va write
        (r, match l0 with | some x => [(34, x)] | none => [])
      | none => s.walkL2 (s.root ctx) va write
  let new := found.map fun (sh, t) => (⟨ctx, sh, va / 2 ^ sh, s.epoch ctx, t⟩ : WalkEntry)
  (r, { s with wcache := s.wcache.set pool ((new ++ s.wcache.getD pool []).take 256) })

/-- A translation that a core's TLB holds (R310); an entry of an older epoch never hits. -/
def tlbHit (s : State) (p ctx va : Nat) : Option Leaf :=
  ((s.core p).tlb.find? fun e =>
    e.ctx == ctx && e.epoch == s.epoch ctx && e.va ≤ va && va < e.va + e.leaf.size).map (·.leaf)

/-- The entry that hits becomes the most recently used. -/
def tlbTouch (s : State) (p ctx va : Nat) : State :=
  let hit := fun (e : TlbEntry) =>
    e.ctx == ctx && e.epoch == s.epoch ctx && decide (e.va ≤ va) && decide (va < e.va + e.leaf.size)
  s.modCore p fun c => { c with tlb := c.tlb.filter hit ++ c.tlb.filter (fun e => !hit e) }

/-- Install a translation as the most recently used of 64 (R310). -/
def tlbInstall (s : State) (p ctx va : Nat) (l : Leaf) : State :=
  s.modCore p fun c =>
    { c with tlb := (⟨ctx, va / l.size * l.size, s.epoch ctx, l⟩ :: c.tlb).take 64 }

/-- XLT_CTX_n.EN. -/
def ctxOn (s : State) (ctx : Nat) : Bool := s.flag .ctxCfg ctx 0

/-- FMODE: true for HALT (R308). -/
def ctxHalt (s : State) (ctx : Nat) : Bool := s.flag .ctxCfg ctx 1

/-- A translation made at once, for the accesses that never halt (R324, R328, R494): through the TLB of
core `p`, or by a walk that fills it. -/
def xlateNow (s : State) (p ctx va : Nat) (write : Bool) : Except Code Leaf × State :=
  if !s.ctxOn ctx then (.error .notMapped, s)
  else match s.tlbHit p ctx va with
    | some l =>
      if write && !l.wr then
        match s.walk (.core p) ctx va write with
        | (.leaf l, s) => (.ok l, s.tlbInstall p ctx va l)
        | (.poisoned, s) => (.error .poison, s)
        | (.fault _, s) => (.error .notMapped, s)
      else (.ok l, s.tlbTouch p ctx va)
    | none => match s.walk (.core p) ctx va write with
        | (.leaf l, s) => (.ok l, s.tlbInstall p ctx va l)
        | (.poisoned, s) => (.error .poison, s)
        | (.fault _, s) => (.error .notMapped, s)

/-- A translation of a fetcher or of the front end: always a walk, never a halt (R328). -/
def xlateEngine (s : State) (st : Stream) (ctx va : Nat) (write : Bool) : Except Code Leaf × State :=
  if !s.ctxOn ctx then (.error .notMapped, s)
  else match s.walk st ctx va write with
    | (.leaf l, s) => (.ok l, s)
    | (.poisoned, s) => (.error .poison, s)
    | (.fault _, s) => (.error .notMapped, s)

/-! ### Fault records -/

/-- The lowest record number that no open record holds (R314). -/
def lowestFree : SMap FaultRec → Nat → Nat
  | [], n => n
  | (k, _) :: m, n => if k = n then lowestFree m (n + 1) else n

/-- The open record of a key. -/
def recOf (s : State) (ctx page : Nat) : Option Nat :=
  (s.recs.find? fun kv => kv.2.ctx == ctx && kv.2.page == page).map (·.1)

/-- A stream faults under HALT (R314, R315): it joins the open record of its page or makes a new one,
which waits for ring space; with 4,096 open the fault is treated as under ABORT. -/
def faultStream (s : State) (st : Stream) (ctx va : Nat) (write : Bool) (cause : Cause) :
    Option Nat × State :=
  match s.recOf ctx (va / 2 ^ 28) with
  | some id =>
    (some id, { s with recs := s.recs.mapV fun k r =>
      if k = id then { r with waiters := r.waiters ++ [st] } else r })
  | none =>
    if 4096 ≤ s.recs.length then
      (none, (s.setFlag .xltState 0 13 true).bump .xltFtabEvt 0 1)
    else
      let id := lowestFree s.recs 0
      (some id, { s with
        recs := s.recs.set id ⟨ctx, va / 2 ^ 28, [st], va, write, cause, s.epoch ctx, st⟩
        ringWait := s.ringWait ++ [id] })

/-- Entries of the fault ring, as a number (XLT_FRING_CFG). -/
def fringSize (s : State) : Nat := 2 ^ s.fld .fringCfg 0 3 0

/-- The ring is full when one more entry would make the producer index equal HEAD (R316). -/
def fringFull (s : State) : Bool :=
  (s.fld .fringTail 0 11 0 + 1) % s.fringSize == s.fld .fringHead 0 11 0

end State

/-- Number of a stream in the fault-ring entry: KIND and UNIT (R316). -/
def Stream.kindUnit : Stream → Nat × Nat
  | .dma c _ => (0, c) | .core c => (1, c) | .copy e => (2, e) | .fetcher f => (3, f)

def Cause.toNat : Cause → Nat
  | .noEntry => 0 | .malformed => 1 | .readOnly => 2 | .atsFail => 3

/-- The 32 bytes of a fault-ring entry (R316). -/
def FaultRec.bytes (r : FaultRec) (id : Nat) (phase : Bool) : List Byte :=
  let (k, u) := r.first.kindUnit
  leBytes 8 r.va ++ leBytes 2 id ++ leBytes 1 (r.ctx + 64 * bit r.write) ++ leBytes 1 r.cause.toNat
    ++ leBytes 4 r.epoch ++ leBytes 4 r.waiters.length ++ leBytes 4 (k + 4 * u) ++ leBytes 7 0
    ++ leBytes 1 (128 * bit phase)

end Sys2Proof.Machine
end

