-- ==== Sys2Proof/Machine/Access.lean ====
section
/-!
DEFINITION. Accesses to memory after translation: the cistern with its poison marks and sealed pools, host
memory with its ports and line cache, egress windows, and requests to other modules.
-/

namespace Sys2Proof.Machine

namespace State

/-! ### Cistern working memory -/

/-- SEALED of a context (R461). -/
def sealed (s : State) (ctx : Nat) : Bool := s.flag .secCtrl ctx 0

/-- The context of the configured pool that holds a local address (R252). -/
def poolCtx (s : State) (a : Nat) : Option Nat :=
  (s.pools.find? fun kv => decide (kv.2.base ≤ a) && decide (a < kv.2.base + kv.2.size)).map (·.1 / 16)

/-- The sealed context whose pool holds a local address (R462). -/
def sealedAt (s : State) (a : Nat) : Option Nat :=
  match s.poolCtx a with
  | some c => if s.sealed c then some c else none
  | none => none

/-- Key number under which the requests of a sealed pool's context are encrypted; zero outside one. -/
def keyAt (s : State) (a : Nat) : Nat :=
  match s.sealedAt a with
  | some c => s.keys.getD c 0
  | none => 0

/-- A granule's bytes as read under a key: plain when it was written under the same key, else what XTS
makes of them (R462). -/
def granuleAs (s : State) (g key : Nat) : List Byte :=
  let bs := s.cis.readN (64 * g) 64
  let k := s.cisKey.getD g 0
  if k = key then bs else (List.range 64).map fun i => Config.cipher k key g bs i

/-- Bytes read under a key. -/
def cisBytes (s : State) (a n key : Nat) : List Byte :=
  if (granules a n).all fun g => s.cisKey.getD g 0 == key then s.cis.readN a n
  else (((granules a n).flatMap fun g => s.granuleAs g key).drop (a % 64)).take n

/-- Some granule of a range is poisoned (R417). -/
def cisBad (s : State) (a n : Nat) : Bool := (granules a n).any fun g => s.cisPoison.contains g

/-- A read by the module's own requesters: bytes and poison mark (R282, R240). -/
def cisRead (s : State) (a n : Nat) : List Byte × Bool := (s.cisBytes a n (s.keyAt a), s.cisBad a n)

/-- The granules of a range come under a key: one that is not written whole is first read under it. -/
def rekey (s : State) (key : Nat) : List Nat → State
  | [] => s
  | g :: gs =>
    let k := s.cisKey.getD g 0
    if k = key then s.rekey key gs
    else
      let s1 := { s with
        cis := s.cis.writeL (64 * g) (s.granuleAs g key)
        cisKey := if key = 0 then s.cisKey.erase g else s.cisKey.set g key }
      s1.rekey key gs

/-- A write to working memory: the granules written whole lose their poison, those marked take it (R240,
R417). -/
def cisWrite (s : State) (a : Nat) (bs : List Byte) (poison : Bool := false) : State :=
  let s := s.rekey (s.keyAt a) (granules a bs.length)
  { s with
    cis := s.cis.writeL a bs
    cisPoison := clearGranules s.cisPoison a bs.length poison }

/-- A request of a context may touch a range: no part of it lies in a pool that another context sealed
(R462). -/
def mayTouch (s : State) (ctx a n : Nat) : Bool :=
  (granules a n).all fun g => match s.sealedAt (64 * g) with
    | some c => c == ctx
    | none => true

/-- Count a request refused under R462 or R463. -/
def protEvt (s : State) : State := s.bump .secProtEvt 0 1

/-! ### Egress windows -/

/-- A context's window `k` of a kind holds every byte of a range (R463). -/
def windowHolds (s : State) (ctx kind a n k : Nat) : Bool :=
  let i := 8 * ctx + k
  let base := s.addr .winBaseHi i
  let size := (s.reg .winSize i).toNat
  s.flag .winCfg i 0 && s.fld .winCfg i 2 1 == kind &&
    (if kind = 2 then decide (base ≤ a) && decide (a + n ≤ base + size)
     else decide (base * 4096 ≤ a) && decide (a + n ≤ (base + size) * 4096))

/-- A write of a context may leave: it is not sealed, or a window of the kind holds the range (R463). Kinds
are 0 host, 1 remote, 2 lookup nodes. -/
def egressOk (s : State) (ctx kind a n : Nat) : Bool :=
  !s.sealed ctx || (List.range 8).any fun k => s.windowHolds ctx kind a n k

/-- A write of a context may not go to a place (R462, R463). -/
def refused (s : State) (ctx : Nat) (x : Place) (n : Nat) : Bool :=
  match x with
  | .cis a => !s.mayTouch ctx a n
  | .host h => !s.egressOk ctx 0 h n
  | .remote node a => !s.egressOk ctx 1 (node * 2 ^ 44 + a) n
  | .bad => false

/-! ### Host memory -/

/-- Home port of a context (R376). -/
def homePort (s : State) (ctx : Nat) : Nat := s.fld .hifCtx ctx 6 6

/-- The host's translation of an address that the ATS caches hold for a context (R325). -/
def atsFind (s : State) (ctx h : Nat) : Option Nat :=
  if !s.flag .ctxCfg ctx 2 then none
  else s.ats.findSome? fun kv => (kv.2.find? fun e => e.ctx == ctx && e.epoch == s.epoch ctx && e.page == h / 4096).map fun e =>
    4096 * e.hpa + h % 4096

/-- How a context's request for a host address leaves on a port (R325, R376): translated when the translation is held. -/
def hostReq (s : State) (port ctx h : Nat) : HostReq :=
  ⟨port, s.fld .hifCtx ctx 5 0, if s.flag .ctxCfg ctx 30 then some (s.fld .ctxCfg ctx 29 10) else none, s.atsFind ctx h⟩

/-- A context with ATS asks the host for a translation that is not held; until it comes the request leaves untranslated
(R325). -/
def askAts (s : State) (ctx h : Nat) : State :=
  let port := s.homePort ctx
  if s.flag .ctxCfg ctx 2 && (s.atsFind ctx h).isNone then s.emit (.atsRequest port (s.hostReq port ctx h) (h / 4096)) else s

/-- A host physical address reaches the line cache (R379): HPA, or a translation held for ATS. -/
def cacheable (s : State) (ctx h : Nat) : Bool := s.flag .hifCtx ctx 7 || (s.atsFind ctx h).isSome

/-- A line comes into its half of the line cache (R14, R30, R379): 16 ways of each set, the oldest leaving (log entry 16).
Below 16 lines no set can be full. -/
def hlcInsert (c : List Nat) (l : Nat) : List Nat :=
  if c.length < 16 then l :: c
  else
    let mine := c.filter fun k => k / 64 % 2 == l / 64 % 2 && Config.hlcSet k == Config.hlcSet l
    l :: (if mine.length < 16 then c else match mine.getLast? with
      | some k => setErase c k
      | none => c)

/-- Lines that the line cache holds after a read, with the counters (R379). `keep` is false for a read that
will not be made again. A line whose half is down is read through the other port and not kept (R378). -/
def hlcRead (s : State) (keep : Bool) : List Nat → State
  | [] => s
  | l :: ls =>
    if s.hlc.contains l then
      State.hlcRead ({ s with hlc := l :: setErase s.hlc l }.bump .hlcHit 0 1) keep ls
    else
      let s := s.bump .hlcMiss 0 1
      let s := if keep ∧ s.portUp (l / 64 % 2) then { s with hlc := hlcInsert s.hlc l } else s
      s.hlcRead keep ls

/-- A read of host memory (R377): the latest value performed in the host (R293). -/
def hostRead (s : State) (ctx h n : Nat) (keep : Bool := true) : List Byte × State :=
  (s.host.readN h n, if s.cacheable ctx h then s.hlcRead keep (granules h n) else s.askAts ctx h)

/-- A host write of a context is sent on a port: it is performed, its lines leave the line cache (R293), and it is seen
outside. -/
def hostSend (s : State) (port ctx h : Nat) (bs : List Byte) (poison : Bool := false) : State :=
  { s with
    host := s.host.writeL h bs
    hlc := s.hlc.filter fun l => !(granules h bs.length).contains l
    hostSent := setInsert s.hostSent (2 * ctx + port)
  }.askAts ctx h |>.emit (.hostWrite (s.hostReq port ctx h) h bs poison)

/-- A port is free for a host write of a context; one that follows the context's earlier writes first sees them performed
(R284). None while the port is down or bears no appearance of the context's owner (R376), or another that carried such writes. -/
def portFor (s : State) (port ctx : Nat) (follows : Bool) : Option State :=
  if !s.leaves port ctx then none else if follows then s.orderPorts port (· == ctx) else some s

/-- A host write by a port that is down, or behind one that waits there, waits (R378). -/
def hostWrite (s : State) (port : Nat) (owner : Owner) (ctx va h : Nat) (bs : List Byte)
    (poison : Bool := false) (follows : Bool := false) : State :=
  match (if s.hostWaits.any (·.port == port) then none else s.portFor port ctx follows) with
  | some s => s.hostSend port ctx h bs poison
  | none => { s with hostWaits := s.hostWaits ++ [⟨port, owner, ctx, s.epoch ctx, va, h, bs, poison, s.ticks, follows⟩] }

/-! ### Other modules -/

/-- State of a link: 3 is UP_X2 and 4 UP_X1. -/
def linkUp (s : State) (l : Nat) : Bool :=
  let x := s.fld .lnkState l 2 0
  decide (l < 36) && (x == 3 || x == 4)

/-- The link by which a packet for a node leaves (R399, R400); none when it is undeliverable. -/
def route (s : State) (dst hops : Nat) : Option Nat :=
  let prim := s.fld .rt dst 5 0
  let alt := s.fld .rt dst 11 6
  if 15 ≤ hops ∨ 36 ≤ prim then none
  else if s.linkUp prim then some prim
  else if s.flag .rt dst 12 && s.linkUp alt then some alt
  else none

/-- Generation of a domain (R427); domains are numbered as in the sump, kind and instance. -/
def genOf (s : State) (kind inst : Nat) : Nat := s.gens.getD (4096 * kind + inst) 0

/-- The lowest free tag of an X die (R397; log entry 14). -/
def freeTag (s : State) (die : Nat) : Option Nat :=
  ((List.range 8192).find? fun t => (s.txns.get? (8192 * die + t)).isNone).map (8192 * die + ·)

/-- The link layer's state of a link. -/
def lnk (s : State) (l : Nat) : Link := s.links.getD l Link.reset

def setLink (s : State) (l : Nat) (x : Link) : State := { s with links := s.links.set l x }

/-- Credits of a class that are free at the sender: classes 0 to 3 are the channels', 4 is shared (R393). -/
def freeCredits (x : Link) (c : Nat) : Nat := (if c = 4 then 640 else 32) + x.seen.getD c 0 - x.used.getD c 0

/-- Where a packet takes its credits; none while neither its channel nor the shared credits suffice (R393). -/
def creditClass (x : Link) (p : Packet) : Option Nat :=
  if pktCredits p ≤ freeCredits x (vcOf p) then some (vcOf p)
  else if pktCredits p ≤ freeCredits x 4 then some 4
  else none

/-- A packet can leave now: no failover is under way, its credits are free, and the replay buffer has room
(R392, R393, R410). -/
def canSend (x : Link) (p : Packet) : Option Nat :=
  if x.failover || decide (512 < x.txSeq - 1 - x.acked + pktFlits p) then none else creditClass x p

/-- The DATA flits of a packet that leaves on a link, with the link's ACK, replay request and credit counts (R390,
R391). -/
def flitsOf (x : Link) (p : Packet) : List (List Byte) :=
  (List.range (pktFlits p)).map fun i =>
    flitBytes (x.txSeq + i) x.rxSeq false x.rpl (if i = 0 then 0 else 0xFF) x.freed (((packetBytes p).drop (242 * i)).take 242)

/-- A packet leaves on a link (R391 to R393). -/
def sendNow (s : State) (l c : Nat) (p : Packet) : State :=
  let x := s.lnk l
  let p := { p with pool := c == 4 }
  let last := x.txSeq + pktFlits p - 1
  let x' := { x with
    used := x.used.set c (x.used.getD c 0 + pktCredits p)
    txSeq := last + 1
    replay := x.replay ++ [(last, p)] }
  ((s.setLink l x').bump64 .lnkTxLo .lnkTxHi l (pktBytes p)).emit (.packet l p (flitsOf x p))

/-- Credits of a class are returned to the link that a packet came in by (R393). -/
def giveBack (s : State) (back : Option (Nat × Nat)) (n : Nat) : State :=
  match back with
  | some (l, c) =>
    let x := s.lnk l
    s.setLink l { x with freed := x.freed.set c (x.freed.getD c 0 + n) }
  | none => s

/-- Send a packet on a link (R400): it waits for credits behind the earlier packets of its channel. One that came in by a
link frees its credits there when it leaves (R393). -/
def sendOn (s : State) (l : Nat) (p : Packet) (back : Option (Nat × Nat) := none) : State :=
  let x := s.lnk l
  match (if x.wait.any fun q => vcOf q.pkt == vcOf p then none else canSend x p) with
  | some c => (s.giveBack back (pktCredits p)).sendNow l c p
  | none => s.setLink l { x with wait := x.wait ++ [⟨p, back⟩] }

/-- Packets that wait at a link leave as far as their credits allow, in order within each channel. -/
def pumpLink (s : State) (l : Nat) : List Waiting → State
  | [] => s
  | w :: ws => (s.sendOn l w.pkt w.back).pumpLink l ws

def pump (s : State) (l : Nat) : State :=
  let ps := (s.lnk l).wait
  (s.setLink l { s.lnk l with wait := [] }).pumpLink l ps

/-- A packet that a link has received is performed or forwarded: its credits are freed (R393). -/
def consume (s : State) (p : Packet) : State :=
  match s.links.find? fun kv => kv.2.rx.contains p with
  | none => s
  | some (l, x) =>
    (s.setLink l { x with rx := x.rx.erase p }).giveBack (some (l, if p.pool then 4 else vcOf p)) (pktCredits p)

/-- The context of a request that no context translates. -/
def noCtx : Nat := 64

/-- How a request to another module begins. -/
inductive Sent where
  /-- Sent, under a key of `txns`. -/
  | sent (tag : Nat) (s : State)
  /-- Every tag of the die is in use: it waits at its engine (R397). -/
  | waits
  /-- Undeliverable (R400). -/
  | undeliverable (s : State)

/-- Send a request of this module: a tag of the X die of its link, with the die's generation (R397). -/
def request (s : State) (owner : Owner) (ctx va : Nat) (p : Packet) : Sent :=
  match s.route p.dst 0 with
  | none => .undeliverable (s.bump .tlkNoroute 0 1)
  | some l =>
    match s.freeTag (l / 18) with
    | none => .waits
    | some t =>
      let p := { p with src := s.node, tag := t + 16384 * s.genOf 8 (4 + l / 18) }
      .sent t ({ s with txns := s.txns.set t ⟨owner, p, ctx, s.epoch ctx, va, s.ticks, none, false⟩ }.sendOn l p)

/-- The transaction that a response answers, which ends (R397). An answer of an older generation of the X die, or for
a domain that has been reset since, is dropped and counted by RAS_LATE (R427), one for a tag no longer outstanding by TLK_LATE. -/
def takeTxn (s : State) (p : Packet) : Option Txn × State :=
  let s := s.consume p
  let t := p.tag % 16384
  if p.tag / 16384 ≠ s.genOf 8 (4 + t / 8192) then (none, s.bump .rasLate 0 1)
  else match s.txns.get? t with
  | some x =>
    let s := { s with txns := s.txns.erase t }
    if x.owner = .gone then (none, s.bump .rasLate 0 1) else (some x, s)
  | none => (none, s.bump .tlkLate 0 1)

/-- A WRITE packet (R396). -/
def writePkt (node a : Nat) (bs : List Byte) (pmask : Nat := 0) : Packet :=
  ⟨node, 0, 0, 0x01, false, 0, pmask, a, 0, bs⟩

/-- A READ packet (R396). -/
def readPkt (node a n : Nat) : Packet := ⟨node, 0, 0, 0x02, false, 0, 0, a, n, []⟩

end State

end Sys2Proof.Machine
end

