-- ==== Sys2Proof/Machine/Issue.lean ====
section
/-!
DEFINITION. Issue of a Linzal instruction (R70 to R84): fetch, decode checks, holds, and how an instruction
reports (R76 to R79); the end of a launch on a fault (R420).
-/

namespace Sys2Proof.Machine

/-- What an instruction's own operation answers. -/
inductive Res where
  /-- Complete; the core goes on with the next word. -/
  | ok (s : State)
  /-- Complete; the core goes on at an address. -/
  | jump (s : State) (pc : BitVec 57)
  /-- It does not issue yet; the numbers are the outstanding jobs it waits on. -/
  | held (by_ : List Nat)
  /-- It does not issue yet because a unit queue is full or the allocator is busy (R82). -/
  | full (by_ : List Nat)
  /-- It has begun and is not complete: the core waits. -/
  | keep (s : State)
  /-- Rejected (R77); for consumed poison, with the address read (R419). -/
  | bad (s : State) (c : Code) (at_ : Option Nat := none)

namespace State

/-! ### Ending a launch -/

/-- Lay a new final status into a descriptor's stream record (R176). -/
def endRecord (c : Core) (slot : Nat) (code : Code) : Core :=
  match c.srec.get? slot with
  | some r => { c with srec := c.srec.set slot (r.set 88 (BitVec.ofNat 8 code.toNat)) }
  | none => c

/-- What becomes of an outstanding unit instruction when its launch ends (R420): a started matrix or vector
instruction runs on, a descriptor that has requests out completes them, every other one is discarded. -/
def jobAtEnd (j : Job) : Option Job :=
  match j.prog with
  | .running | .walking .. => if j.cls = 7 then none else if j.cls = 6 then some { j with prog := .issued } else some j
  | .issued => some j
  | .queued | .short | .halted .. => none

/-- A core stops issuing as its launch ends (R420): queued work is discarded, waits and loads abandoned. -/
def coreAtEnd (c : Core) : Core :=
  let c := c.jobs.foldl (fun c j => match j.prog with
    | .halted .. => endRecord c j.slot .aborted
    | _ => c) c
  { c with
    run := .stopped
    jobs := c.jobs.filterMap jobAtEnd
    loads := []
    busy := []
    stall := none
    wait := none
    stop := none
    bags := []
    bagWaits := []
    lkWaits := [] }

/-- The streams of a core leave the fault records that they wait on. -/
def leaveRecs (s : State) (p : Nat) : State :=
  { s with recs := s.recs.mapV fun _ r => { r with waiters := r.waiters.filter fun w =>
      match w with
      | .core c => c != p
      | .dma c _ => c != p
      | _ => true } }

/-- A launch ends with a code (R420). The first code stands (R343). A launch that consumed poison raises a
sump entry whose WHERE is the address read, and its record carries the entry's number (R419). -/
def endLaunch (s : State) (l : Nat) (code : Code) (unit : Option Nat)
    (at_ : Option Nat := none) : State :=
  match s.launch l with
  | none => s
  | some x =>
    if x.phase = .ending ∧ x.code ≠ .ok then s
    else
      let s := match at_ with
        | some a => s.raise 0x01 (unit.getD 0xFFF) code 0x03 (some x.ctx) x.seq a
        | none => s
      let s := s.setLaunch l { x with
        phase := .ending
        code := code
        unit := unit.getD 0xFFF
        info := if at_.isSome then s.lastSump else x.info }
      x.cores.foldl (fun s p =>
        if (s.core p).launch = some l then (s.modCore p coreAtEnd).leaveRecs p else s) s

/-- The launch that runs on a core ends with a code, named for the core (R77, R343). -/
def endLaunchOf (s : State) (p : Nat) (code : Code) (at_ : Option Nat := none) : State :=
  match (s.core p).launch with
  | some l => s.endLaunch l code (some p) at_
  | none => s

/-- A faulting instruction is rejected (R77): the core records the code and the address and stops. -/
def faultCore (s : State) (p cls func : Nat) (pc : BitVec 57) (code : Code)
    (at_ : Option Nat := none) : State :=
  (s.modCore p fun c => { c with
    run := .stopped
    fault := code
    faultCls := cls
    faultFunc := func
    faultPc := pc }).endLaunchOf p code at_

/-! ### Fetch -/

/-- A core can issue: it runs, and nothing that it has begun is unfinished. -/
def canIssue (s : State) (p : Nat) : Bool :=
  let c := s.core p
  (c.run == .running || c.run == .waiting) && c.stall.isNone && c.wait.isNone && c.stop.isNone && !c.ended && !s.inReset 1 p &&
    !(c.loads.any fun l => l.kind.isSlot)

/-- An address lies in the code section of the launch's graph image (R88, R338). -/
def inCode (x : Launch) (pc : Nat) : Bool :=
  decide (x.image + 256 ≤ pc) && decide (pc + 8 ≤ x.image + 256 + x.codeSize)

/-- Fetch the line of an address (R88, R418, R494): from the instruction cache of 1,024 lines (R22), or from memory
into it, the oldest line leaving (log entry 16). -/
def fetchLine (s : State) (p ctx va : Nat) : Code × State :=
  if (s.core p).icache.contains (va / 64) then (.ok, s)
  else match s.xlateNow p ctx va false with
    | (.error c, s) => (c, s)
    | (.ok l, s) =>
      let s1 := s.modCore p fun c => { c with icache := (va / 64 :: c.icache).take 1024 }
      match s.place l va with
      | .cis a =>
        if !s.mayTouch ctx a 8 then (.protection, s.protEvt)
        else if s.cisBad a 8 then (.poison, s) else (.ok, s1)
      | .host _ => (.ok, s1)
      | .remote .. => (.ok, s1)
      | .bad => (.range, s)

/-- Fetch one word. -/
def fetchWord (s : State) (p pc : Nat) : Code × State :=
  match s.launchOf p with
  | none => (.range, s)
  | some (_, x) => if !inCode x pc then (.range, s) else s.fetchLine p x.ctx pc

/-- Fetch the word at the PC, and its second word when there is one. -/
def fetch (s : State) (p : Nat) (two : Bool) : Code × State :=
  match s.fetchWord p (s.core p).pc.toNat with
  | (.ok, s1) => if two then s1.fetchWord p (((s.core p).pc + 8).toNat) else (.ok, s1)
  | r => r

/-- The launch of a core has been asked to make way (R363). -/
def askedWay (s : State) (p : Nat) : Bool :=
  match s.launchOf p with
  | some (_, x) => x.asked && x.phase == .running
  | none => false

/-- A core stops to make way (R363). -/
def stopCore (s : State) (p : Nat) (how : Stop) : State := s.modCore p fun c => { c with stop := some how }

/-! ### Issue -/

/-- Outstanding DMA, FIL and SCP of a core (R83). -/
def dmaJobs (s : State) (p : Nat) : List Nat := ((s.core p).jobs.filter fun j => j.cls == 6).map (·.id)

/-- Every job of a list is halted, and there is one (R175). -/
def allHalted (s : State) (p : Nat) (ids : List Nat) : Bool :=
  !ids.isEmpty && ids.all fun i => (s.core p).jobs.any fun j =>
    j.id == i && (match j.prog with | .halted .. => true | _ => false)

/-- An instruction that waits on jobs: the core makes way there when it waits only on halted descriptors
(R363), and otherwise only what it waits on is noted (R175). -/
def holdOn (s : State) (p : Nat) (ids : List Nat) : State :=
  if s.askedWay p && s.allHalted p ids then s.stopCore p .halted
  else if (s.core p).heldBy = ids then s
  else s.modCore p fun c => { c with heldBy := ids }

/-- An instruction has been issued and is complete for the core: the PC moves on. -/
def retire (s : State) (p : Nat) (pc : BitVec 57) : State :=
  s.modCore p fun c => { c with run := .running, pc := pc, retired := c.retired + 1, heldBy := [] }

/-- The code of a returned instruction (R79): CST.LAST and p7. -/
def returned (s : State) (p : Nat) (code : Code) : State :=
  s.modCore p fun c => { c with cst := BitVec.ofNat 64 code.toNat }.setP 7 (code == Code.ok)

/-- Marker of a second word (R72). -/
def markerOk : Option DWord → Bool
  | none => true
  | some w2 => w2.toNat / 2 ^ 58 == 0x3E

/-- The next word's address. -/
def nextPc (pc : BitVec 57) (w2 : Option DWord) : BitVec 57 := if w2.isSome then pc + 16 else pc + 8

/-- What follows an instruction's own operation. -/
def finish (s : State) (p cls func : Nat) (w2 : Option DWord) : Res → State
  | .ok t => t.retire p (nextPc (s.core p).pc w2)
  | .jump t pc => t.retire p pc
  | .held ids => s.holdOn p ids
  | .full ids => (s.modCore p fun c => { c with run := .waiting }).holdOn p ids
  | .keep t => t
  | .bad t c a => t.faultCore p cls func (s.core p).pc c a

end State

open State in
/-- Issue an instruction of a class and function on a core. `fields` says that every unused bit is zero and
every field's value is assigned (R71, R73); `regs` lists the registers it reads or writes (R81). -/
def issue (cls func : Nat) (w : IWord) (w2 : Option DWord) (fields : Bool) (regs : List RegRef) (p : Nat)
    (body : State → Res) (s : State) : Outcome :=
  if !s.canIssue p then .next s
  else match s.fetch p w2.isSome with
    | (.ok, s1) =>
      if s1.askedWay p && w.yld then .next (s1.stopCore p .yieldPoint)
      else if !markerOk w2 then .next (s1.faultCore p cls func (s1.core p).pc .badOpcode)
      else if !fields then .next (s1.faultCore p cls func (s1.core p).pc .badField)
      else if w.dep && !(s1.dmaJobs p).isEmpty then .next (s1.holdOn p (s1.dmaJobs p))
      else if (s1.core p).isBusy regs then .next s1
      else .next (s1.finish p cls func w2 (body s1))
    | (c, s1) =>
      -- No instruction was read: CLASS and FUNC of LZC_FAULT are free values (log entry 1).
      let (k, s2) := s1.draw
      .next (s2.faultCore p ((Config.freeAt k 0).toNat % 64) ((Config.freeAt k 1).toNat % 64)
        (s.core p).pc c (if c = .poison then some (s.core p).pc.toNat else none))

namespace IWord

/-- A field names a predicate (R71). -/
def isP (f : BitVec 6) : Bool := f.toNat < 8
/-- A field names a descriptor (R71). -/
def isT (f : BitVec 6) : Bool := f.toNat < 32

end IWord

end Sys2Proof.Machine
end

