-- ==== Sys2Proof/Machine/Areas.lean ====
section
/-!
DEFINITION. Byte areas of the scratchpad and what outstanding unit instructions still have to read or write
of them (R113, R149, R161, R162, R287).
-/

namespace Sys2Proof.Machine

/-- A plain range of bytes. -/
def Area.span (a n : Nat) : Area := ⟨a, n, 1, 1, 1, 0, 0, 0⟩

/-- The rows of an area, as first byte and length. -/
def Area.rows (x : Area) : List (Nat × Nat) :=
  (List.range x.e3).flatMap fun k => (List.range x.e2).flatMap fun j => (List.range x.e1).map fun i =>
    (x.base + i * x.s1 + j * x.s2 + k * x.s3, x.w)

/-- Byte after the last byte of the last element. -/
def Area.last (x : Area) : Nat :=
  x.base + (x.e1 - 1) * x.s1 + (x.e2 - 1) * x.s2 + (x.e3 - 1) * x.s3 + x.w

/-- The range from BASE to the last byte of the last element (R148, R159, R161). -/
def Area.hull (x : Area) : Area := .span x.base (x.last - x.base)

/-- Two ranges share a byte; an empty one shares none. -/
def rangesMeet (a b : Nat × Nat) : Bool :=
  decide (0 < a.2) && decide (0 < b.2) && decide (a.1 < b.1 + b.2) && decide (b.1 < a.1 + a.2)

/-- Two areas share a byte. -/
def Area.meets (x y : Area) : Bool := x.rows.any fun a => y.rows.any fun b => rangesMeet a b

/-- Areas of two lists share a byte. -/
def areasMeet (xs ys : List Area) : Bool := xs.any fun x => ys.any fun y => x.meets y

/-- The jobs of some classes that still write a byte of some areas. -/
def writersOf (jobs : List Job) (xs : List Area) : List Nat :=
  (jobs.filter fun j => areasMeet j.writes xs).map (·.id)

/-- The jobs that still read a byte of some areas. -/
def readersOf (jobs : List Job) (xs : List Area) : List Nat :=
  (jobs.filter fun j => areasMeet j.reads xs).map (·.id)

namespace State

/-- Jobs of a core of some classes. -/
def jobsOf (s : State) (p : Nat) (classes : List Nat) : List Job :=
  (s.core p).jobs.filter fun j => classes.contains j.cls

/-- Earlier matrix, vector and lookup instructions that a scalar read of scratchpad bytes waits on (R287). -/
def padReadWaits (s : State) (p a n : Nat) : List Nat :=
  writersOf (s.jobsOf p [4, 5, 7]) [.span a n]

/-- Those that a scalar write waits on (R287, R116, R150). -/
def padWriteWaits (s : State) (p a n : Nat) : List Nat :=
  writersOf (s.jobsOf p [4, 5, 7]) [.span a n] ++ readersOf (s.jobsOf p [4, 5, 7]) [.span a n]

/-- Dispatch a unit instruction: it takes its place in program order (R82). -/
def dispatch (s : State) (p : Nat) (j : Job) : State :=
  s.modCore p fun c => { c with jobs := c.jobs ++ [{ j with id := c.nextJob, pc := c.pc }], nextJob := c.nextJob + 1 }

/-- A job of a core. -/
def job (s : State) (p id : Nat) : Option Job := (s.core p).jobs.find? fun j => j.id == id

/-- Change a job of a core. -/
def modJob (s : State) (p id : Nat) (f : Job → Job) : State :=
  s.modCore p fun c => { c with jobs := c.jobs.map fun j => if j.id = id then f j else j }

/-- A VCH starts: it reads its table and its latched operands (R143, R149). -/
def startVch (s : State) (p : Nat) (j : Job) : Job :=
  let within := fun (x : Nat) (n : Nat) => j.fill.any fun f => f.rows.any fun r => rangesMeet r (x, n)
  { j with
    prog := .running
    latch := (s.pad p).filter fun cell => within cell.1 1
    latchBad := (s.poisonedPad p).filter fun g => within (64 * g) 64 }

/-- A job is complete. -/
def dropJob (s : State) (p id : Nat) : State :=
  s.modCore p fun c => { c with jobs := c.jobs.filter fun j => j.id != id }

/-- The jobs of a core before one in program order. -/
def before (s : State) (p id : Nat) : List Job := (s.core p).jobs.filter fun j => decide (j.id < id)

end State

end Sys2Proof.Machine
end

