-- ==== Sys2Proof/Machine/Num.lean ====
section
/-!
DEFINITION. Numbers: the element formats of R32, exact values, and rounding into a format (R59 to R62).
A floating value is kept as sign, magnitude and binary exponent, so that every product and sum is exact
and each rounding of the spec is one call.
-/

namespace Sys2Proof.Machine

/-- An exact value of a floating format: NaN, an infinity, or (-1)^neg * m * 2^e. -/
inductive FVal where
  | nan
  | inf (neg : Bool)
  | fin (neg : Bool) (m : Nat) (e : Int)
deriving DecidableEq, Repr

/-- The element formats of R32. -/
inductive Fmt where
  | fp32 | bf16 | fp16 | e4m3 | e5m2 | e2m3 | e3m2 | e2m1 | int8 | int4 | ternary | binary | int32
deriving DecidableEq, Repr

/-- Format codes of R32; 0x0D to 0x1F are reserved (R33). -/
def Fmt.ofCode : Nat → Option Fmt
  | 0 => some .fp32 | 1 => some .bf16 | 2 => some .fp16 | 3 => some .e4m3 | 4 => some .e5m2
  | 5 => some .e2m3 | 6 => some .e3m2 | 7 => some .e2m1 | 8 => some .int8 | 9 => some .int4
  | 10 => some .ternary | 11 => some .binary | 12 => some .int32 | _ => none

/-- Width in bits (R32). -/
def Fmt.bits : Fmt → Nat
  | .fp32 => 32 | .bf16 => 16 | .fp16 => 16 | .e4m3 => 8 | .e5m2 => 8 | .e2m3 => 6 | .e3m2 => 6
  | .e2m1 => 4 | .int8 => 8 | .int4 => 4 | .ternary => 2 | .binary => 1 | .int32 => 32

/-- The formats whose elements are integers. -/
def Fmt.isInt : Fmt → Bool
  | .int8 | .int4 | .ternary | .binary | .int32 => true
  | _ => false

/-- Exponent bits, mantissa bits and bias of a floating format (R32). -/
def Fmt.layout : Fmt → Nat × Nat × Nat
  | .fp32 => (8, 23, 127) | .bf16 => (8, 7, 127) | .fp16 => (5, 10, 15) | .e4m3 => (4, 3, 7)
  | .e5m2 => (5, 2, 15) | .e2m3 => (2, 3, 1) | .e3m2 => (3, 2, 3) | .e2m1 => (2, 1, 1)
  | _ => (0, 0, 0)

/-- Formats with infinities (R32). -/
def Fmt.hasInf : Fmt → Bool
  | .fp32 | .bf16 | .fp16 | .e5m2 => true
  | _ => false

/-- Largest finite magnitude, as mantissa and exponent (R32). -/
def Fmt.maxFinite : Fmt → Nat × Int
  | .fp32 => (2 ^ 24 - 1, 104) | .bf16 => (255, 120) | .fp16 => (2047, 5) | .e4m3 => (14, 5)
  | .e5m2 => (7, 13) | .e2m3 => (15, -1) | .e3m2 => (7, 2) | .e2m1 => (3, 1)
  | .int8 => (127, 0) | .int4 => (7, 0) | .ternary => (1, 0) | .binary => (1, 0)
  | .int32 => (2 ^ 31 - 1, 0)

namespace FVal

def zero : FVal := .fin false 0 0
def one : FVal := .fin false 1 0
/-- 2^k. -/
def pow2 (k : Int) : FVal := .fin false 1 k

def isNan : FVal → Bool
  | .nan => true
  | _ => false

def isFin : FVal → Bool
  | .fin _ _ _ => true
  | _ => false

def isZero : FVal → Bool
  | .fin _ m _ => m == 0
  | _ => false

/-- The sign bit; NaN has none. -/
def neg : FVal → Bool
  | .nan => false
  | .inf n => n
  | .fin n _ _ => n

def negate : FVal → FVal
  | .nan => .nan
  | .inf n => .inf (!n)
  | .fin n m e => .fin (!n) m e

def abs : FVal → FVal
  | .nan => .nan
  | .inf _ => .inf false
  | .fin _ m e => .fin false m e

/-- An integer as an exact value. -/
def ofInt (i : Int) : FVal := .fin (i < 0) i.natAbs 0

/-- The magnitude at a smaller exponent. -/
def mant (m : Nat) (e e' : Int) : Nat := m <<< (e - e').toNat

/-- The signed integer n * m. -/
def signed (n : Bool) (m : Nat) : Int := if n then -(m : Int) else (m : Int)

/-- Exact sum. An exact zero is +0 unless both terms are negative (round to nearest). -/
def add : FVal → FVal → FVal
  | .nan, _ => .nan
  | _, .nan => .nan
  | .inf a, .inf b => if a == b then .inf a else .nan
  | .inf a, _ => .inf a
  | _, .inf b => .inf b
  | .fin n1 m1 e1, .fin n2 m2 e2 =>
    let e := min e1 e2
    let i := signed n1 (mant m1 e1 e) + signed n2 (mant m2 e2 e)
    if i = 0 then .fin (n1 && n2) 0 e else .fin (i < 0) i.natAbs e

def sub (a b : FVal) : FVal := add a (negate b)

/-- Exact product. -/
def mul : FVal → FVal → FVal
  | .nan, _ => .nan
  | _, .nan => .nan
  | .inf a, .inf b => .inf (a != b)
  | .inf a, .fin n m _ => if m = 0 then .nan else .inf (a != n)
  | .fin n m _, .inf b => if m = 0 then .nan else .inf (n != b)
  | .fin n1 m1 e1, .fin n2 m2 e2 => .fin (n1 != n2) (m1 * m2) (e1 + e2)

/-- Floor of the base-2 logarithm of a non-zero magnitude. -/
def expo (m : Nat) (e : Int) : Int := (Nat.log2 m : Int) + e

/-- Quotient to at least 80 bits with a sticky low bit, enough for one rounding to any format. -/
def div : FVal → FVal → FVal
  | .nan, _ => .nan
  | _, .nan => .nan
  | .inf _, .inf _ => .nan
  | .inf a, .fin n _ _ => .inf (a != n)
  | .fin n _ _, .inf b => .fin (n != b) 0 0
  | .fin n1 m1 e1, .fin n2 m2 e2 =>
    if m2 = 0 then (if m1 = 0 then .nan else .inf (n1 != n2))
    else
      let k := 80 + Nat.log2 m2
      let a := m1 <<< k
      let q := 2 * (a / m2) + (if a % m2 = 0 then 0 else 1)
      .fin (n1 != n2) q (e1 - e2 - k - 1)

/-- Comparison of two finite or infinite values: the sign of a - b, none with a NaN. -/
def cmp : FVal → FVal → Option Ordering
  | .nan, _ => none
  | _, .nan => none
  | .inf a, .inf b => some (if a == b then .eq else if a then .lt else .gt)
  | .inf a, _ => some (if a then .lt else .gt)
  | _, .inf b => some (if b then .gt else .lt)
  | .fin n1 m1 e1, .fin n2 m2 e2 =>
    let e := min e1 e2
    some (compare (signed n1 (mant m1 e1 e)) (signed n2 (mant m2 e2 e)))

def lt (a b : FVal) : Bool := cmp a b == some .lt
def le (a b : FVal) : Bool := cmp a b == some .lt || cmp a b == some .eq
/-- Smaller of two values; NaN when either is. -/
def fmin (a b : FVal) : FVal := if a.isNan || b.isNan then .nan else if lt b a then b else a
def fmax (a b : FVal) : FVal := if a.isNan || b.isNan then .nan else if lt a b then b else a

/-- Integer part toward zero of a finite value; zero of any other. -/
def trunc : FVal → Int
  | .fin n m e => signed n (if e ≥ 0 then m <<< e.toNat else m >>> (-e).toNat)
  | _ => 0

end FVal

/-- Rounding modes of R61; SR carries its 16 random bits. -/
inductive Rnd where
  | rne | rtz | sr (r : Nat)
deriving DecidableEq, Repr

/-- One rounding of m * 2^e to a multiple of 2^q: the magnitude in units of 2^q. Under SR, lo lies
below x on the number line, so a negative value's fraction is taken from the lower side (R62). -/
def roundUnits (r : Rnd) (neg : Bool) (m : Nat) (e q : Int) : Nat :=
  if e ≥ q then m <<< (e - q).toNat
  else
    let d := (q - e).toNat
    let lo := m >>> d
    let rem := m % (2 ^ d)
    if rem = 0 then lo
    else match r with
      | .rtz => lo
      | .rne =>
        if 2 ^ d < 2 * rem || (2 ^ d == 2 * rem && lo % 2 == 1) then lo + 1 else lo
      | .sr w =>
        if neg then
          let frac := ((2 ^ d - rem) * 65536) >>> d
          if frac + w ≥ 65536 then lo else lo + 1
        else
          let frac := (rem * 65536) >>> d
          if frac + w ≥ 65536 then lo + 1 else lo

/-- Rounding to precision p with smallest quantum 2^qmin and unbounded larger exponents. -/
def roundPrec (r : Rnd) (p : Nat) (qmin : Int) : FVal → FVal
  | .fin n m e =>
    if m = 0 then .fin n 0 0
    else
      let q := max qmin (FVal.expo m e - (p - 1))
      .fin n (roundUnits r n m e q) q
  | v => v

/-- Precision and exponent of the smallest subnormal of a floating format; an integer format rounds
to whole numbers. -/
def Fmt.quantum (f : Fmt) : Int :=
  if f.isInt then 0 else
    let (_, mb, bias) := f.layout
    1 - (bias : Int) - mb

/-- Rounding to a format with its exponent range (or integer range) taken as unbounded (R60). -/
def roundUnbounded (r : Rnd) (f : Fmt) (v : FVal) : FVal :=
  if f.isInt then
    match v with
    | .fin n m e => .fin n (roundUnits r n m e 0) 0
    | v => v
  else roundPrec r (f.layout.2.1 + 1) f.quantum v

/-- The largest finite value of a format with a sign. For a negative integer it is the same magnitude. -/
def Fmt.largest (f : Fmt) (neg : Bool) : FVal := .fin neg f.maxFinite.1 f.maxFinite.2

/-- Whether a rounded finite value is beyond the largest finite of the format (R60): its magnitude is above
it. INT32 saturates at -2^31 (R141). -/
def Fmt.beyond (f : Fmt) (v : FVal) : Bool :=
  match f, v with
  | .int32, .fin n m e =>
    if n then FVal.lt (.fin false (2 ^ 31) 0) (.fin false m e) else FVal.lt (f.largest false) (.fin false m e)
  | _, .fin _ m e => FVal.lt (f.largest false) (.fin false m e)
  | _, _ => false

/-- IEEE rounding into a format with infinity: overflow to infinity under RNE. -/
def roundIEEE (f : Fmt) (v : FVal) : FVal :=
  let w := roundUnbounded .rne f v
  if f.beyond w then .inf w.neg else w

/-- The bits of a value that lies in the format. NaN takes the given payload. -/
def encodeF (f : Fmt) (nanBits : Nat) : FVal → Nat
  | .nan => nanBits
  | .inf n =>
    let (eb, mb, _) := f.layout
    (if n then 2 ^ (eb + mb) else 0) + (2 ^ eb - 1) * 2 ^ mb
  | .fin n m e =>
    let (eb, mb, bias) := f.layout
    let s := if n then 2 ^ (eb + mb) else 0
    if m = 0 then s
    else
      let k := FVal.expo m e
      let units := roundUnits .rtz n m e (max f.quantum (k - mb))
      if k < 1 - (bias : Int) then s + units
      else s + (k + bias).toNat * 2 ^ mb + (units - 2 ^ mb)

/-- The canonical quiet NaN of a format with NaN (R87 states that of FP32). -/
def Fmt.nanCode : Fmt → Nat
  | .fp32 => 0x7FC00000 | .bf16 => 0x7FC0 | .fp16 => 0x7E00 | .e4m3 => 0x7F | .e5m2 => 0x7E | _ => 0

/-- The value of a floating code (R32). -/
def decodeF (f : Fmt) (b : Nat) : FVal :=
  let (eb, mb, bias) := f.layout
  let n := (b >>> (eb + mb)) % 2 == 1
  let ex := (b >>> mb) % 2 ^ eb
  let m := b % 2 ^ mb
  if f.hasInf && ex == 2 ^ eb - 1 then (if m = 0 then .inf n else .nan)
  else if f == .e4m3 && ex == 15 && m == 7 then .nan
  else if ex = 0 then .fin n m (1 - (bias : Int) - mb)
  else .fin n (2 ^ mb + m) ((ex : Int) - bias - mb)

/-- Two's complement reading of the low w bits. -/
def toSigned (w b : Nat) : Int :=
  let b := b % 2 ^ w
  if b ≥ 2 ^ (w - 1) then (b : Int) - 2 ^ w else b

/-- The value of an element code. A ternary 0b10 is invalid and reads as zero (R56). -/
def decodeElem (f : Fmt) (b : Nat) : FVal :=
  match f with
  | .int8 => .ofInt (toSigned 8 b)
  | .int4 => .ofInt (toSigned 4 b)
  | .int32 => .ofInt (toSigned 32 b)
  | .ternary => if b % 4 == 1 then .one else if b % 4 == 3 then .ofInt (-1) else .zero
  | .binary => if b % 2 == 1 then .one else .ofInt (-1)
  | f => decodeF f b

/-- Whether an element code is the invalid ternary code. -/
def invalidElem (f : Fmt) (b : Nat) : Bool := f == .ternary && b % 4 == 2

/-- The code of an integer element. -/
def encodeInt (f : Fmt) (i : Int) : Nat :=
  match f with
  | .ternary => if i > 0 then 1 else if i < 0 then 3 else 0
  | .binary => if i < 0 then 0 else 1
  | f => (i % (2 ^ f.bits : Int)).toNat

/-- The code of a value that lies in the format. -/
def encodeElem (f : Fmt) (nanBits : Nat) (v : FVal) : Nat :=
  if f.isInt then encodeInt f v.trunc else encodeF f nanBits v

/-- An FP32 word read as a value. -/
def ofF32 (b : BitVec 32) : FVal := decodeF .fp32 b.toNat

/-- A value rounded once to FP32 by RNE; NaN is 0x7FC0_0000 (R87). -/
def toF32 (v : FVal) : BitVec 32 := BitVec.ofNat 32 (encodeF .fp32 0x7FC00000 (roundIEEE .fp32 v))

/-- One FP32 rounding of an exact value, kept as a value. -/
def rnd32 (v : FVal) : FVal := roundIEEE .fp32 v

/-- A NaN code of a format picked by a free word: R60 says NaN and names no payload (log entry 1). -/
def pickNan (f : Fmt) (w : BitVec 64) : Nat :=
  let c := w.toNat % 2 ^ f.bits
  if (decodeF f c).isNan then c else f.nanCode

/-- The value of an E8M0 scale code; 0xFF is NaN (R37). -/
def e8m0 (c : Nat) : FVal := if c % 256 = 255 then .nan else .pow2 ((c % 256 : Int) - 127)

/-- The value of an S16 block scale: a set sign bit or the NaN code makes the block NaN (R38). -/
def s16Scale (c : Nat) : FVal :=
  let c := c % 256
  if c ≥ 128 then .nan else decodeF .e4m3 c

end Sys2Proof.Machine
end

