-- ==== Sys2Proof/Machine/Scalar.lean ====
section
/-!
DEFINITION. Scalar ALU and branch instructions, classes 0x00 and 0x01 (R87, R88), and the parameter slots
that LDP and TLP read (R85, R86, R339, R340).
-/

namespace Sys2Proof.Machine

/-! ### Operand forms -/

/-- The s registers of fields. -/
def sRegs (l : List (BitVec 6)) : List RegRef := l.map fun f => .s f.toNat

/-- Sign-extended IMM. -/
def simm (w : IWord) : DWord := w.imm.signExtend 64

/-- Write s(DST) and go on. -/
def setDst (s : State) (p : Nat) (w : IWord) (v : DWord) : Res := .ok (s.modCore p fun c => c.setS w.dst v)

/-- s(DST) from s(SRC1) and s(SRC2), IMM unused. -/
def alu2 (func : Nat) (c : CoreId) (w : IWord) (f : DWord → DWord → DWord) (s : State) : Outcome :=
  issue 0x00 func w none (w.imm == 0) (sRegs [w.dst, w.src1, w.src2]) c.val
    (fun s => setDst s c.val w (f ((s.core c.val).getS w.src1) ((s.core c.val).getS w.src2))) s

/-- s(DST) from s(SRC1) and IMM, SRC2 unused; `fields` checks IMM. -/
def alu1 (func : Nat) (c : CoreId) (w : IWord) (fields : Bool) (f : DWord → DWord) (s : State) : Outcome :=
  issue 0x00 func w none (w.src2 == 0 && fields) (sRegs [w.dst, w.src1]) c.val
    (fun s => setDst s c.val w (f ((s.core c.val).getS w.src1))) s

/-- FP32 value of a scalar register (R66). -/
def fp (x : DWord) : FVal := ofF32 (x.setWidth 32)

/-- An FP32 result, rounded to nearest even; any NaN input gives 0x7FC0_0000 (R87). DEDUCED (log entry 62): so does a NaN that
arises without one. -/
def fpRes (v : FVal) : DWord := (toF32 v).setWidth 64

/-! ### Class 0x00 -/

/-- NOP (R87). -/
def execNop (c : CoreId) (w : IWord) (s : State) : Outcome :=
  issue 0x00 0x00 w none (w.dst == 0 && w.src1 == 0 && w.src2 == 0 && w.imm == 0) [] c.val (fun s => .ok s) s

/-- ADD (R87). -/
def execAdd (c : CoreId) (w : IWord) (s : State) : Outcome := alu2 0x01 c w (· + ·) s

/-- SUB (R87). -/
def execSub (c : CoreId) (w : IWord) (s : State) : Outcome := alu2 0x02 c w (· - ·) s

/-- MUL (R87). -/
def execMul (c : CoreId) (w : IWord) (s : State) : Outcome := alu2 0x03 c w (· * ·) s

/-- High half of the signed 128-bit product. -/
def mulHigh (a b : DWord) : DWord := ((a.signExtend 128 * b.signExtend 128) >>> 64).setWidth 64

/-- MULH (R87). -/
def execMulh (c : CoreId) (w : IWord) (s : State) : Outcome := alu2 0x04 c w mulHigh s

/-- AND (R87). -/
def execAndI (c : CoreId) (w : IWord) (s : State) : Outcome := alu2 0x05 c w (· &&& ·) s

/-- OR (R87). -/
def execOrI (c : CoreId) (w : IWord) (s : State) : Outcome := alu2 0x06 c w (· ||| ·) s

/-- XOR (R87). -/
def execXor (c : CoreId) (w : IWord) (s : State) : Outcome := alu2 0x07 c w (· ^^^ ·) s

/-- Shift amount: bits [5:0]. -/
def shamt (b : DWord) : Nat := b.toNat % 64

/-- SHL (R87). -/
def execShl (c : CoreId) (w : IWord) (s : State) : Outcome := alu2 0x08 c w (fun a b => a <<< shamt b) s

/-- SHR (R87). -/
def execShr (c : CoreId) (w : IWord) (s : State) : Outcome := alu2 0x09 c w (fun a b => a >>> shamt b) s

/-- SRA (R87). -/
def execSra (c : CoreId) (w : IWord) (s : State) : Outcome := alu2 0x0A c w (fun a b => a.sshiftRight (shamt b)) s

/-- MIN (R87). -/
def execMinI (c : CoreId) (w : IWord) (s : State) : Outcome :=
  alu2 0x0B c w (fun a b => if b.slt a then b else a) s

/-- MAX (R87). -/
def execMaxI (c : CoreId) (w : IWord) (s : State) : Outcome :=
  alu2 0x0C c w (fun a b => if a.slt b then b else a) s

/-- ADDI (R87). -/
def execAddi (c : CoreId) (w : IWord) (s : State) : Outcome := alu1 0x0D c w true (· + simm w) s

/-- ANDI (R87). -/
def execAndi (c : CoreId) (w : IWord) (s : State) : Outcome := alu1 0x0E c w true (· &&& w.imm.setWidth 64) s

/-- IMM[31:6] is zero. -/
def imm6 (w : IWord) : Bool := w.imm.toNat < 64

/-- SHLI (R87). -/
def execShli (c : CoreId) (w : IWord) (s : State) : Outcome := alu1 0x0F c w (imm6 w) (· <<< w.imm.toNat) s

/-- SHRI (R87). -/
def execShri (c : CoreId) (w : IWord) (s : State) : Outcome := alu1 0x10 c w (imm6 w) (· >>> w.imm.toNat) s

/-- LDI (R87). -/
def execLdi (c : CoreId) (w : IWord) (s : State) : Outcome :=
  issue 0x00 0x11 w none (w.src1 == 0 && w.src2 == 0) (sRegs [w.dst]) c.val
    (fun s => setDst s c.val w (simm w)) s

/-- LHI (R87). -/
def execLhi (c : CoreId) (w : IWord) (s : State) : Outcome :=
  issue 0x00 0x12 w none (w.src1 == 0 && w.src2 == 0) (sRegs [w.dst]) c.val
    (fun s => setDst s c.val w
      (w.imm ++ ((s.core c.val).getS w.dst).setWidth 32)) s

/-- The condition codes of CMP and CMPI. -/
def condition (code : Nat) (a b : DWord) : Bool :=
  match code % 8 with
  | 0 => a == b
  | 1 => a != b
  | 2 => a.slt b
  | 3 => !a.slt b
  | 4 => a.ult b
  | 5 => !a.ult b
  | 6 => (fp a).lt (fp b)
  | _ => (fp a).le (fp b)

/-- CMP (R87). -/
def execCmp (c : CoreId) (w : IWord) (s : State) : Outcome :=
  issue 0x00 0x14 w none (IWord.isP w.dst && decide (w.imm.toNat < 8))
    (.p w.dst.toNat :: sRegs [w.src1, w.src2]) c.val
    (fun s => let k := s.core c.val
      .ok (s.setCore c.val (k.setP w.dst.toNat (condition w.imm.toNat (k.getS w.src1) (k.getS w.src2))))) s

/-- CMPI (R87). -/
def execCmpi (c : CoreId) (w : IWord) (s : State) : Outcome :=
  issue 0x00 0x15 w none (IWord.isP w.dst && decide (w.src2.toNat < 8))
    (.p w.dst.toNat :: sRegs [w.src1]) c.val
    (fun s => let k := s.core c.val
      .ok (s.setCore c.val (k.setP w.dst.toNat (condition w.src2.toNat (k.getS w.src1) (simm w))))) s

/-- SEL (R87). -/
def execSel (c : CoreId) (w : IWord) (s : State) : Outcome :=
  issue 0x00 0x16 w none (decide (w.imm.toNat < 8))
    (.p w.imm.toNat :: sRegs [w.dst, w.src1, w.src2]) c.val
    (fun s => let k := s.core c.val
      setDst s c.val w (if k.getP w.imm.toNat then k.getS w.src1 else k.getS w.src2)) s

/-- The operations of PLG. -/
def predOp (op : Nat) (a b : Bool) : Bool :=
  match op % 4 with
  | 0 => a && b
  | 1 => a || b
  | 2 => a != b
  | _ => a && !b

/-- PLG (R87). -/
def execPlg (c : CoreId) (w : IWord) (s : State) : Outcome :=
  issue 0x00 0x17 w none
    (IWord.isP w.dst && IWord.isP w.src1 && IWord.isP w.src2 && decide (w.imm.toNat < 4))
    [.p w.dst.toNat, .p w.src1.toNat, .p w.src2.toNat] c.val
    (fun s => let k := s.core c.val
      .ok (s.setCore c.val (k.setP w.dst.toNat
        (predOp w.imm.toNat (k.getP w.src1.toNat) (k.getP w.src2.toNat))))) s

/-- FADD (R87). -/
def execFadd (c : CoreId) (w : IWord) (s : State) : Outcome :=
  alu2 0x18 c w (fun a b => fpRes ((fp a).add (fp b))) s

/-- FSUB (R87). -/
def execFsub (c : CoreId) (w : IWord) (s : State) : Outcome :=
  alu2 0x19 c w (fun a b => fpRes ((fp a).sub (fp b))) s

/-- FMUL (R87). -/
def execFmul (c : CoreId) (w : IWord) (s : State) : Outcome :=
  alu2 0x1A c w (fun a b => fpRes ((fp a).mul (fp b))) s

/-- FMA (R87): rounded once. -/
def execFma (c : CoreId) (w : IWord) (s : State) : Outcome :=
  issue 0x00 0x1B w none (w.imm == 0) (sRegs [w.dst, w.src1, w.src2]) c.val
    (fun s => let k := s.core c.val
      setDst s c.val w (fpRes ((fp (k.getS w.dst)).add ((fp (k.getS w.src1)).mul (fp (k.getS w.src2)))))) s

/-- FCI (R87). -/
def execFci (c : CoreId) (w : IWord) (s : State) : Outcome :=
  alu1 0x1C c w (w.imm == 0) (fun a => fpRes (.ofInt a.toInt)) s

/-- A signed 64-bit integer from FP32, toward zero, saturating; NaN gives zero (R87). -/
def fpToInt (v : FVal) : DWord :=
  match v with
  | .nan => 0
  | .inf true => BitVec.ofInt 64 (-2 ^ 63)
  | .inf false => BitVec.ofInt 64 (2 ^ 63 - 1)
  | v => BitVec.ofInt 64 (max (-2 ^ 63) (min (2 ^ 63 - 1) v.trunc))

/-- FCF (R87). -/
def execFcf (c : CoreId) (w : IWord) (s : State) : Outcome :=
  alu1 0x1D c w (w.imm == 0) (fun a => fpToInt (fp a)) s

/-! ### Class 0x01 -/

/-- Target of a branch: a word offset from the branch's own address. -/
def target (k : Core) (w : IWord) : BitVec 57 := k.pc + (simm w).setWidth 57 * 8

/-- BR (R88). -/
def execBr (c : CoreId) (w : IWord) (s : State) : Outcome :=
  issue 0x01 0x00 w none (w.dst == 0 && w.src1 == 0 && w.src2 == 0) [] c.val
    (fun s => .jump s (target (s.core c.val) w)) s

/-- A branch on the predicate SRC1. -/
def branchIf (func : Nat) (want : Bool) (c : CoreId) (w : IWord) (s : State) : Outcome :=
  issue 0x01 func w none (w.dst == 0 && IWord.isP w.src1 && w.src2 == 0) [.p w.src1.toNat] c.val
    (fun s => if (s.core c.val).getP w.src1.toNat == want then .jump s (target (s.core c.val) w) else .ok s) s

/-- BRT (R88). -/
def execBrt (c : CoreId) (w : IWord) (s : State) : Outcome := branchIf 0x01 true c w s

/-- BRF (R88). -/
def execBrf (c : CoreId) (w : IWord) (s : State) : Outcome := branchIf 0x02 false c w s

/-- Return address of BAL and JAL. -/
def link (k : Core) : DWord := (k.pc + 8).setWidth 64

/-- BAL (R88). -/
def execBal (c : CoreId) (w : IWord) (s : State) : Outcome :=
  issue 0x01 0x03 w none (w.src1 == 0 && w.src2 == 0) (sRegs [w.dst]) c.val
    (fun s => let k := s.core c.val
      .jump (s.setCore c.val (k.setS w.dst (link k))) (target k w)) s

/-- JR and JAL go to the VA in s(SRC1) when it is a multiple of 8 (R88). DESIGN CHOICE (log entry 15): the PC takes
bits [56:0], whatever bits [63:57] hold. -/
def jumpTo (s : State) (p : Nat) (w : IWord) (t : State) : Res :=
  let v := (s.core p).getS w.src1
  if v.toNat % 8 ≠ 0 then .bad s .align else .jump t (v.setWidth 57)

/-- JR (R88). -/
def execJr (c : CoreId) (w : IWord) (s : State) : Outcome :=
  issue 0x01 0x04 w none (w.dst == 0 && w.src2 == 0 && w.imm == 0) (sRegs [w.src1]) c.val
    (fun s => jumpTo s c.val w s) s

/-- JAL (R88). -/
def execJal (c : CoreId) (w : IWord) (s : State) : Outcome :=
  issue 0x01 0x05 w none (w.src2 == 0 && w.imm == 0) (sRegs [w.dst, w.src1]) c.val
    (fun s => jumpTo s c.val w (s.modCore c.val fun k => k.setS w.dst (link k))) s

/-- DBN (R88). -/
def execDbn (c : CoreId) (w : IWord) (s : State) : Outcome :=
  issue 0x01 0x06 w none (w.src1 == 0 && w.src2 == 0) (sRegs [w.dst]) c.val
    (fun s =>
      let k := s.core c.val
      let v := k.getS w.dst - 1
      let t := s.setCore c.val (k.setS w.dst v)
      if v ≠ 0 then .jump t (target k w) else .ok t) s

end Sys2Proof.Machine
end

