-- ==== Sys2Proof/Machine/Memory.lean ====
section
/-!
DEFINITION. Scalar loads, stores and atomics, class 0x02 (R89, R90, R286, R287, R292), descriptor loads and
stores (R68), the parameter slots of LDP and TLP (R85, R86), and the events that end their accesses.
-/

namespace Sys2Proof.Machine

/-- Device address s(SRC1) + sign-extended IMM, a 57-bit VA (log entry 15). -/
def devAddr (k : Core) (w : IWord) : Nat := (k.getS w.src1 + simm w).toNat % 2 ^ 57

/-- Scratchpad offset s(SRC1) + sign-extended IMM. -/
def padAddr (k : Core) (w : IWord) : Nat := (k.getS w.src1 + simm w).toNat

/-- The low bytes of a register. -/
def lowBytes (v : DWord) (n : Nat) : List Byte := leBytes n v.toNat

/-- A loaded value, zero- or sign-extended. -/
def extend (bs : List Byte) (signed : Bool) : DWord :=
  let v := leNat bs
  let n := 8 * bs.length
  if signed ∧ 2 ^ (n - 1) ≤ v then BitVec.ofNat 64 (v + 2 ^ 64 - 2 ^ n) else BitVec.ofNat 64 v

namespace State

/-! ### Translation of a control core's access (R494) -/

/-- Translate an access through the TLB; on a miss the core waits for a walk. -/
def withLeaf (s : State) (p cls func : Nat) (w : IWord) (va : Nat) (write : Bool)
    (k : State → Place → Res) : Res :=
  let ctx := (s.core p).ctx
  let walk := Res.keep ((s.modCore p fun c => { c with
    stall := some ⟨cls, func, w, va, write, s.epoch ctx, none, false, s.ticks⟩ }).missed (.core p))
  if !s.ctxOn ctx then .bad s .notMapped
  else match s.tlbHit p ctx va with
    | some l => if write && !l.wr then walk else k (s.tlbTouch p ctx va) (s.place l va)
    | none => walk

/-! ### The data cache (R292) -/

/-- Bytes that the data cache holds of a local range. -/
def dcacheHit (s : State) (p a n : Nat) : Option (List Byte) :=
  ((s.core p).dcache.find? fun d => d.pa == a / 64 * 64).map fun d => (d.data.drop (a % 64)).take n

/-- A store updates a line that is present, and a line that a pending load will fill. -/
def dcacheStore (c : Core) (a : Nat) (bs : List Byte) : Core :=
  let upd := fun (l : List Byte) => l.take (a % 64) ++ bs ++ l.drop (a % 64 + bs.length)
  { c with
    dcache := c.dcache.map fun d => if d.pa = a / 64 * 64 then { d with data := upd d.data } else d
    loads := c.loads.map fun l => match l.fill with
      | some (va, pa, ds) => if pa = a / 64 * 64 then { l with fill := some (va, pa, upd ds) } else l
      | none => l }

/-- An atomic or ACQ discards a line that is present. -/
def dcacheDrop (c : Core) (a : Nat) : Core :=
  { c with
    dcache := c.dcache.filter fun d => d.pa != a / 64 * 64
    loads := c.loads.map fun l => match l.fill with
      | some (_, pa, _) => if pa = a / 64 * 64 then { l with fill := none } else l
      | none => l }

/-- Discard the whole data cache. -/
def dcacheClear (c : Core) : Core :=
  { c with dcache := [], loads := c.loads.map fun l => { l with fill := none } }

/-- Discard the lines that overlap a range of VAs (INV). -/
def dcacheInv (c : Core) (va n : Nat) : Core :=
  let out := fun (x : Nat) => rangesMeet (x, 64) (va, n)
  { c with
    dcache := c.dcache.filter fun d => !out d.va
    loads := c.loads.map fun l => match l.fill with
      | some (x, _, _) => if out x then { l with fill := none } else l
      | none => l }

/-! ### Order (R286) -/

/-- A load that has not been performed yet. -/
def loadUnperformed (s : State) (p : Nat) : Bool := (s.core p).loads.any fun l => l.data.isNone

/-- A store of the core to a granule of another module or of the host that is not complete. -/
def storeOpen (s : State) (p : Nat) (pl : Place) (n : Nat) : Bool :=
  match pl with
  | .remote node a => s.txns.any fun kv => kv.2.owner == .store p && kv.2.pkt.dst == node &&
      rangesMeet (kv.2.pkt.addr / 64 * 64, 64) (a, n)
  | .host h => s.hostWaits.any fun x => x.owner == .store p && rangesMeet (x.addr / 64 * 64, 64) (h, n)
  | _ => false

/-- Every store and atomic of a core is complete (R283, R289). -/
def storesDone (s : State) (p : Nat) : Bool :=
  !(s.txns.any fun kv => kv.2.owner == .store p) && !(s.hostWaits.any fun x => x.owner == .store p)

/-! ### Loads -/

/-- A pending load that writes its register when LOAD_DATA_RETURN comes. -/
def pend (s : State) (p cls func : Nat) (kind : LoadKind) (reg : List RegRef) (data : Option (List Byte))
    (tag : Option Nat) (fill : Option (Nat × Nat × List Byte)) (va : Nat) : State :=
  s.modCore p fun c => { c with
    busy := reg ++ c.busy
    loads := c.loads ++ [⟨kind, c.pc, cls, func, data, false, tag, fill, c.ctx, s.epoch c.ctx, va⟩] }

/-- Put a load's bytes into its register. -/
def loadReg (c : Core) : LoadKind → List Byte → Core
  | .scalar d _ signed, bs => c.setS (BitVec.ofNat 6 d) (extend bs signed)
  | .desc d, bs => c.setT d (BitVec.ofNat 256 (leNat bs))
  | .slot false d got _ _ _, _ => c.setS (BitVec.ofNat 6 d) (got.headD 0)
  | .slot true d got _ _ _, _ =>
    c.setT d (BitVec.ofNat 256 (leNat (got.flatMap fun v => lowBytes v 8)))

/-- A load of device memory: a data-cache hit answers at once, every other read answers at
LOAD_DATA_RETURN. Reads of poisoned data are rejected (R89). -/
def load (s : State) (p cls func : Nat) (w : IWord) (kind : LoadKind) (reg : List RegRef) (n va : Nat) : Res :=
  s.withLeaf p cls func w va false fun s pl =>
    if s.loadUnperformed p || s.storeOpen p pl n then .held []
    else match pl with
    | .bad => .bad s .range
    | .cis a =>
      if !s.mayTouch (s.core p).ctx a n then .bad s.protEvt .protection
      else match s.dcacheHit p a n with
        | some bs => .ok (s.modCore p fun c => loadReg c kind bs)
        | none =>
          let (bs, bad) := s.cisRead a n
          if bad then .bad s .poison (some va)
          else
            let line := (s.cisRead (a / 64 * 64) 64).1
            .ok (s.pend p cls func kind reg (some bs) none (some (va / 64 * 64, a / 64 * 64, line)) va)
    | .host h =>
      if !s.hostOpen (s.core p).ctx then .held []
      else
        let (bs, s) := s.hostRead (s.core p).ctx h n
        .ok (s.pend p cls func kind reg (some bs) none none va)
    | .remote node a =>
      match s.request (.load p) (s.core p).ctx va (State.readPkt node a n) with
      | .waits => .held []
      | .undeliverable s => .bad s .link
      | .sent t s => .ok (s.pend p cls func kind reg none (some t) none va)

/-! ### Stores and atomics -/

/-- A store of device memory. -/
def storeDev (s : State) (p cls func : Nat) (w : IWord) (va : Nat) (bs : List Byte) : Res :=
  s.withLeaf p cls func w va true fun s pl =>
    let ctx := (s.core p).ctx
    let n := bs.length
    if s.storeOpen p pl n then .held []
    else match pl with
    | .bad => .bad s .range
    | .cis a =>
      if !s.mayTouch ctx a n then .bad s.protEvt .protection
      else .ok ((s.cisWrite a bs).modCore p fun c => dcacheStore c a bs)
    | .host h =>
      if !s.egressOk ctx 0 h n then .bad s.protEvt .protection
      else .ok (s.hostWrite (s.homePort ctx) (.store p) ctx va h bs)
    | .remote node a =>
      if !s.egressOk ctx 1 (node * 2 ^ 44 + a) n then .bad s.protEvt .protection
      else match s.request (.store p) ctx va (State.writePkt node a bs) with
      | .waits => .held []
      | .undeliverable s => .bad s .link
      | .sent _ s => .ok s

/-- An atomic (R90): performed in this module's cistern at once; s(DST) takes the old value when it
returns. -/
def atomic (s : State) (p cls func : Nat) (w : IWord) (va : Nat) (f : DWord → DWord) : Res :=
  s.withLeaf p cls func w va true fun s pl =>
    match pl with
    | .cis a =>
      if s.loadUnperformed p then .held []
      else if !s.mayTouch (s.core p).ctx a 8 then .bad s.protEvt .protection
      else
        let (bs, bad) := s.cisRead a 8
        if bad then .bad s .poison (some va)
        else
          let s := (s.cisWrite a (lowBytes (f (BitVec.ofNat 64 (leNat bs))) 8)).modCore p fun c => dcacheDrop c a
          .ok (s.pend p cls func (.scalar w.dst.toNat 8 false) [.s w.dst.toNat] (some bs) none none va)
    | _ => .bad s .range

end State

open State

/-! ### The instructions' own operations -/

/-- Class 0x02 and the device forms of class 0x03, from the address check on. A core that waited for its
translation runs this again (R494). -/
def memBody (cls func : Nat) (w : IWord) (p : Nat) (s : State) : Res :=
  let k := s.core p
  let va := devAddr k w
  if cls = 0x03 then
    if va % 32 ≠ 0 then .bad s .align
    else if func = 0x00 then s.load p cls func w (.desc w.dst.toNat) [.t w.dst.toNat] 32 va
    else s.storeDev p cls func w va (leBytes 32 (k.getT w.src2.toNat).toNat)
  else if func < 0x08 then
    let n := 2 ^ (func % 4)
    if va % n ≠ 0 then .bad s .align
    else s.load p cls func w (.scalar w.dst.toNat n (decide (4 ≤ func))) [.s w.dst.toNat] n va
  else if func < 0x10 then
    let n := 2 ^ (func % 4)
    if va % n ≠ 0 then .bad s .align
    else s.storeDev p cls func w va (lowBytes (k.getS w.src2) n)
  else
    if va % 8 ≠ 0 then .bad s .align
    else
      let b := k.getS w.src2
      let d := k.getS w.dst
      s.atomic p cls func w va fun old =>
        if func = 0x20 then old + b else if func = 0x21 then (if old = d then b else old) else b

/-- A load. -/
def loadInstr (func : Nat) (c : CoreId) (w : IWord) (s : State) : Outcome :=
  issue 0x02 func w none (w.src2 == 0) (sRegs [w.dst, w.src1]) c.val (memBody 0x02 func w c.val) s

/-- A store. -/
def storeInstr (func : Nat) (c : CoreId) (w : IWord) (s : State) : Outcome :=
  issue 0x02 func w none (w.dst == 0) (sRegs [w.src1, w.src2]) c.val (memBody 0x02 func w c.val) s

/-- An atomic. -/
def atomicInstr (func : Nat) (c : CoreId) (w : IWord) (s : State) : Outcome :=
  issue 0x02 func w none true (sRegs [w.dst, w.src1, w.src2]) c.val (memBody 0x02 func w c.val) s

/-- LDB (R89). -/
def execLdb (c : CoreId) (w : IWord) (s : State) : Outcome := loadInstr 0x00 c w s
/-- LDH (R89). -/
def execLdh (c : CoreId) (w : IWord) (s : State) : Outcome := loadInstr 0x01 c w s
/-- LDW (R89). -/
def execLdw (c : CoreId) (w : IWord) (s : State) : Outcome := loadInstr 0x02 c w s
/-- LDD (R89). -/
def execLdd (c : CoreId) (w : IWord) (s : State) : Outcome := loadInstr 0x03 c w s
/-- LXB (R89). -/
def execLxb (c : CoreId) (w : IWord) (s : State) : Outcome := loadInstr 0x04 c w s
/-- LXH (R89). -/
def execLxh (c : CoreId) (w : IWord) (s : State) : Outcome := loadInstr 0x05 c w s
/-- LXW (R89). -/
def execLxw (c : CoreId) (w : IWord) (s : State) : Outcome := loadInstr 0x06 c w s
/-- STB (R89). -/
def execStb (c : CoreId) (w : IWord) (s : State) : Outcome := storeInstr 0x08 c w s
/-- STH (R89). -/
def execSth (c : CoreId) (w : IWord) (s : State) : Outcome := storeInstr 0x09 c w s
/-- STW (R89). -/
def execStw (c : CoreId) (w : IWord) (s : State) : Outcome := storeInstr 0x0A c w s
/-- STD (R89). -/
def execStd (c : CoreId) (w : IWord) (s : State) : Outcome := storeInstr 0x0B c w s
/-- AAD (R90). -/
def execAad (c : CoreId) (w : IWord) (s : State) : Outcome := atomicInstr 0x20 c w s
/-- ACS (R90). -/
def execAcs (c : CoreId) (w : IWord) (s : State) : Outcome := atomicInstr 0x21 c w s
/-- ASW (R90). -/
def execAsw (c : CoreId) (w : IWord) (s : State) : Outcome := atomicInstr 0x22 c w s

/-- A scalar read of scratchpad: alignment, range, order (R287), poison (R418). -/
def padLoad (p a n : Nat) (put : Core → List Byte → Core) (s : State) : Res :=
  if a % n ≠ 0 then .bad s .align
  else if 2 ^ 20 < a + n then .bad s .range
  else if !(s.padReadWaits p a n).isEmpty then .held (s.padReadWaits p a n)
  else if (s.padRead p a n).2 then .bad s .poison (some a)
  else .ok (s.modCore p fun c => put c (s.padRead p a n).1)

/-- A scalar write of scratchpad. -/
def padStore (p a : Nat) (bs : List Byte) (s : State) : Res :=
  if a % bs.length ≠ 0 then .bad s .align
  else if 2 ^ 20 < a + bs.length then .bad s .range
  else if !(s.padWriteWaits p a bs.length).isEmpty then .held (s.padWriteWaits p a bs.length)
  else .ok (s.padWrite p a bs)

/-- A scratchpad load of a size. -/
def lsInstr (func n : Nat) (c : CoreId) (w : IWord) (s : State) : Outcome :=
  issue 0x02 func w none (w.src2 == 0) (sRegs [w.dst, w.src1]) c.val
    (fun s => padLoad c.val (padAddr (s.core c.val) w) n (fun k bs => k.setS w.dst (extend bs false)) s) s

/-- A scratchpad store of a size. -/
def ssInstr (func n : Nat) (c : CoreId) (w : IWord) (s : State) : Outcome :=
  issue 0x02 func w none (w.dst == 0) (sRegs [w.src1, w.src2]) c.val
    (fun s => padStore c.val (padAddr (s.core c.val) w) (lowBytes ((s.core c.val).getS w.src2) n) s) s

/-- LSW (R287). -/
def execLsw (c : CoreId) (w : IWord) (s : State) : Outcome := lsInstr 0x10 4 c w s
/-- LSD (R287). -/
def execLsd (c : CoreId) (w : IWord) (s : State) : Outcome := lsInstr 0x11 8 c w s
/-- SSW (R287). -/
def execSsw (c : CoreId) (w : IWord) (s : State) : Outcome := ssInstr 0x18 4 c w s
/-- SSD (R287). -/
def execSsd (c : CoreId) (w : IWord) (s : State) : Outcome := ssInstr 0x19 8 c w s

/-- INV (R292). -/
def execInv (c : CoreId) (w : IWord) (s : State) : Outcome :=
  issue 0x02 0x28 w none (w.dst == 0 && w.imm == 0) (sRegs [w.src1, w.src2]) c.val
    (fun s => let k := s.core c.val
      .ok (s.setCore c.val (dcacheInv k ((k.getS w.src1).toNat % 2 ^ 57) (k.getS w.src2).toNat))) s

/-- INA (R292). -/
def execIna (c : CoreId) (w : IWord) (s : State) : Outcome :=
  issue 0x02 0x29 w none (w.dst == 0 && w.src1 == 0 && w.src2 == 0 && w.imm == 0) [] c.val
    (fun s => .ok (s.modCore c.val dcacheClear)) s

/-- TLD (R68). -/
def execTld (c : CoreId) (w : IWord) (s : State) : Outcome :=
  issue 0x03 0x00 w none (IWord.isT w.dst && w.src2 == 0) [.t w.dst.toNat, .s w.src1.toNat] c.val
    (memBody 0x03 0x00 w c.val) s

/-- TLS (R68). -/
def execTls (c : CoreId) (w : IWord) (s : State) : Outcome :=
  issue 0x03 0x01 w none (IWord.isT w.dst && w.src2 == 0) [.t w.dst.toNat, .s w.src1.toNat] c.val
    (fun s => padLoad c.val (padAddr (s.core c.val) w) 32
      (fun k bs => k.setT w.dst.toNat (BitVec.ofNat 256 (leNat bs))) s) s

/-- TST (R68). -/
def execTst (c : CoreId) (w : IWord) (s : State) : Outcome :=
  issue 0x03 0x02 w none (w.dst == 0 && IWord.isT w.src2) [.s w.src1.toNat, .t w.src2.toNat] c.val
    (memBody 0x03 0x02 w c.val) s

/-- TSS (R68). -/
def execTss (c : CoreId) (w : IWord) (s : State) : Outcome :=
  issue 0x03 0x03 w none (w.dst == 0 && IWord.isT w.src2) [.s w.src1.toNat, .t w.src2.toNat] c.val
    (fun s => padStore c.val (padAddr (s.core c.val) w)
      (leBytes 32 ((s.core c.val).getT w.src2.toNat).toNat) s) s

/-! ### Parameter slots -/

/-- What the read of one word of a slot answers. -/
inductive SlotAns where
  | value (v : DWord)
  /-- A code, with the address read. -/
  | err (c : Code) (va : Nat)
  /-- A request to another module, by its tag. -/
  | asked (tag : Nat)
  /-- The read cannot be made yet. -/
  | later

/-- Read 8 bytes for a slot (R340, R86), ordered like a load (R85, R286): at once from cistern or host memory, or
by a request whose tag is answered. -/
def slotRead (s : State) (p va : Nat) : SlotAns × State :=
  let ctx := (s.core p).ctx
  match s.xlateNow p ctx va false with
  | (.error c, s) => (.err c va, s)
  | (.ok l, s) =>
    if s.storeOpen p (s.place l va) 8 then (.later, s)
    else match s.place l va with
    | .bad => (.err .range va, s)
    | .cis a =>
      if !s.mayTouch ctx a 8 then (.err .protection va, s.protEvt)
      else if (s.cisRead a 8).2 then (.err .poison va, s)
      else (.value (BitVec.ofNat 64 (leNat (s.cisRead a 8).1)), s)
    | .host h =>
      if !s.hostOpen ctx then (.later, s)
      else
        let (bs, s) := s.hostRead ctx h 8
        (.value (BitVec.ofNat 64 (leNat bs)), s)
    | .remote node a =>
      match s.request (.load p) ctx va (State.readPkt node a 8) with
      | .waits => (.later, s)
      | .undeliverable s => (.err .link va, s)
      | .sent t s => (.asked t, s)

/-- The 8 bytes at the address that an indirect slot yields (R340). -/
def slotPoint (s : State) (p : Nat) (v : DWord) : SlotAns × State := slotRead s p (v.toNat % 2 ^ 57 / 8 * 8)

/-- The 64-bit value that a slot yields (R85, R340), with whether what is awaited is an indirect slot's value. -/
def slotValue (s : State) (p param ind i : Nat) : SlotAns × Bool × State :=
  match slotRead s p (param + 64 + 8 * i) with
  | (.value v, s) =>
    if ind.testBit i then (slotPoint s p v).1 |> fun a => (a, true, (slotPoint s p v).2) else (.value v, false, s)
  | (a, s) => (a, false, s)

/-- Of two codes that slots met, the one that R76 reports. -/
def worse : Option (Code × Nat) → Code → Nat → Option (Code × Nat)
  | none, c, va => some (c, va)
  | some x, c, va => if c.rank < x.1.rank then some (c, va) else some x

/-- How the resolution of slots goes on. -/
inductive SlotRun where
  /-- Every slot has been read: their values, and the code that R76 reports when one met a code. -/
  | done (vs : List DWord) (err : Option (Code × Nat))
  /-- A slot waits for the answer of a request, or, with no tag, for its read to be made. -/
  | waits (tag : Option Nat) (got : List DWord) (left : List Nat) (indirect : Bool) (err : Option (Code × Nat))

/-- Resolve slots in order (R85, R340). -/
def slotRun (s : State) (p param ind : Nat) (got : List DWord) (err : Option (Code × Nat)) :
    List Nat → SlotRun × State
  | [] => (.done got err, s)
  | i :: rest =>
    match slotValue s p param ind i with
    | (.value v, _, s) => slotRun s p param ind (got ++ [v]) err rest
    | (.err c va, _, s) => slotRun s p param ind (got ++ [0]) (worse err c va) rest
    | (.asked t, at_, s) => (.waits (some t) got (i :: rest) at_ err, s)
    | (.later, _, s) => (.waits none got (i :: rest) false err, s)

/-- COUNT of the launch's parameter block, read once at launch start (R339). -/
def paramCount (x : Launch) : Nat := x.count

/-- The register that LDP or TLP writes. -/
def slotReg (tlp : Bool) (dst : Nat) : RegRef := if tlp then .t dst else .s dst

/-- LDP and TLP: slots `n` to `n + k - 1` (R86). They are read once every earlier load is performed (R85, R286), and
the instruction issues, or is rejected, when all of them have answered. -/
def slotBody (p n k cls func : Nat) (tlp : Bool) (dst : Nat) (s : State) : Res :=
  match s.launchOf p with
  | none => .held []
  | some (_, x) =>
    if 256 < n + k ∨ paramCount x < n + k then .bad s .range
    else if s.loadUnperformed p then .held []
    else match slotRun s p x.param x.ind [] none ((List.range k).map (· + n)) with
      | (.done _ (some (c, va)), s) => .bad s c (if c = .poison then some va else none)
      | (.done vs none, s) => .ok (s.modCore p fun c => loadReg c (.slot tlp dst vs [] false none) [])
      | (.waits t got left ind err, s) =>
        .keep (s.pend p cls func (.slot tlp dst got left ind err) [slotReg tlp dst] none t none
          (x.param + 64 + 8 * n))

/-- LDP (R86). -/
def execLdp (c : CoreId) (w : IWord) (s : State) : Outcome :=
  issue 0x00 0x13 w none (w.src1 == 0 && w.src2 == 0 && decide (w.imm.toNat < 256)) (sRegs [w.dst]) c.val
    (slotBody c.val w.imm.toNat 1 0x00 0x13 false w.dst.toNat) s

/-- TLP (R86). -/
def execTlp (c : CoreId) (w : IWord) (s : State) : Outcome :=
  issue 0x03 0x08 w none (IWord.isT w.dst && w.src1 == 0 && w.src2 == 0 && decide (w.imm.toNat < 256))
    [.t w.dst.toNat] c.val
    (slotBody c.val w.imm.toNat 4 0x03 0x08 true w.dst.toNat) s

/-! ### Events -/

/-- Give a returned load its register: the interlock ends and its line enters the data cache, the oldest of
512 leaving (R81, R292; log entry 16). -/
def loadDone (c : Core) (l : PendLoad) (bs : List Byte) : Core :=
  let c := loadReg c l.kind bs
  let c := match l.kind with
    | .scalar d _ _ => c.freeBusy (.s d)
    | .desc d => c.freeBusy (.t d)
    | .slot tlp d .. => c.freeBusy (slotReg tlp d)
  match l.fill with
  | some (va, pa, ds) => { c with dcache := (⟨va, pa, ds⟩ :: c.dcache.filter fun d => d.pa != pa).take 512 }
  | none => c

/-- What follows a step of the resolution of slots: LDP or TLP issues with its register written, is rejected, or
goes on waiting. -/
def slotNext (p : Nat) (l : PendLoad) (tlp : Bool) (dst : Nat) : SlotRun × State → State
  | (.done _ (some (c, va)), s) => s.faultCore p l.cls l.func l.pc c (if c = .poison then some va else none)
  | (.done vs none, s) =>
    (s.modCore p fun c => loadDone c { l with kind := .slot tlp dst vs [] false none } []).retire p (l.pc + 8)
  | (.waits t got left ind err, s) => s.modCore p fun c => { c with
      loads := { l with
        kind := .slot tlp dst got left ind err
        data := none
        poison := false
        tag := t
        epoch := s.epoch l.ctx } :: c.loads }

/-- A slot's awaited bytes have come, or its read is tried again: the resolution goes on. -/
def slotMore (s : State) (p : Nat) (l : PendLoad) : State :=
  match l.kind, s.launchOf p with
  | .slot tlp dst got left ind err, some (_, x) =>
    slotNext p l tlp dst <|
      match l.data, left with
      | some bs, i :: rest =>
        let v := BitVec.ofNat 64 (leNat bs)
        if l.poison then slotRun s p x.param x.ind (got ++ [0]) (worse err .poison l.va) rest
        else if x.ind.testBit i && !ind then
          match slotPoint s p v with
          | (.value v, s) => slotRun s p x.param x.ind (got ++ [v]) err rest
          | (.err c va, s) => slotRun s p x.param x.ind (got ++ [0]) (worse err c va) rest
          | (.asked t, s) => (.waits (some t) got left true err, s)
          | (.later, s) => (.waits none got left false err, s)
        else slotRun s p x.param x.ind (got ++ [v]) err rest
      | _, _ => slotRun s p x.param x.ind got err left
  | _, _ => s

/-- A slot's request ends with a code (R86): the other slots are still read, and R76 chooses the code. -/
def slotFailed (c : Core) (t : Nat) (code : Code) : Core :=
  { c with
    loads := c.loads.map fun l => match l.kind with
      | .slot tlp dst got (_ :: rest) _ err =>
        if l.tag = some t then
          { l with
            kind := .slot tlp dst (got ++ [0]) rest false (worse err code l.va)
            data := none
            tag := none }
        else l
      | _ => l }

/-- LOAD_DATA_RETURN (R286): the data of the core's oldest performed load returns. -/
def execLoadDataReturn (c : CoreId) (s : State) : Outcome :=
  match (s.core c.val).loads.find? fun l => l.data.isSome || (l.kind.isSlot && l.tag.isNone) with
  | none => .next s
  | some l =>
    let s := s.modCore c.val fun k => { k with loads := k.loads.erase l }
    match l.kind with
    | .slot .. => .next (slotMore s c.val l)
    | _ =>
      if l.poison then .next (s.faultCore c.val l.cls l.func l.pc .poison (some l.va))
      else .next (s.modCore c.val fun k => loadDone k l (l.data.getD []))

/-- Run the instruction that a core's translation held again from its start (R494). -/
def reissue (s : State) (p : Nat) (x : Stall) : State :=
  let s := s.modCore p fun c => { c with stall := none }
  s.finish p x.cls x.func none (memBody x.cls x.func x.w p s)

/-- CORE_HALT_REEXECUTE (R494): the halted core runs its instruction again once its record is complete. -/
def execCoreHaltReexecute (c : CoreId) (s : State) : Outcome :=
  match (s.core c.val).stall with
  | some x => if x.ready ∧ (s.core c.val).stop.isNone then .next (reissue s c.val x) else .next s
  | none => .next s

end Sys2Proof.Machine
end

