-- ==== Sys2Proof/Machine/Sync.lean ====
section
/-!
DEFINITION. Synchronisation, class 0x08, and FEN (R289, R294 to R301): releases, acquires, semaphores,
arrival counters and barriers, with the events that end their waits.
-/

namespace Sys2Proof.Machine

namespace State

/-! ### Completion of earlier accesses -/

/-- No LKU of the core is outstanding (R196, R289). -/
def addsDone (s : State) (p : Nat) : Bool := !((s.core p).jobs.any fun j => j.cls == 7 && j.func == 1)

/-- FEN's condition (R289). -/
def fenReady (s : State) (p : Nat) : Bool := s.storesDone p && s.addsDone p

/-- A release's condition (R296): loads, stores and atomics, DMA, LKP and LKU are complete. -/
def releaseReady (s : State) (p : Nat) : Bool :=
  (s.core p).loads.isEmpty && s.storesDone p &&
    !((s.core p).jobs.any fun j => j.cls == 7 || (j.cls == 6 && j.func == 0))

/-- Jobs that a release waits on. -/
def releaseJobs (s : State) (p : Nat) : List Nat :=
  ((s.core p).jobs.filter fun j => j.cls == 7 || (j.cls == 6 && j.func == 0)).map (·.id)

/-- Begin a wait: the core shows WAITING (R82). -/
def beginWait (s : State) (p : Nat) (w : Wait) : State :=
  s.modCore p fun c => { c with run := .waiting, wait := some w }

/-- A wait ends and the core goes on. -/
def endWait (s : State) (p : Nat) : State :=
  (s.modCore p fun c => { c with wait := none }).retire p ((s.core p).pc + 8)

/-- An acquire completes (R297): the register, then the data cache under DCI. -/
def acquire (s : State) (p dst : Nat) (v : DWord) (dci : Bool) : State :=
  s.modCore p fun c =>
    let c := c.setS (BitVec.ofNat 6 dst) v
    if dci then dcacheClear c else c

/-- A class 0x08 instruction that waits is rejected. -/
def failWait (s : State) (p cls func : Nat) (code : Code) (at_ : Option Nat := none) : State :=
  (s.modCore p fun c => { c with wait := none }).faultCore p cls func (s.core p).pc code at_

/-! ### Semaphores -/

/-- The local address of a semaphore (R298, R301). -/
def semaphore (s : State) (p va : Nat) (write : Bool) : Except Code Nat × State :=
  let ctx := (s.core p).ctx
  match s.xlateNow p ctx va write with
  | (.error c, s) => (.error c, s)
  | (.ok l, s) =>
    match s.place l va with
    | .cis a => if s.mayTouch ctx a 8 then (.ok a, s) else (.error .protection, s.protEvt)
    | _ => (.error .range, s)

/-- The 8 bytes at a local address. -/
def word64 (s : State) (a : Nat) : DWord := BitVec.ofNat 64 (leNat (s.cisRead a 8).1)

/-- Place of a WAT with CONSUME that waits on a semaphore, in order (R298). -/
def consumeOrder (c : Core) (a : Nat) : Option Nat :=
  match c.wait with
  | some (.wat _ pa _ true _ _ _ order) => if pa = a ∧ c.stop.isNone then some order else none
  | _ => none

/-- An earlier WAT with CONSUME still waits on a semaphore. -/
def earlierConsumer (s : State) (a order : Nat) : Bool :=
  s.cores.any fun kv => match consumeOrder kv.2 a with
    | some o => decide (o < order)
    | none => false

/-- The condition of a WAT on a semaphore (R294, R298): the threshold, and for CONSUME its turn. -/
def watMet (s : State) (a : Nat) (thr : DWord) (consume : Bool) (order : Nat) : Bool :=
  !((s.word64 a).slt thr) && !(consume && s.earlierConsumer a order)

/-- A WAT whose condition is met: CONSUME subtracts in the same step. -/
def watTake (s : State) (p a : Nat) (thr : DWord) (consume dci : Bool) (dst : Nat) : State :=
  let v := s.word64 a
  let s := if consume then (s.cisWrite a (lowBytes (v - thr) 8)).modCore p fun c => dcacheDrop c a else s
  s.acquire p dst v dci

/-! ### Arrival counters -/

/-- The counter that CWT names, read as unsigned (R299): zero for a closed window. -/
def counter (s : State) (p kind idx : Nat) : Nat :=
  match kind with
  | 0 => if s.flag .dmaWinCfg (4 * p + idx) 31 then s.reg64 .dmaWinLo .dmaWinHi (4 * p + idx) else 0
  | 1 => s.reg64 .rgnCntLo .rgnCntHi idx
  | _ => s.reg64 .cntBytesLo .cntBytesHi idx

/-- Entries of a kind of counter. -/
def counterCount (kind : Nat) : Nat := if kind = 0 then 4 else 256

/-- A region or Turlis counter is assigned to a context (R301). -/
def counterOwned (s : State) (ctx kind idx : Nat) : Bool :=
  match kind with
  | 0 => true
  | 1 => s.fld .rgnCfg idx 6 1 == ctx
  | _ => s.fld .cntCfg idx 6 1 == ctx

/-- SYN_WADDR of a core (R299). -/
def setWaddr (s : State) (p a : Nat) : State := s.modCore p fun c => { c with waddr := a }

end State

open State

/-! ### SIG, REL and the release -/

/-- Perform a SIG's add or a REL's store, or say why it is rejected (R294, R301). -/
def signalBody (p va : Nat) (rel : Bool) (v : DWord) (s : State) : Res :=
  let ctx := (s.core p).ctx
  if !rel then
    match s.semaphore p va true with
    | (.error c, s) => .bad s c (if c = .poison then some va else none)
    | (.ok a, s) =>
      .ok ((s.cisWrite a (lowBytes (s.word64 a + v) 8)).modCore p fun c => dcacheDrop c a)
  else match s.xlateNow p ctx va true with
    | (.error c, s) => .bad s c (if c = .poison then some va else none)
    | (.ok l, s) =>
      match s.place l va with
      | .bad => .bad s .range
      | .cis a =>
        if !s.mayTouch ctx a 8 then .bad s.protEvt .protection
        else .ok ((s.cisWrite a (lowBytes v 8)).modCore p fun c => dcacheStore c a (lowBytes v 8))
      | .host h =>
        if !s.egressOk ctx 0 h 8 then .bad s.protEvt .protection
        else .ok (s.hostWrite (s.homePort ctx) (.store p) ctx va h (lowBytes v 8) false true)
      | .remote node a =>
        if !s.egressOk ctx 1 (node * 2 ^ 44 + a) 8 then .bad s.protEvt .protection
        else match s.request (.store p) ctx va (State.writePkt node a (lowBytes v 8)) with
          | .waits => .held []
          | .undeliverable s => .bad s .link
          | .sent _ s => .ok s

/-- SIG or REL: rejected under R301 before anything waits; performed at once when every earlier access is
complete, and otherwise a wait (R296). -/
def releaseInstr (func : Nat) (rel : Bool) (c : CoreId) (w : IWord) (s : State) : Outcome :=
  issue 0x08 func w none (w.dst == 0 && w.imm == 0) (sRegs [w.src1, w.src2]) c.val
    (fun s =>
      let k := s.core c.val
      let va := (k.getS w.src1).toNat % 2 ^ 57
      let v := k.getS w.src2
      if va % 8 ≠ 0 then .bad s .align
      else match signalBody c.val va rel v s with
        | .bad t e a => .bad t e a
        | r =>
          if s.releaseReady c.val then r
          else if s.askedWay c.val && s.allHalted c.val (s.releaseJobs c.val) then .held (s.releaseJobs c.val)
          else .keep (s.beginWait c.val (.release (if rel then .rel va v else .sig va v)))) s

/-- SIG (R294). -/
def execSig (c : CoreId) (w : IWord) (s : State) : Outcome := releaseInstr 0x00 false c w s

/-- REL (R294). -/
def execRel (c : CoreId) (w : IWord) (s : State) : Outcome := releaseInstr 0x02 true c w s

/-! ### WAT, ACQ, CWT -/

/-- WAT (R298). -/
def execWat (c : CoreId) (w : IWord) (s : State) : Outcome :=
  issue 0x08 0x01 w none (bitsOf w.imm.toNat 15 2 == 0) (.p 7 :: sRegs [w.dst, w.src1, w.src2]) c.val
    (fun s =>
      let k := s.core c.val
      let va := (k.getS w.src1).toNat % 2 ^ 57
      let thr := k.getS w.src2
      let dci := w.imm.getLsbD 0
      let consume := w.imm.getLsbD 1
      let tmo := bitsOf w.imm.toNat 31 16
      if va % 8 ≠ 0 then .bad s .align
      else match s.semaphore c.val va consume with
        | (.error e, s) => .bad s e (if e = .poison then some va else none)
        | (.ok a, s) =>
          if s.cisBad a 8 then .bad s .poison (some va)
          else if s.watMet a thr consume s.nextWatch then
            .ok ((s.watTake c.val a thr consume dci w.dst.toNat).returned c.val .ok)
          else if s.askedWay c.val then .keep (s.stopCore c.val .wat)
          else
            let s' := { s with nextWatch := s.nextWatch + 1 }
            .keep ((s'.setWaddr c.val va).beginWait c.val
              (.wat va a thr consume dci w.dst.toNat tmo s.nextWatch))) s

/-- ACQ (R294, R297): the value is read at its point of performance; ACQUIRE_COMPLETE ends it. -/
def execAcq (c : CoreId) (w : IWord) (s : State) : Outcome :=
  issue 0x08 0x03 w none (w.src2 == 0 && decide (w.imm.toNat < 2)) (sRegs [w.dst, w.src1]) c.val
    (fun s =>
      let k := s.core c.val
      let va := (k.getS w.src1).toNat % 2 ^ 57
      let dci := w.imm.getLsbD 0
      let wait := fun (s : State) (d : Option (DWord × Bool)) (tag : Option Nat) (host : Bool) =>
        Res.keep ((s.setWaddr c.val va).beginWait c.val (.acq va d dci w.dst.toNat tag (s.epoch k.ctx) host))
      if va % 8 ≠ 0 then .bad s .align
      else match s.xlateNow c.val k.ctx va false with
        | (.error e, s) => .bad s e (if e = .poison then some va else none)
        | (.ok l, s) =>
          let pl := s.place l va
          if s.loadUnperformed c.val || s.storeOpen c.val pl 8 then .held []
          else match pl with
          | .bad => .bad s .range
          | .cis a =>
            if !s.mayTouch k.ctx a 8 then .bad s.protEvt .protection
            else if s.cisBad a 8 then .bad s .poison (some va)
            else wait (s.modCore c.val fun k => dcacheDrop k a) (some (s.word64 a, false)) none false
          | .host h =>
            if !s.hostOpen k.ctx then .held []
            else
              let (bs, s) := s.hostRead k.ctx h 8
              wait s (some (BitVec.ofNat 64 (leNat bs), false)) none true
          | .remote node a =>
            match s.request (.acq c.val) k.ctx va (State.readPkt node a 8) with
            | .waits => .held []
            | .undeliverable s => .bad s .link
            | .sent t s => wait s none (some t) false) s

/-- CWT (R299). -/
def execCwt (c : CoreId) (w : IWord) (s : State) : Outcome :=
  issue 0x08 0x04 w none (w.src1 == 0 && !w.imm.getLsbD 3 && bitsOf w.imm.toNat 2 1 != 3)
    (.p 7 :: sRegs [w.dst, w.src2]) c.val
    (fun s =>
      let k := s.core c.val
      let kind := bitsOf w.imm.toNat 2 1
      let idx := bitsOf w.imm.toNat 15 4
      let dci := w.imm.getLsbD 0
      let thr := k.getS w.src2
      let v := s.counter c.val kind idx
      if counterCount kind ≤ idx then .bad s .range
      else if !s.counterOwned k.ctx kind idx then .bad s .protection
      else if kind == 2 && s.fld .cntCfg idx 22 21 == 2 then .bad s .digest
      else if thr.toNat ≤ v then
        .ok ((s.acquire c.val w.dst.toNat (BitVec.ofNat 64 v) dci).returned c.val .ok)
      else if s.askedWay c.val then .keep (s.stopCore c.val .cwt)
      else .keep ((s.setWaddr c.val (kind + 4 * idx)).beginWait c.val
        (.cwt kind idx thr dci w.dst.toNat (bitsOf w.imm.toNat 31 16)))) s

/-! ### BAR -/

/-- A core waits at a barrier at which it has arrived, or has stopped there. -/
def atBar (s : State) (p : Nat) : Bool :=
  match (s.core p).wait with
  | some (.bar _ _ _ true) => true
  | _ => (s.core p).stop == some .bar

/-- A core's barrier wait is over: it takes its acquire and goes on (R300). -/
def barDone (s : State) (p : Nat) : State :=
  let c := s.core p
  match c.wait with
  | some (.bar _ dci _ true) => (if dci then s.modCore p dcacheClear else s).endWait p
  | _ => if c.stop = some .bar then
      (s.modCore p fun c => { dcacheClear c with stop := none }).retire p (c.pc + 8) else s

/-- Arrive at a barrier (R300): STATE when the count differs from the open episode's; the last arrival
closes the episode and every core of it goes on. -/
def arrive (s : State) (p num count : Nat) : Except Code State :=
  match s.launchOf p with
  | none => .ok s
  | some (l, x) =>
    let e := x.barriers.getD num ⟨count, []⟩
    if e.count ≠ count then .error .state
    else
      let arrived := if e.arrived.contains p then e.arrived else e.arrived ++ [p]
      if count ≤ arrived.length then
        -- A resumed core whose arrival was kept goes on when it executes its BAR again.
        let late := arrived.filter fun q => !atBar s q
        .ok (arrived.foldl barDone (s.setLaunch l { x with barriers := x.barriers.erase num, passed := x.passed ++ late }))
      else .ok (s.setLaunch l { x with barriers := x.barriers.set num ⟨count, arrived⟩ })

/-- A core whose earlier stores are complete arrives at its barrier. -/
def barArrive (s : State) (p num count : Nat) (dci : Bool) : State :=
  let s := s.modCore p fun c => { c with run := .waiting, wait := some (.bar num dci count true) }
  match arrive s p num count with
  | .ok s =>
    if (s.core p).wait.isSome ∧ s.askedWay p then
      (s.modCore p fun c => { c with wait := none }).stopCore p .bar
    else s
  | .error e => s.failWait p 0x08 0x05 e

/-- BAR (R300). -/
def execBar (c : CoreId) (w : IWord) (s : State) : Outcome :=
  issue 0x08 0x05 w none (w.dst == 0 && w.src2 == 0 && decide (w.imm.toNat < 32)) (sRegs [w.src1]) c.val
    (fun s =>
      let k := s.core c.val
      let num := w.imm.toNat % 16
      let dci := w.imm.getLsbD 4
      let count := (k.getS w.src1).toNat
      match s.launchOf c.val with
      | none => .held []
      | some (l, x) =>
        if count = 0 ∨ x.cores.length < count then .bad s .range
        else if x.passed.contains c.val then
          .ok (let s := s.setLaunch l { x with passed := setErase x.passed c.val }
            if dci then s.modCore c.val dcacheClear else s)
        else if ((x.barriers.get? num).any fun e => e.count != count) then .bad s .state
        else if s.fenReady c.val then .keep (barArrive s c.val num count dci)
        else .keep (s.beginWait c.val (.bar num dci count false))) s

/-! ### FEN -/

/-- FEN (R289). -/
def execFen (c : CoreId) (w : IWord) (s : State) : Outcome :=
  issue 0x3F 0x06 w none (w.dst == 0 && w.src1 == 0 && w.src2 == 0 && w.imm == 0) [] c.val
    (fun s => if s.fenReady c.val then .ok s else .keep (s.beginWait c.val .fen)) s

/-! ### Events -/

/-- FEN_COMPLETE (R289): the accesses that a FEN, or the FEN part of a BAR, waits on are complete. -/
def execFenComplete (c : CoreId) (s : State) : Outcome :=
  if !s.fenReady c.val then .next s
  else match (s.core c.val).wait with
    | some .fen => .next (s.endWait c.val)
    | some (.bar num dci count false) => .next (barArrive s c.val num count dci)
    | _ => .next s

/-- ACQUIRE_COMPLETE (R297). -/
def execAcquireComplete (c : CoreId) (s : State) : Outcome :=
  match (s.core c.val).wait with
  | some (.acq va (some (v, bad)) dci dst _ _ _) =>
    if bad then .next (s.failWait c.val 0x08 0x03 .poison (some va))
    else .next ((s.acquire c.val dst v dci).endWait c.val)
  | _ => .next s

/-- WAT_WAKE (R298): the semaphore meets the threshold of a waiting WAT whose turn it is. -/
def execWatWake (c : CoreId) (s : State) : Outcome :=
  match (s.core c.val).wait with
  | some (.wat va a thr consume dci dst _ order) =>
    if !s.watMet a thr consume order then .next s
    else if s.cisBad a 8 then .next (s.failWait c.val 0x08 0x01 .poison (some va))
    else .next (((s.watTake c.val a thr consume dci dst).returned c.val .ok).endWait c.val)
  | _ => .next s

/-- CWT_WAKE (R299). -/
def execCwtWake (c : CoreId) (s : State) : Outcome :=
  match (s.core c.val).wait with
  | some (.cwt kind idx thr dci dst _) =>
    let v := s.counter c.val kind idx
    if v < thr.toNat then .next s
    else .next (((s.acquire c.val dst (BitVec.ofNat 64 v) dci).returned c.val .ok).endWait c.val)
  | _ => .next s

/-- WAIT_TIMEOUT (R295): TMO has passed without the condition being met; s(DST) takes the last value seen, and the program sees TIMEOUT. A
QWT sees no value, and its s(DST) is a free value (log entry 1). -/
def execWaitTimeout (c : CoreId) (s : State) : Outcome :=
  let end_ := fun (s : State) (dst : Nat) (v : DWord) =>
    ((s.modCore c.val fun k => k.setS (BitVec.ofNat 6 dst) v).returned c.val .timeout).endWait c.val
  match (s.core c.val).wait with
  | some (.wat _ a thr consume _ dst tmo order) =>
    if tmo = 0 || s.watMet a thr consume order then .next s else .next (end_ (s.bump .synTmo c.val 1) dst (s.word64 a))
  | some (.cwt kind idx thr _ dst tmo) =>
    if tmo = 0 || decide (thr.toNat ≤ s.counter c.val kind idx) then .next s
    else .next (end_ (s.bump .synTmo c.val 1) dst (BitVec.ofNat 64 (s.counter c.val kind idx)))
  | some (.qwt _ _ tmo dst _) =>
    if tmo = 0 then .next s
    else
      let (k, s) := s.draw
      .next (end_ s dst (Config.freeAt k 0))
  | _ => .next s

end Sys2Proof.Machine
end

