-- ==== Sys2Proof/Machine/System.lean ====
section
/-!
DEFINITION. The system class 0x3F (R95 to R97): END, FLT, MFS, MTS, CVT and ICI.
-/

namespace Sys2Proof.Machine

namespace State

/-- Physical core number of core `c` of logical cluster `n`, by GLB_CLMAP (R97). -/
def physCore (s : State) (n c : Nat) : Nat :=
  16 * (37 * s.fld .glbClmap n 7 6 + s.fld .glbClmap n 5 0) + c

/-- Logical cluster of a physical core; 0xFF for a cluster that bears no logical number. -/
def logicalOf (s : State) (p : Nat) : Nat :=
  ((List.range 144).find? fun n => s.physCore n 0 == p / 16 * 16).getD 0xFF

/-- CORE_ID (R97). -/
def coreId (s : State) (p : Nat) : Nat :=
  p + 2 ^ 12 * s.logicalOf p + 2 ^ 20 * (p % 16) + 2 ^ 24 * (p / 592)

/-- A register of the NUM set by word index, as a read gives it (R97); NUM_CLEAR is write-only. -/
def numReg (s : State) (p i : Nat) : Nat :=
  match i with
  | 0 => (s.reg .numSticky p).toNat
  | 4 => (s.reg .numSatTotal p).toNat
  | 6 => (s.reg .numSeedLo p).toNat
  | 7 => (s.reg .numSeedHi p).toNat
  | 8 => (s.reg .numLast p).toNat
  | _ => 0

/-- A system register (R97). -/
def sysReg (s : State) (p i : Nat) : Option Nat :=
  let c := s.core p
  match i with
  | 0 => some (s.coreId p)
  | 1 => some (c.ctx + 64 * bit (s.sealed c.ctx))
  | 2 => some ((s.launchOf p).elim 0 fun x => x.2.seq)
  | 3 => some s.cycle
  | 4 => some c.cst.toNat
  | i => if 0x40 ≤ i ∧ i ≤ 0x48 then some (s.numReg p (i - 0x40)) else none

/-! ### Pointer views (R323) -/

/-- B2BASE of a context as a host address. -/
def b2base (s : State) (ctx : Nat) : Nat := (s.reg .ctxB2base ctx).toNat * 2 ^ 41

/-- CALIAS of a context as a VA, when it is valid. -/
def calias (s : State) (ctx : Nat) : Option Nat :=
  if s.flag .ctxCfg ctx 3 then some ((s.reg .ctxCalias ctx).toNat * 2 ^ 41) else none

/-- HALIAS of a context as a VA, when it is valid. -/
def halias (s : State) (ctx : Nat) : Option Nat :=
  if s.flag .ctxCfg ctx 4 then some (s.fld .ctxCfg ctx 9 5 * 2 ^ 52) else none

/-- Module to host (R323, R324). -/
def toHost (s : State) (p va : Nat) : Except Code Nat × State :=
  let ctx := (s.core p).ctx
  match s.xlateNow p ctx va false with
  | (.error c, s) => (.error c, s)
  | (.ok l, s) =>
    match s.place l va with
    | .cis a => (.ok (s.b2base ctx + a), s)
    | .host h => (.ok h, s)
    | _ => (.error .range, s)

/-- Host to module, with the confirming translation (R323, R324). -/
def toModule (s : State) (p h : Nat) : Except Code Nat × State :=
  let ctx := (s.core p).ctx
  let b := s.b2base ctx
  let inB2 := b ≤ h ∧ h < b + 2 ^ 41
  let alias_ := if inB2 then s.calias ctx else if h < 2 ^ 52 then s.halias ctx else none
  match alias_ with
  | none => (.error .range, s)
  | some al =>
    let va := (al + (if inB2 then h - b else h)) % 2 ^ 57
    match s.xlateNow p ctx va false with
    | (.error c, s) => (.error c, s)
    | (.ok l, s) =>
      let want : Place := if inB2 then .cis (h - b) else .host h
      if s.place l va = want then (.ok va, s) else (.error .range, s)

end State

open State

/-- END (R95): it does not complete while a unit instruction of the core is outstanding. -/
def execEndI (c : CoreId) (w : IWord) (s : State) : Outcome :=
  issue 0x3F 0x00 w none (w.dst == 0 && w.src1 == 0 && w.src2 == 0 && w.imm == 0) [] c.val
    (fun s =>
      let jobs := (s.core c.val).jobs
      if !jobs.isEmpty then .held (jobs.map (·.id))
      else .keep ((s.retire c.val ((s.core c.val).pc + 8)).modCore c.val fun k =>
        { k with run := .idle, ended := true })) s

/-- FLT (R96). -/
def execFlt (c : CoreId) (w : IWord) (s : State) : Outcome :=
  issue 0x3F 0x01 w none
    (w.dst == 0 && w.src1 == 0 && w.src2 == 0 && decide (w.imm.toNat ≠ 0) && decide (w.imm.toNat ≤ 0x13)) []
    c.val (fun s => .bad s ((Code.ofByte w.imm.toNat).getD .badField)) s

/-- MFS (R97). -/
def execMfs (c : CoreId) (w : IWord) (s : State) : Outcome :=
  issue 0x3F 0x02 w none (w.src1 == 0 && w.src2 == 0 && decide (w.imm.toNat < 4096)) (sRegs [w.dst]) c.val
    (fun s => match s.sysReg c.val w.imm.toNat with
      | some v => setDst s c.val w (BitVec.ofNat 64 v)
      | none => .bad s .badField) s

/-- MTS (R97): CST alone is writable, with a status code. -/
def execMts (c : CoreId) (w : IWord) (s : State) : Outcome :=
  issue 0x3F 0x03 w none (w.dst == 0 && w.src2 == 0 && decide (w.imm.toNat < 4096)) (sRegs [w.src1]) c.val
    (fun s =>
      let v := (s.core c.val).getS w.src1
      if w.imm.toNat ≠ 4 then .bad s .badField
      else if (Code.ofByte v.toNat).isNone then .bad s .range
      else .ok (s.modCore c.val fun k => { k with cst := v })) s

/-- CVT (R324). -/
def execCvt (c : CoreId) (w : IWord) (s : State) : Outcome :=
  issue 0x3F 0x04 w none (w.src2 == 0 && decide (w.imm.toNat < 2)) (sRegs [w.dst, w.src1]) c.val
    (fun s =>
      let v := ((s.core c.val).getS w.src1).toNat
      match (if w.imm = 0 then s.toHost c.val (v % 2 ^ 57) else s.toModule c.val v) with
      | (.ok r, s) => setDst s c.val w (BitVec.ofNat 64 r)
      | (.error e, s) => .bad s e (if e = .poison then some v else none)) s

/-- ICI (R97): the next instruction is fetched again. -/
def execIci (c : CoreId) (w : IWord) (s : State) : Outcome :=
  issue 0x3F 0x05 w none (w.dst == 0 && w.src1 == 0 && w.src2 == 0 && w.imm == 0) [] c.val
    (fun s => .ok (s.modCore c.val fun k => { k with icache := [] })) s

end Sys2Proof.Machine
end

