-- ==== Sys2Proof/Machine/Cistern.lean ====
section
/-!
DEFINITION. The cistern (R237 to R256): its accesses and scrub, the allocator's pools, and ALC and FRE.
-/

namespace Sys2Proof.Machine

/-! ### Pools -/

namespace Pool

/-- Bytes of a block of class `k` (R92). -/
def bytes (k : Nat) : Nat := 65536 * 2 ^ k

/-- The largest class offered. -/
def top (classes : Nat) : Nat := ((List.range 13).filter classes.testBit).foldl max 0

/-- The smallest class offered that holds a number of bytes. -/
def fit (x : Pool) (n : Nat) : Option Nat :=
  (List.range 13).find? fun k => x.classes.testBit k && decide (n ≤ bytes k)

/-- Free space in 64 KiB units. -/
def freeUnits (x : Pool) : Nat := (x.free.map fun kv => 2 ^ kv.2).sum

/-- The free blocks of the smallest class from `k` up that has one. -/
def candidates (x : Pool) (k : Nat) : List (Nat × Nat) :=
  match ((List.range 13).filter (k ≤ ·)).find? fun j => x.free.any fun kv => kv.2 == j with
  | some j => x.free.filter fun kv => kv.2 == j
  | none => []

/-- Halve a block of class `j` down to class `k`; bit `i` of a free value says which half is kept. -/
def split (v : BitVec 64) (k : Nat) : Nat → SMap Nat → Nat → Nat → SMap Nat × Nat
  | 0, free, a, _ => (free, a)
  | n + 1, free, a, j =>
    if j ≤ k then (free, a)
    else
      let h := bytes (j - 1)
      if v.getLsbD j then split v k n (free.set a (j - 1)) (a + h) (j - 1)
      else split v k n (free.set (a + h) (j - 1)) a (j - 1)

/-- Merge a free block with its free buddy, repeatedly, up to the largest class (R252). -/
def mergeUp (base topK : Nat) : Nat → SMap Nat → Nat → Nat → SMap Nat
  | 0, free, a, k => free.set a k
  | n + 1, free, a, k =>
    let buddy := base + ((a - base) ^^^ bytes k)
    if k < topK ∧ free.get? buddy = some k then mergeUp base topK n (free.erase buddy) (min a buddy) (k + 1)
    else free.set a k

/-- An allocated block becomes free; under MERGE it merges (R252). -/
def release (x : Pool) (a k : Nat) : Pool :=
  { x with used := x.used.erase a, free := if x.merge then mergeUp x.base (top x.classes) 13 x.free a k else x.free.set a k }

/-- Every allocated block becomes free (RESET_CTX, R254). -/
def freeAll (x : Pool) : Pool := x.used.foldl (fun x kv => x.release kv.1 kv.2) x

/-- The whole region as free blocks of the largest class (R252). -/
def fresh (base size classes : Nat) : SMap Nat :=
  (List.range (size / bytes (top classes))).map fun i => (base + i * bytes (top classes), top classes)

end Pool

namespace State

/-- Pools of a context. -/
def ctxPools (s : State) (ctx : Nat) : List (Nat × Pool) := s.pools.filter fun kv => kv.1 / 16 == ctx

/-- A launch of a context is running or queued to start. -/
def ctxHasLaunch (s : State) (ctx : Nat) : Bool := s.launches.any fun kv => kv.2.ctx == ctx

/-- A pool's free space has fallen below its LOW (CIS_POOL_LOW). -/
def poolLow (s : State) (ctx : Nat) (old new : Pool) : State :=
  if old.low ≤ old.freeUnits ∧ new.freeUnits < new.low then
    (if ctx < 32 then s.setFlag .poolLowLo 0 ctx true else s.setFlag .poolLowHi 0 (ctx - 32) true).bump .poolLowEvt ctx 1
  else s

/-- ALC (R92): a code, the block's local physical address (log entry 17), and the state. Which of several
free blocks, and which half of a split, are free values (log entry 1). -/
def alloc (s : State) (ctx pool size : Nat) : Code × Nat × State :=
  if size = 0 then (.range, 0, s)
  else match s.pools.get? (16 * ctx + pool) with
  | none => (.state, 0, s)
  | some x =>
    if Pool.bytes (Pool.top x.classes) < size then (.range, 0, s)
    else match x.fit size with
      | none => (.range, 0, s)
      | some k =>
        let cs := x.candidates k
        let (d, s) := s.draw
        match cs[(Config.freeAt d 0).toNat % cs.length]? with
        | none => (.noResource, 0, s)
        | some (a, j) =>
          let (free, a) := Pool.split (Config.freeAt d 1) k 13 (x.free.erase a) a j
          let x' := { x with free := free, used := x.used.set a k }
          (.ok, a, ({ s with pools := s.pools.set (16 * ctx + pool) x' }).poolLow ctx x x')

/-- FRE (R93). -/
def free_ (s : State) (ctx a : Nat) : Except Code State :=
  match (s.ctxPools ctx).find? fun kv => (kv.2.used.get? a).isSome with
  | some (i, x) => .ok { s with pools := s.pools.set i (x.release a (x.used.getD a 0)) }
  | none =>
    if (s.ctxPools ctx).any fun kv => (kv.2.free.get? a).isSome then .error .state else .error .range

/-! ### Pool commands -/

/-- The staged pool descriptor. -/
def stagedPool (s : State) : List Nat :=
  ((List.range 8).flatMap fun k => leBytes 4 (s.reg .poolStage k).toNat).map BitVec.toNat

/-- A little-endian field of the staged descriptor. -/
def poolField (s : State) (lo n : Nat) : Nat :=
  ((s.stagedPool.drop lo).take n).foldr (fun b acc => b + 256 * acc) 0

/-- Checks of CIS_POOL_CMD (R254). -/
def poolCheck (s : State) (v : Word) : Code :=
  let op := bitsOf v.toNat 1 0
  let ctx := bitsOf v.toNat 7 2
  let key := 16 * ctx + bitsOf v.toNat 11 8
  let old := s.pools.get? key
  let hasUsed := (old.map fun x => !x.used.isEmpty).getD false
  if op = 0 then .badField
  else if op = 1 then
    let base := s.poolField 0 8
    let size := s.poolField 8 8
    let classes := s.poolField 16 2
    let unit := Pool.bytes (Pool.top classes)
    firstCode [
      (decide (2 ^ 44 ≤ base) || decide (2 ^ 44 ≤ size) || decide (2 ^ 13 ≤ classes) || decide (classes = 0)
        || decide (2 ≤ s.poolField 18 1) || decide (s.poolField 19 1 ≠ 0) || decide (s.poolField 24 8 ≠ 0), .badField),
      (decide (base % unit ≠ 0) || decide (size % unit ≠ 0), .align),
      (decide (s.workSize < base + size)
        || s.pools.any (fun kv => kv.1 != key && decide (base < kv.2.base + kv.2.size) && decide (kv.2.base < base + size)),
        .range),
      (hasUsed, .state)]
  else if op = 2 then (if old.isNone || hasUsed then .state else .ok)
  else if s.ctxHasLaunch ctx then .busy else .ok

/-- Effect of CIS_POOL_CMD (R254). -/
def poolEff (v : Word) (s : State) : State :=
  let op := bitsOf v.toNat 1 0
  let ctx := bitsOf v.toNat 7 2
  let key := 16 * ctx + bitsOf v.toNat 11 8
  if op = 1 then
    let base := s.poolField 0 8
    let size := s.poolField 8 8
    let classes := s.poolField 16 2
    let x : Pool := ⟨base, size, classes, s.poolField 18 1 == 1, s.poolField 20 4, Pool.fresh base size classes, []⟩
    { s with pools := s.pools.set key x }
  else if op = 2 then { s with pools := s.pools.erase key }
  else { s with pools := s.pools.mapV fun k x => if k / 16 = ctx then x.freeAll else x }

/-- A write of CIS_POOL_CMD with an OP. -/
def poolWrite (s : State) (src : Src) (op : Nat) (v : Word) : State :=
  let v := BitVec.ofNat 32 (setBits v.toNat 1 0 op)
  s.busWrite src .poolCmd 0 v (s.poolCheck v) (State.poolEff v)

/-- A write of CIS_SCRUB_CFG: HOURS is 1 to 168. -/
def scrubCfgCheck (v : Word) : Code :=
  if v.toNat % 256 = 0 ∨ 168 < v.toNat % 256 then .range else .ok

/-! ### Accesses -/

/-- Bytes of one channel's slice of a region of some GiB per die (R246). -/
def sliceOf (gib : Nat) : Nat := gib * 2 ^ 30 / 24

/-- S: bytes of one channel's reserve, cache and shadow slices (R246, R249). -/
def sliceBytes (s : State) : Nat :=
  sliceOf (s.fld .cisPart 0 9 0 + s.fld .cisPart 0 19 10 + s.fld .cisPart 0 29 20)

/-- The region of a channel-local offset, in the order of R246: reserve, row-page cache, shadow pool, working
memory. -/
def regionOf (s : State) (off : Nat) : Nat :=
  let r := sliceOf (s.fld .cisPart 0 29 20)
  let c := r + sliceOf (s.fld .cisPart 0 9 0)
  if off < r then 0 else if off < c then 1 else if off < s.sliceBytes then 2 else 3

/-- The working-memory address of a channel-local offset; none below S (R249). -/
def workAddr (s : State) (ch off : Nat) : Option Nat :=
  if off < s.sliceBytes then none
  else
    let o := off - s.sliceBytes
    let a := (48 * (o / 4096) + 2 * (ch % 24) + ch / 24) * 4096 + o % 4096
    if a < s.workSize then some a else none

/-- Number of an access: 64 bytes of a channel (R237). -/
def accessNo (ch off : Nat) : Nat := ch * 2 ^ 29 + off / 64

/-- What lies in an access of the module's own slices. The spec gives the order of the slices and not what lies
where in them: a cached page's granule, a shadow or tags and tables, as a free value says (log entry 1). -/
def pickOwn (s : State) (ch off : Nat) : State × OwnCell :=
  let (k, s) := s.draw
  let v := fun (i n : Nat) => (Config.freeAt k i).toNat % n
  let pages := s.pages.filter fun kv => kv.2.data.isSome && kv.2.engine / 32 == ch / 24
  let shadows := s.shadows.filter fun x => x.engine / 32 == ch / 24
  match s.regionOf off with
  | 1 => (s, ((pages[v 0 (pages.length + 1)]?).map fun kv => OwnCell.page kv.1 (v 1 32)).getD .table)
  | 2 => (s, ((shadows[v 0 (shadows.length + 1)]?).map fun x => OwnCell.shadow x.tid x.row (x.insts.headD 0)).getD .table)
  | _ => (s, .table)

/-- An access of the module's own slices is poisoned. -/
def ownBad (s : State) (n : Nat) : Bool :=
  match s.ownPoison.get? n with
  | none => false
  | some .table => true
  | some (.page id g) => (s.pages.get? id).any fun p => p.data.isSome && p.poison.contains g
  | some (.shadow tid row inst) => s.shadows.any fun x => x.tid == tid && x.row == row && x.insts.contains inst && x.bad

/-- Poison what lies in an access, or clear it after a write of the whole access. -/
def setOwn (c : OwnCell) (bad : Bool) (s : State) : State :=
  match c with
  | .table => s
  | .page id g => { s with pages := s.pages.mapV fun k p =>
      if k = id then { p with poison := if bad then setInsert p.poison g else setErase p.poison g } else p }
  | .shadow tid row inst => { s with shadows := s.shadows.map fun x =>
      if x.tid = tid ∧ x.row = row ∧ x.insts.contains inst = true then { x with bad := bad } else x }

/-- Data and poison of an access as its channel holds it; the bytes of the module's own slices are a cached page's
or free (log entry 1). -/
def storedAccess (s : State) (ch off : Nat) : State × List Byte × Bool :=
  match s.workAddr ch (off / 64 * 64) with
  | some a => let (bs, bad) := s.cisRead a 64
    (s, bs, bad)
  | none =>
    let n := accessNo ch off
    let (k, s) := s.draw
    let free := (List.range 64).map fun i => (Config.freeAt k i).setWidth 8
    let bs := match s.ownPoison.get? n with
      | some (.page id g) => ((((s.pages.get? id).bind (·.data)).map fun d => (d.drop (64 * g)).take 64).getD free)
      | _ => free
    (s, bs, s.ownBad n)

/-- Store an access whole, poisoned or not. -/
def storeAccess (s : State) (ch off : Nat) (bs : List Byte) (poison : Bool) : State :=
  match s.workAddr ch (off / 64 * 64) with
  | some a => s.cisWrite a bs poison
  | none =>
    let n := accessNo ch off
    match s.ownPoison.get? n, poison with
    | some c, _ => (if poison then s else { s with ownPoison := s.ownPoison.erase n }).setOwn c poison
    | none, true =>
      let (s, c) := s.pickOwn ch off
      { s with ownPoison := s.ownPoison.set n c }.setOwn c true
    | none, false => s

/-- Read an access whose symbols differ from those stored (R239 to R241): its data and poison mark. -/
def readAccess (s : State) (ch off : Nat) (err : AccessErr) : State × List Byte × Bool :=
  let (s, bs, bad) := s.storedAccess ch off
  let (v, d) := decodeAccess (misread err (encodeAccess bs bad))
  match v with
  | .clean => (s, d, false)
  | .poison => (s, d, true)
  | .corrected => ((s.storeAccess ch off d false).bump .chCe ch 1, d, false)
  | .bad => (((s.storeAccess ch off d true).bump .chUe ch 1).raise 0x06 ch .poison 0x02 none 0 (off / 64 * 64) (off / 64 % 2), d, true)

/-- Write bytes of an access: one not written whole is read first, and keeps its poison. -/
def writeAccess (s : State) (ch off : Nat) (bs : List Byte) (err : AccessErr) : State :=
  let bs := bs.take (64 - off % 64)
  if bs.length = 64 then s.storeAccess ch off bs false
  else
    let (s, d, bad) := s.readAccess ch off err
    s.storeAccess ch off (d.take (off % 64) ++ bs ++ d.drop (off % 64 + bs.length)) bad

/-! ### Channel queues (R243, R250, R251) -/

def sub (s : State) (k : Nat) : SubChan := s.subs.getD k ⟨false, [], []⟩
def setSub (s : State) (k : Nat) (x : SubChan) : State :=
  { s with subs := if x = ⟨false, [], []⟩ then s.subs.erase k else s.subs.set k x }

/-- Sub-channel of an offset (R249). -/
def subOf (ch off : Nat) : Nat := 2 * ch + off / 64 % 2

/-- Requests outstanding at a channel. -/
def outstanding (s : State) (ch : Nat) : Nat :=
  ((List.range 2).map fun i => (s.sub (2 * ch + i)).reads.length + (s.sub (2 * ch + i)).writes.length).sum

/-- A channel accepts a request. Its effect on the access is that of its place among the requests accepted (R243);
its answer, or its place in the queue, waits for the sub-channel's direction. -/
def acceptReq (s : State) (ch : Nat) (r : CisReq) : State :=
  let k := subOf ch r.off
  match r.data with
  | none =>
    let (s, d, bad) := s.readAccess ch r.off r.err
    let x := s.sub k
    s.setSub k { x with reads := x.reads ++ [⟨r.off / 64 * 64, d, bad⟩] }
  | some bs =>
    let s := s.writeAccess ch r.off bs r.err
    let x := s.sub k
    let ws := x.writes ++ [r.off]
    s.setSub k { x with writes := ws, writing := x.writing || decide (32 ≤ ws.length) }

/-- Requests outside a channel come in while it has room (R250). -/
def admitReqs (ch : Nat) : Nat → State → State
  | 0, s => s
  | n + 1, s =>
    match s.cisQ.getD ch [] with
    | [] => s
    | r :: rest =>
      if 256 ≤ s.outstanding ch then s
      else admitReqs ch n ({ s with cisQ := if rest.isEmpty then s.cisQ.erase ch else s.cisQ.set ch rest }.acceptReq ch r)

/-- A sub-channel serves one request: reads, or every write waiting once it has turned to writes (R251). -/
def serveSub (k : Nat) (s : State) : State :=
  let x := s.sub k
  let s := match x.writing, x.reads with
    | true, _ =>
      let ws := x.writes.drop 1
      s.setSub k { x with writes := ws, writing := !ws.isEmpty }
    | false, [] => s
    | false, r :: rest => { s.setSub k { x with reads := rest } with cisOut := s.cisOut ++ [(k / 2, r)] }
  admitReqs (k / 2) 1 s

/-- Every sub-channel serves one request, but for the channels that are being reset (R425). -/
def serveSubs (s : State) : State :=
  let ks : List Nat := s.subs.map Prod.fst ++ s.cisQ.map fun kv : Nat × List CisReq => 2 * kv.1
  ks.eraseDups.foldl (fun s k => if s.inReset 6 (k / 2) then s else serveSub k s) s

/-- Every request that a channel has accepted completes, and those that wait outside go on waiting (R425). -/
def completeChannel (s : State) (ch : Nat) : State :=
  let mine := s.subs.filter fun kv => kv.1 / 2 == ch
  { s with
    cisOut := s.cisOut ++ mine.flatMap fun kv => kv.2.reads.map fun r => (ch, r)
    subs := s.subs.filter fun kv => kv.1 / 2 != ch }

/-- Every request that a channel has accepted completes, and those outside are discarded (R255). -/
def completeSubs (s : State) : State :=
  { s with
    cisOut := s.cisOut ++ s.subs.flatMap fun kv => kv.2.reads.map fun r => (kv.1 / 2, r)
    subs := []
    cisQ := [] }

/-- The cistern is in service. -/
def cisReady (s : State) : Bool := s.flag .cisState 0 0 && !s.flag .cisState 0 3

/-- The cistern enters self-refresh (R255, steps 1 to 3). -/
def selfRefresh (s : State) : State :=
  if !s.cisReady then s else (s.completeSubs.setFlag .cisState 0 0 false).setFlag .cisState 0 1 true

/-! ### Training (R244, R245) -/

/-- Margin of a lane of a sub-channel. -/
def eye (y : Eyes) (k lane : Nat) : Nat :=
  ((y.lanes.find? fun x => x.1.val == k && x.2.1.val == lane).map (·.2.2)).getD y.rest

/-- Lane of a sub-channel that its spare replaces, 15 for none. -/
def spareOf (s : State) (k : Nat) : Nat := s.fld .chState (k / 2) (4 * (k % 2) + 3) (4 * (k % 2))

/-- Lanes of a sub-channel in service. -/
def inService (spare : Nat) : List Nat := (List.range 13).filter fun l => l != spare && (l != 12 || spare != 15)

/-- Lanes of a sub-channel that fail at a training: those below 12 %, and the one replaced before. -/
def weakLanes (y : Eyes) (k old : Nat) : List Nat := (List.range 13).filter fun l => decide (eye y k l < 12) || l == old

/-- The lane that the spare replaces after a training; none when two lanes fail or the spare does. -/
def trainSub (y : Eyes) (k old : Nat) : Option Nat :=
  match weakLanes y k old with
  | [] => some 15
  | [l] => if l = 12 then none else some l
  | _ => none

/-- The worst margin of the lanes in service of a channel. -/
def worstEye (y : Eyes) (ch : Nat) (spare : Nat → Nat) : Nat :=
  let ms := (List.range 2).flatMap fun i => (inService (spare i)).map (eye y (2 * ch + i))
  ms.foldl min (ms.headD 0)

/-- A channel is trained, from scratch or with the lanes replaced before; none when it cannot be. -/
def trainChannel (s : State) (y : Eyes) (ch : Nat) (cold : Bool) : Option State :=
  let old := fun i => if cold then 15 else s.spareOf (2 * ch + i)
  match trainSub y (2 * ch) (old 0), trainSub y (2 * ch + 1) (old 1) with
  | some a, some b =>
    some (((s.setFld .chState ch 7 0 (a + 16 * b)).setFlag .chState ch 9 false).setFld .chState ch 23 16
      (min 255 (worstEye y ch fun i => if i = 0 then a else b)))
  | _, _ => none

end State

open State

/-- ALC (R92): returned; the register is zero on any code but OK. -/
def execAlc (c : CoreId) (w : IWord) (s : State) : Outcome :=
  issue 0x0A 0x00 w none (w.src2 == 0 && decide (w.imm.toNat < 16)) (.p 7 :: sRegs [w.dst, w.src1]) c.val
    (fun s =>
      let k := s.core c.val
      let (code, a, s) := s.alloc k.ctx w.imm.toNat (k.getS w.src1).toNat
      .ok ((s.modCore c.val fun k => k.setS w.dst (BitVec.ofNat 64 a)).returned c.val code)) s

/-- FRE (R93): faulting. -/
def execFre (c : CoreId) (w : IWord) (s : State) : Outcome :=
  issue 0x0A 0x01 w none (w.dst == 0 && w.src2 == 0 && w.imm == 0) (sRegs [w.src1]) c.val
    (fun s => match s.free_ (s.core c.val).ctx ((s.core c.val).getS w.src1).toNat with
      | .ok t => .ok t
      | .error e => .bad s e) s

/-- POOL_SET (R254). -/
def execPoolSet (src : Src) (v : Word) (s : State) : Outcome := .next (s.poolWrite src 1 v)

/-- POOL_CLEAR (R254). -/
def execPoolClear (src : Src) (v : Word) (s : State) : Outcome := .next (s.poolWrite src 2 v)

/-- RESET_CTX (R254). -/
def execResetCtx (src : Src) (v : Word) (s : State) : Outcome := .next (s.poolWrite src 3 v)

/-- CISTERN_REQUEST (R237 to R243, R250, R251): a channel takes a request of the module's engines, behind those that
wait for room in it or for its reset to end, and its sub-channel serves one. -/
def execCisternRequest (ch : Fin 48) (off : Nat) (data : Option (List Byte)) (err : AccessErr) (s : State) :
    Outcome :=
  if !s.cisReady then .next s
  else
    let r : CisReq := ⟨off, data, err⟩
    let q := s.cisQ.getD ch.val []
    if s.inReset 6 ch.val then .next { s with cisQ := s.cisQ.set ch.val (q ++ [r]) }
    else if !q.isEmpty || decide (256 ≤ s.outstanding ch.val) then .next (serveSub (subOf ch.val off) { s with cisQ := s.cisQ.set ch.val (q ++ [r]) })
    else .next (serveSub (subOf ch.val off) (s.acceptReq ch.val r))

/-- WRITE_TURN_TIMEOUT (R251): a write has waited 2 µs, and the sub-channel turns to writes. -/
def execWriteTurnTimeout (ch : Fin 48) (sub : Fin 2) (s : State) : Outcome :=
  let k := 2 * ch.val + sub.val
  let x := s.sub k
  if x.writes.isEmpty || s.inReset 6 ch.val then .next s else .next (serveSub k (s.setSub k { x with writing := true }))

/-- PATROL_SCRUB (R242): the next access is read while no read waits, and its error handled; its write-back follows at
once, so no write comes between (R243). -/
def execPatrolScrub (err : AccessErr) (s : State) : Outcome :=
  let ch := s.scrubPos / 2 ^ 29
  let off := s.scrubPos % 2 ^ 29 * 64
  if !s.flag .cisScrubCfg 0 8 || !s.cisReady || s.inReset 6 ch || !(s.sub (subOf ch off)).reads.isEmpty then .next s
  else
    let total := 48 * 2 ^ 29
    let s1 := (s.readAccess ch off err).1
    let pos := (s.scrubPos + 1) % total
    let passes := satAdd 0xFFFF (s.fld .cisScrubPass 0 15 0) (bit (pos == 0))
    .next ({ s1 with scrubPos := pos }.setReg .cisScrubPass 0
      (BitVec.ofNat 32 (passes + 2 ^ 16 * (pos * 1000 / total))))

end Sys2Proof.Machine
end

