-- ==== Sys2Proof/Machine/Operands.lean ====
section
/-!
DEFINITION. Tensor descriptors (R68): their fields, the checks at use (R69), the bytes of a tensor and of its
companions, and packed elements (R35).
-/

namespace Sys2Proof.Machine

namespace Desc

/-- A field of a descriptor. -/
def fld (d : Desc) (hi lo : Nat) : Nat := bitsOf d.toNat hi lo

def base (d : Desc) : Nat := d.fld 56 0
def space (d : Desc) : Nat := d.fld 58 57
def format (d : Desc) : Nat := d.fld 63 59
def scaling (d : Desc) : Nat := d.fld 65 64
/-- RANK, the rank minus 1. -/
def rank (d : Desc) : Nat := d.fld 67 66
def ext0 (d : Desc) : Nat := d.fld 87 68
def ext1 (d : Desc) : Nat := d.fld 103 88
def ext2 (d : Desc) : Nat := d.fld 115 104
def ext3 (d : Desc) : Nat := d.fld 127 116
def str1 (d : Desc) : Nat := d.fld 155 128
def str2 (d : Desc) : Nat := d.fld 183 156
def str3 (d : Desc) : Nat := d.fld 211 184
def scaleT (d : Desc) : Nat := d.fld 216 212
def scaleV (d : Desc) : Bool := d.fld 217 217 == 1
def residT (d : Desc) : Nat := d.fld 222 218
def residV (d : Desc) : Bool := d.fld 223 223 == 1
def tscale (d : Desc) : BitVec 32 := BitVec.ofNat 32 (d.fld 255 224)

/-- Extents of dimensions 1 to 3, 1 above RANK (R68). -/
def e1 (d : Desc) : Nat := if 1 ≤ d.rank then d.ext1 else 1
def e2 (d : Desc) : Nat := if 2 ≤ d.rank then d.ext2 else 1
def e3 (d : Desc) : Nat := if 3 ≤ d.rank then d.ext3 else 1

/-- Number of rows. -/
def rows (d : Desc) : Nat := d.e1 * d.e2 * d.e3

/-- Element format. -/
def fmt (d : Desc) : Option Fmt := Fmt.ofCode d.format

/-- Bits of an element; 8 for a reserved format. -/
def ebits (d : Desc) : Nat := match d.fmt with | some f => f.bits | none => 8

/-- Elements of a block: 32 under MX32, 16 under S16 (R36). -/
def block (d : Desc) : Nat := if d.scaling = 1 then 32 else if d.scaling = 2 then 16 else 0

/-- Elements stored in a row: whole blocks of a scaled tensor (R42), groups of four of FP6 (R35). -/
def stored (d : Desc) : Nat :=
  if d.block ≠ 0 then (d.ext0 + d.block - 1) / d.block * d.block
  else if d.ebits = 6 then (d.ext0 + 3) / 4 * 4 else d.ext0

/-- Bytes of a row, a partly filled byte counted whole (R158). -/
def rowBytes (d : Desc) : Nat := (d.stored * d.ebits + 7) / 8

/-- Blocks of a row. -/
def rowBlocks (d : Desc) : Nat := if d.block = 0 then 0 else (d.ext0 + d.block - 1) / d.block

/-- The bytes of the tensor. -/
def area (d : Desc) : Area := ⟨d.base, d.rowBytes, d.e1, d.e2, d.e3, d.str1, d.str2, d.str3⟩

/-- The bytes of a scale tensor, one byte an element (R68). -/
def scaleArea (d : Desc) : Area := ⟨d.base, d.ext0, d.e1, d.e2, d.e3, d.str1, d.str2, d.str3⟩

/-- Bytes of a residual-list entry of a tensor (R50). -/
def entryBytes (d : Desc) : Nat := if d.scaling = 1 then 48 else 32

/-- Address of row `j` in flat order (R68, R132). -/
def rowAddr (d : Desc) (j : Nat) : Nat :=
  d.base + (j % d.e1) * d.str1 + (j / d.e1 % d.e2) * d.str2 + (j / d.e1 / d.e2) * d.str3

/-- The pairing of FORMAT and SCALING is allowed (R36). -/
def pairOk (d : Desc) : Bool :=
  match d.scaling with
  | 0 => true
  | 1 => [3, 4, 5, 6, 7, 8].contains d.format
  | 2 => [3, 5, 7, 9, 10, 11].contains d.format
  | _ => false

/-- Check 5 of R69 on a written area: each stride covers the span of the dimensions below it. -/
def overlapFree (x : Area) : Bool :=
  let s1 := x.w + (x.e1 - 1) * x.s1
  let s2 := s1 + (x.e2 - 1) * x.s2
  (decide (x.e1 ≤ 1) || decide (x.w ≤ x.s1)) && (decide (x.e2 ≤ 1) || decide (s1 ≤ x.s2)) &&
    (decide (x.e3 ≤ 1) || decide (s2 ≤ x.s3))

/-- Check 4 of R69. -/
def inPad (d : Desc) (x : Area) : Bool := d.space != 0 || decide (x.last ≤ 2 ^ 20)

end Desc

/-- Role of a tensor at its use (R69): read, written, a weight, or the output of a VCH with RCAP. -/
inductive Role where
  | read | written | weight | rcap
deriving DecidableEq, Repr

/-- The checks of R69 on a descriptor at use. `t` gives the descriptor registers, for its companions. DESIGN CHOICE (log entry
63): a scale descriptor of another RANK counts as extents that differ. -/
def checkDesc (t : Nat → Desc) (d : Desc) (role : Role) : Code :=
  let sc := t d.scaleT
  let rs := t d.residT
  let scaled := d.scaling ≠ 0
  let written := role = .written ∨ role = .rcap
  let hasResid := d.residV = true ∧ (role = .weight ∨ role = .rcap)
  let residArea := Area.span rs.base (rs.ext0 * d.entryBytes)
  firstOf [
    (decide (2 ≤ d.space) || d.fmt.isNone || !d.pairOk || decide (scaled ∧ ¬ d.scaleV)
      || decide (d.residV = true ∧ ¬ hasResid)
      || decide (scaled ∧ 2 ≤ sc.space) || decide (hasResid ∧ 2 ≤ rs.space), .badField),
    (decide ((d.ebits = 16 ∨ d.ebits = 32) ∧ d.base % (d.ebits / 8) ≠ 0)
      || decide (scaled ∧ 1 ≤ d.rank ∧ d.str1 % (d.block * d.ebits / 8) ≠ 0), .align),
    (decide (d.ext0 = 0 ∨ d.e1 = 0 ∨ d.e2 = 0 ∨ d.e3 = 0)
      || decide (scaled ∧ (sc.rank ≠ d.rank ∨ sc.ext0 ≠ d.rowBlocks ∨ sc.e1 ≠ d.e1 ∨ sc.e2 ≠ d.e2 ∨ sc.e3 ≠ d.e3)),
      .range),
    (!d.inPad d.area || (decide scaled && !sc.inPad sc.scaleArea)
      || (decide (hasResid ∧ rs.ext0 ≠ 0) && !rs.inPad residArea), .range),
    (decide written && (!Desc.overlapFree d.area || (decide scaled && !Desc.overlapFree sc.scaleArea)), .range),
    (decide (d.scaling = 2) && !(let v := ofF32 d.tscale; v.isFin && !v.neg && !v.isZero), .range)]

/-! ### Packed elements -/

/-- Element codes of a byte string, packed from the least significant bit (R35). -/
def unpack (bits n : Nat) (bs : List Byte) : List Nat :=
  let v := leNat bs
  (List.range n).map fun i => v / 2 ^ (bits * i) % 2 ^ bits

/-- A byte string of element codes. -/
def pack (bits : Nat) (codes : List Nat) : List Byte :=
  let v := codes.foldr (fun c acc => c % 2 ^ bits + 2 ^ bits * acc) 0
  leBytes ((codes.length * bits + 7) / 8) v

/-! ### Fields by index (R91) -/

/-- Place of a field of TSF and TGF. -/
def descField : Nat → Option (Nat × Nat)
  | 0 => some (56, 0) | 1 => some (58, 57) | 2 => some (63, 59) | 3 => some (65, 64)
  | 4 => some (67, 66) | 5 => some (87, 68) | 6 => some (103, 88) | 7 => some (115, 104)
  | 8 => some (127, 116) | 9 => some (155, 128) | 10 => some (183, 156) | 11 => some (211, 184)
  | 12 => some (217, 212) | 13 => some (223, 218) | 14 => some (255, 224) | _ => none

/-- A descriptor with bits replaced. -/
def Desc.put (d : Desc) (hi lo v : Nat) : Desc := BitVec.ofNat 256 (setBits d.toNat hi lo v)

/-- TSF (R91). -/
def setField (d : Desc) (i v : Nat) : Except Code Desc :=
  match descField i with
  | none => .error .badField
  | some (hi, lo) =>
    if i = 12 ∨ i = 13 then
      if v < 32 then .ok (d.put hi lo (32 + v))
      else if v = 0xFF then .ok (d.put hi hi 0) else .error .range
    else if i = 14 then .ok (d.put hi lo (v % 2 ^ 32))
    else if v < 2 ^ (hi - lo + 1) then .ok (d.put hi lo v) else .error .range

/-- TGF (R91). -/
def getField (d : Desc) (i : Nat) : Option Nat :=
  (descField i).map fun (hi, lo) =>
    let v := d.fld hi lo
    if i = 12 ∨ i = 13 then (if 32 ≤ v then v % 32 else 0xFF) else v

end Sys2Proof.Machine
end

