-- ==== Sys2Proof/Machine/Flags.lean ====
section
/-!
DEFINITION. Numeric flags and counters (R60, R65, R10), elements of scratchpad tensors with their scales
(R35 to R40), and FP32 words whose NaN payload the spec leaves open.
-/

namespace Sys2Proof.Machine

namespace State

/-- Hardware sets bit `b` of NUM_STICKY of a core, and NUM_EVT_b counts the set (R10, R65). -/
def setSticky (s : State) (p b : Nat) : State := (s.setFlag .numSticky p b true).bump .numEvt (20 * p + b) 1

/-- Set a bit when a condition holds. -/
def stickyIf (s : State) (p b : Nat) (x : Bool) : State := if x then s.setSticky p b else s

/-- Count elements in NUM_SAT_TOTAL (R60). Each one sets CVT_SAT, and NUM_EVT_16 counts each set. -/
def countSat (s : State) (p n : Nat) : State :=
  if n = 0 then s
  else ((s.bump .numSatTotal p n).setFlag .numSticky p 16 true).bump .numEvt (20 * p + 16) n

/-! ### Elements of a scratchpad tensor -/

/-- Element codes of row `j`. -/
def rowCodes (s : State) (p : Nat) (d : Desc) (j : Nat) : List Nat :=
  unpack d.ebits d.ext0 ((s.pad p).readN (d.rowAddr j) d.rowBytes)

/-- Scale codes of row `j` of a scale tensor: one byte an element. -/
def scaleCodes (s : State) (p : Nat) (sc : Desc) (j : Nat) : List Nat :=
  ((s.pad p).readN (sc.rowAddr j) sc.ext0).map BitVec.toNat

/-- Row `j` of a tensor, or its scales, touch a poisoned line. -/
def rowBad (s : State) (p : Nat) (d sc : Desc) (j : Nat) : Bool :=
  (s.padRead p (d.rowAddr j) d.rowBytes).2 || (decide (d.scaling ≠ 0) && (s.padRead p (sc.rowAddr j) sc.ext0).2)

end State

/-- Value of a block scale (R37, R38). -/
def scaleVal (scaling code : Nat) : FVal := if scaling = 1 then e8m0 code else if scaling = 2 then s16Scale code else .one

/-- Value of an element before its scales; INT8 under MX32 carries 2^-6 (R36). -/
def elemVal (f : Fmt) (scaling code : Nat) : FVal :=
  if f = .int8 ∧ scaling = 1 then (decodeElem f code).mul (.pow2 (-6)) else decodeElem f code

/-- The tensor scale: T under S16 and 1 otherwise (R38). -/
def tensorScale (scaling : Nat) (t : BitVec 32) : FVal := if scaling = 2 then ofF32 t else .one

/-- An FP32 word; a NaN's payload is taken from a free value (log entry 1). -/
def f32Word (free : BitVec 64) (v : FVal) : Word := BitVec.ofNat 32 (encodeF .fp32 (pickNan .fp32 free) (rnd32 v))

end Sys2Proof.Machine
end

