-- ==== Sys2Proof/Machine/Records.lean ====
section
/-!
DEFINITION. Queues and completion records (R327 to R329, R344 to R349): where a record goes, messages, the
spill ring, and the records of command-queue entries (R336).
-/

namespace Sys2Proof.Machine

namespace State

/-! ### Queue configuration (FE_Q_n_CFG) -/

def qEn (s : State) (q : Nat) : Bool := s.flag .feQCfg q 0
def qKind (s : State) (q : Nat) : Nat := s.fld .feQCfg q 3 1
def qOwner (s : State) (q : Nat) : Nat := s.fld .feQCfg q 11 4
def qCtx (s : State) (q : Nat) : Nat := s.fld .feQCfg q 17 12

/-- Entries of the submission ring and records of the completion ring (R328). -/
def sqSize (s : State) (q : Nat) : Nat := 2 ^ s.fld .feQCfg q 22 18
def cqSize (s : State) (q : Nat) : Nat := 2 ^ s.fld .feQCfg q 27 23

/-- The fetcher's stream of a queue's owner (R311, R327; log entry 12). -/
def fetcherOf (s : State) (q : Nat) : Stream :=
  .fetcher (match s.qKind q with
    | 0 => s.qOwner q
    | 1 => s.qOwner q
    | 2 => 144 + s.qOwner q
    | 3 => 160 + s.qOwner q
    | _ => 224 + s.qOwner q)

/-- Function that owns a context (HIF_CTX_n.FN). -/
def ctxFn (s : State) (ctx : Nat) : Nat := s.fld .hifCtx ctx 5 0

end State

/-- The 32 bytes of a completion record (R344). -/
def Rec.bytes (r : Rec) (spilled phase : Bool) : List Byte :=
  leBytes 4 r.tag ++ leBytes 2 r.queue ++ leBytes 2 r.sqHead ++ leBytes 8 r.seq ++ leBytes 1 r.status.toNat
    ++ leBytes 1 r.tries ++ leBytes 2 r.unit ++ leBytes 4 (min r.time 0xFFFFFFFF) ++ leBytes 4 r.info
    ++ leBytes 3 0 ++ leBytes 1 (bit spilled + 2 * bit r.irqNow + 128 * bit phase)

namespace State

/-- The completion ring is full (R345). -/
def cqFull (s : State) (q : Nat) : Bool :=
  ((s.queue q).cqTail + 1) % s.cqSize q == (s.queue q).cqHead

/-- VA of the slot that the next record takes. -/
def slotVa (s : State) (q : Nat) : Nat := s.addr .feQCqHi q + 32 * (s.queue q).cqTail

/-- Send a queue's message: it covers every record written before it (R347). -/
def signalQueue (s : State) (q : Nat) : State :=
  (s.modQueue q fun x => { x with unsig := 0 }).msix (s.homePort (s.qCtx q)) (s.ctxFn (s.qCtx q))
    (s.fld .feQIrq q 10 0)

/-- A record of a queue has been written: the message of R347, and the count of R373 for a launch. -/
def recorded (s : State) (q : Nat) (r : Rec) : State :=
  let ctx := s.qCtx q
  let s := if s.qKind q = 0 then
      (match r.status with
       | .ok => s.bump64 .jobCompletedLo .jobCompletedHi ctx 1
       | .aborted => s.bump64 .jobAbortedLo .jobAbortedHi ctx 1
       | _ => s.bump64 .jobFailedLo .jobFailedHi ctx 1)
    else s
  { s with batches := s.batches.mapV fun _ bs => bs.filter fun b =>
      !(b.queue == q && b.tag == r.tag && (b.idx + 1) % s.sqSize q == r.sqHead) }

/-- Signal a record written to its ring. -/
def signalRec (s : State) (q : Nat) (r : Rec) : State :=
  let s := s.modQueue q fun x =>
    { x with unsig := x.unsig + 1, unsigSince := if x.unsig = 0 then s.ticks else x.unsigSince }
  if s.flag .feQIrq q 11 && (r.irqNow || decide (s.fld .feQIrq q 19 12 ≤ (s.queue q).unsig)) then s.signalQueue q
  else s

/-- Write a record to its completion ring; none when it cannot be written (R348). -/
def ringWrite (s : State) (q : Nat) (r : Rec) : Option State :=
  let ctx := s.qCtx q
  let x := s.queue q
  let va := s.slotVa q
  let bs := r.bytes false x.phase
  let next := fun (s : State) =>
    let t := (x.cqTail + 1) % s.cqSize q
    let s := s.modQueue q fun y => { y with cqTail := t, phase := if t = 0 then !y.phase else y.phase }
    (s.recorded q r).signalRec q r
  match s.xlateEngine (s.fetcherOf q) ctx va true with
  | (.error _, _) => none
  | (.ok l, s) =>
    match s.place l va with
    | .cis a => if s.mayTouch ctx a 32 then some (next (s.cisWrite a bs)) else none
    | .host h =>
      if s.egressOk ctx 0 h 32 then
        (s.portFor (s.homePort ctx) ctx true).map fun s => next (s.hostSend (s.homePort ctx) ctx h bs)
      else none
    | _ => none

/-- A queue's next record may not go where its slot lies (R462, R463). -/
def ringRefused (s : State) (q : Nat) : Bool :=
  match s.xlateEngine (s.fetcherOf q) (s.qCtx q) (s.slotVa q) true with
  | (.error _, _) => false
  | (.ok l, s) => s.refused (s.qCtx q) (s.place l (s.slotVa q)) 32

/-! ### The spill ring (R348, R349) -/

def spillOn (s : State) : Bool := s.flag .feSpillCfg 0 15
def spillSize (s : State) : Nat := 2 ^ s.fld .feSpillCfg 0 3 0

/-- Local address of the spill ring. -/
def spillBase (s : State) : Nat := s.addr .feSpillHi 0

/-- The spill ring is full (R349). -/
def spillFull (s : State) : Bool :=
  (s.fld .feSpillTail 0 11 0 + 1) % s.spillSize == s.fld .feSpillHead 0 11 0

/-- Write a record to the spill ring; none while the ring is off or full. -/
def spillWrite (s : State) (q : Nat) (r : Rec) : Option State :=
  if !s.spillOn || s.spillFull then none
  else
    let t := s.fld .feSpillTail 0 11 0
    let ph := s.flag .feSpillTail 0 12
    let t' := (t + 1) % s.spillSize
    let s := s.cisWrite (s.spillBase + 32 * t) (r.bytes true ph)
    let s := s.setReg .feSpillTail 0 (BitVec.ofNat 32 (t' + 4096 * bit (if t' = 0 then !ph else ph)))
    some (s.recorded q r)

/-- The spill vector's message, of the physical function (R348). -/
def spillMsg (s : State) : State := s.msix s.svcPort 0 (s.fld .feSpillCfg 0 14 4)

/-- Instance of the front end named for a queue: that of the die of its context's home port (log entry 20). -/
def feInst (s : State) (q : Nat) : Nat := s.homePort (s.qCtx q)

/-- A record that cannot be written (R348): its queue is BLOCKED, a sump entry is raised and the spill
vector's message sent; the record itself goes to the spill ring. -/
def blockQueue (s : State) (q : Nat) : State :=
  let va := s.slotVa q
  let s := { s with fetched := s.fetched.erase q }
  ((s.modQueue q fun x => { x with fetch := .blocked }).raise 0x0A (s.feInst q) .completionBlocked 0x01
    (some (s.qCtx q)) 0 va q).spillMsg

/-- A record that is next in its queue's buffer is written, spilled, or left waiting (none). -/
def placeRec (s : State) (q : Nat) (r : Rec) : Option State :=
  if (s.queue q).fetch = .blocked then s.spillWrite q r
  else if s.cqFull q then none
  else match s.ringWrite q r with
    | some s => some s
    | none =>
      let s := (if s.ringRefused q then s.protEvt else s).blockQueue q
      match s.spillWrite q r with
      | some s => some s
      | none => some (s.modQueue q fun x => { x with buf := r :: x.buf })

/-- Write the records that wait in a queue's buffer, in order, as far as there is room (R345, R349). -/
def flushBuf (s : State) (q : Nat) : Nat → State
  | 0 => s
  | n + 1 =>
    match (s.queue q).buf with
    | [] => s
    | r :: rest =>
      match (s.modQueue q fun x => { x with buf := rest }).placeRec q r with
      | none => s
      | some s' => if (s'.queue q).buf.length = rest.length then s'.flushBuf q n else s'

def flush (s : State) (q : Nat) : State := s.flushBuf q (s.queue q).buf.length

/-- An entry of a queue ends with a record (R344, R345). -/
def post (s : State) (q : Nat) (r : Rec) : State :=
  let s := s.modQueue q fun x => { x with running := x.running - 1, buf := x.buf ++ [r] }
  if (s.queue q).buf.length = 1 then s.flush q else s

/-- The record of a command entry, or of an entry rejected before its launch starts. -/
def plainRec (q tag sqHead : Nat) (code : Code) (irqNow : Bool := false) (info : Nat := 0) : Rec :=
  ⟨tag, q, sqHead, 0, code, 0, 0xFFF, 0, info, irqNow⟩

/-- A command of a kind ends with a code: the command entries that wait on it end (R336). -/
def cmdEnd (s : State) (kind unit : Nat) (code : Code) : State :=
  let hit := fun (j : CmdJob) => j.kind == kind && j.unit == unit
  let s' := { s with cmdJobs := s.cmdJobs.filter fun j => !hit j }
  (s.cmdJobs.filter hit).foldl (fun s j => s.post j.queue (plainRec j.queue j.tag j.sqHead code)) s'

end State

end Sys2Proof.Machine
end

