-- ==== Sys2Proof/Machine/Well.lean ====
section
/-!
DEFINITION. The well's flash and its log (R257 to R274): codewords and their parity, blocks and stripe blocks, programs,
moves, the map with its journal and checkpoint, and the write budget.
-/

namespace Sys2Proof.Machine

/-! ### Places (R257, R258) -/

/-- Blocks of a half, and the stripe blocks that they form: 1,242 blocks by 4 planes by 8 groups. -/
def blockCount : Nat := 635904
def stripeCount : Nat := 39744

/-- A block's number: bits [33:14] of the PCAs in it. -/
def bidAt (chan group plane block : Nat) : Nat := block + 2 ^ 11 * plane + 2 ^ 13 * group + 2 ^ 16 * chan

/-- PCA of a codeword of a block. -/
def pcaAt (h bid page cw : Nat) : Nat := cw + 2 ^ 3 * page + 2 ^ 14 * bid + 2 ^ 34 * h

def pcaBid (pca : Nat) : Nat := bitsOf pca 33 14
def pcaChan (pca : Nat) : Nat := bitsOf pca 33 30
def pcaGroup (pca : Nat) : Nat := bitsOf pca 29 27

/-- The die of a block, as 8 times its channel plus its place in the channel. -/
def dieOf (bid : Nat) : Nat := 8 * (bid / 2 ^ 16) + bid / 2 ^ 13 % 8

/-! ### Codewords (R259, R280) -/

/-- The tweak of a codeword's data unit. -/
def tweakOf (h lpn : Nat) : Nat := lpn + 2 ^ 34 * h

/-- The 2,256 bytes of a codeword: ciphertext, header, LDPC parity. -/
def Cell.stored (h : Nat) (c : Cell) : List Byte :=
  let body := (List.range 2048).map (Config.xts c.key (tweakOf h c.lpn) c.data) ++ leBytes 8 (c.lpn + 2 ^ 34 * c.kind) ++ leBytes 8 c.seq
  body ++ (List.range 192).map (Config.ldpc body)

/-- The data of a codeword, deciphered under a media key. -/
def Cell.plain (h key : Nat) (c : Cell) : List Byte :=
  if c.key = key then c.data else (List.range 2048).map (Config.xtsWrong c.key key (tweakOf h c.lpn) c.data)

/-- Bitwise exclusive-or of codewords. -/
def xorAll (cs : List (List Byte)) : List Byte :=
  cs.foldl (List.zipWith fun a b => a ^^^ b) (List.replicate 2256 0)

/-- Bytes filled with zeros to a codeword's data. -/
def padData (bs : List Byte) : List Byte := bs ++ List.replicate (2048 - bs.length) 0

/-- Bytes cut into the data of codewords. -/
def dataWords (bs : List Byte) : List (List Byte) :=
  (List.range ((bs.length + 2047) / 2048)).map fun i => padData ((bs.drop (2048 * i)).take 2048)

/-- What a program writes as one codeword: kind, number, data. -/
abbrev Codeword := Nat × Nat × List Byte

/-- A block that was never used: offsets of zero (log entry 18). -/
def Blk.fresh : Blk := ⟨0, 0, List.replicate 7 0, 0, 0, none⟩

namespace Well

/-! ### Blocks -/

def blk (w : Well) (b : Nat) : Blk := w.blocks.getD b Blk.fresh
def setBlk (w : Well) (b : Nat) (x : Blk) : Well := { w with blocks := w.blocks.set b x }

/-- The bad-block table (R273). -/
def bad (w : Well) (b : Nat) : Bool := w.factory.contains b || w.grown.contains b

/-- Channels whose die of a group has failed, and those of dies in service. -/
def dead (w : Well) (group : Nat) : List Nat := (w.failed.filter (· % 8 == group)).map (· / 8)
def live (w : Well) (group : Nat) : List Nat := (List.range 16).filter fun c => !(w.dead group).contains c

/-- The reading of a channel's package (R270): a package has four channels of a half. -/
def tempOf (w : Well) (chan : Nat) : Nat := w.temps.getD (chan / 4) 0

/-- Blocks of dies in service that are in a stripe block or bad. -/
def taken (w : Well) : List Nat :=
  let used := (w.blocks.filter fun kv => kv.2.stripe.isSome).map (·.1)
  ((w.factory ++ w.grown).foldl setInsert used).filter fun b => !w.failed.contains (dieOf b)

/-- Free good blocks (R269). -/
def freeBlocks (w : Well) : Nat := 4968 * (128 - w.failed.length) - w.taken.length

/-- Free stripe blocks (R266): those that the free good blocks of each group and plane can form; a group with fewer than
two dies in service forms none. -/
def freeStripes (w : Well) : Nat :=
  let t := w.taken
  ((List.range 8).flatMap fun g => (List.range 4).map fun p =>
    if (w.live g).length < 2 then 0
    else 1242 - ((w.live g).map fun c => (t.filter fun b => b / 2 ^ 11 == p + 4 * g + 32 * c).length).foldl max 0).sum

/-- The first block of a die's plane, from one on, that was never used. -/
def firstFresh (w : Well) (base b : Nat) : Nat → Option Nat
  | 0 => none
  | n + 1 => if (w.blocks.get? (base + b)).isNone && !w.bad (base + b) then some b else w.firstFresh base (b + 1) n

/-- Free good blocks of a die's plane that were erased before, with their erase counts. -/
def usedFree (w : Well) (base : Nat) : List (Nat × Nat) :=
  (w.blocks.filter fun kv => kv.1 / 2 ^ 11 == base / 2 ^ 11 && kv.2.stripe.isNone && !w.bad kv.1).map fun kv => (kv.2.erases, kv.1 - base)

/-- The block of a die's plane that a new stripe block takes, with its erase count: the least worn, or the most worn
(R267; log entry 21). -/
def pick (w : Well) (worn : Bool) (base : Nat) : Option (Nat × Nat) :=
  let fresh := (w.firstFresh base 0 1242).map fun b => (0, b)
  let best := (w.usedFree base).foldl (fun (acc : Option (Nat × Nat)) x =>
    match acc with
    | none => some x
    | some a => if (if worn then decide (a.1 < x.1) else decide (x.1 < a.1)) then some x else acc) none
  if worn then best <|> fresh else fresh <|> best

/-- One good block on each die in service of a group, on one plane: erase count, channel, block. -/
def draft (w : Well) (worn : Bool) (group plane : Nat) : Option (List (Nat × Nat × Nat)) :=
  (w.live group).mapM fun c => (w.pick worn (bidAt c group plane 0)).map fun x => (x.1, c, x.2)

/-- The stripe blocks of the four planes of a group. -/
def drafts (w : Well) (worn : Bool) (group : Nat) : Option (List (List (Nat × Nat × Nat))) :=
  if (w.live group).length < 2 then none else (List.range 4).mapM fun p => w.draft worn group p

/-- The group whose blocks are least worn, or most worn, with its stripe blocks (R267; log entry 21). -/
def bestDraft (w : Well) (worn : Bool) : Option (Nat × List (List (Nat × Nat × Nat))) :=
  let wear := fun (d : List (List (Nat × Nat × Nat))) => (d.map fun x => (x.map (·.1)).sum).sum
  (List.range 8).foldl (fun (acc : Option (Nat × List (List (Nat × Nat × Nat)))) g =>
    match w.drafts worn g with
    | none => acc
    | some d => match acc with
      | none => some (g, d)
      | some a => if (if worn then decide (wear a.2 < wear d) else decide (wear d < wear a.2)) then some (g, d) else acc) none

/-- Open one stripe block on each plane of a group (R257: a one-pass program writes all four). -/
def openSet (w : Well) (worn : Bool) : Option Well :=
  (w.bestDraft worn).map fun (g, d) =>
    let w := d.zipIdx.foldl (fun (w : Well) xp =>
      let n := w.nextStripe
      let blks := xp.1.map fun x => (x.2.1, x.2.2)
      let w := blks.foldl (fun (w : Well) cb =>
        let b := bidAt cb.1 g xp.2 cb.2
        w.setBlk b { w.blk b with reads := 0, hot := w.tempOf cb.1, rot := 0, stripe := some n }) w
      { w with stripes := w.stripes.set n ⟨g, xp.2, blks, 0, false⟩, nextStripe := n + 1 }) w
    { w with opened := (List.range 4).map (w.nextStripe - 4 + ·) }

/-! ### Stripe blocks and programs (R257, R260) -/

def stripe (w : Well) (n : Nat) : Stripe := w.stripes.getD n ⟨0, 0, [], 0, true⟩

/-- Blocks of a stripe block. -/
def bidsOf (x : Stripe) : List Nat := x.blks.map fun cb => bidAt cb.1 x.group x.plane cb.2

/-- Blocks of a stripe block from its parity block on: that of channel s mod 16, or with its die failed of the next
channel in service (R260, R274). -/
def parityFirst (w : Well) (n : Nat) : List Nat :=
  let x := w.stripe n
  ((List.range 16).map fun i => (n + i) % 16).flatMap fun c =>
    (x.blks.filter (·.1 == c)).map fun cb => bidAt c x.group x.plane cb.2

/-- Places of the data codewords of a page position of a stripe block. -/
def slots (w : Well) (h n page : Nat) : List Nat :=
  ((w.parityFirst n).drop 1).flatMap fun b => (List.range 8).map fun k => pcaAt h b page k

/-- The stored bytes at a place of a data page; a place left empty holds the zero codeword (log entry 21). -/
def storedAt (w : Well) (h pca : Nat) : List Byte :=
  match w.cells.get? pca with
  | some c => c.stored h
  | none => List.replicate 2256 0

/-- Write the parity page of a page position (R260). -/
def putParity (w : Well) (h n page : Nat) : Well :=
  match w.parityFirst n with
  | [] => w
  | p :: rest => { w with parity := (List.range 8).foldl (fun (m : SMap (List Byte)) k =>
      m.set (pcaAt h p page k) (xorAll (rest.map fun b => w.storedAt h (pcaAt h b page k)))) w.parity }

/-- A codeword lies at a place: what points to it changes in the same step (R264). -/
def put (w : Well) (pca : Nat) (e : Codeword) : Well :=
  let w := { w with cells := w.cells.set pca ⟨e.1, e.2.1, w.seq + 1, w.key, e.2.2⟩, seq := w.seq + 1 }
  match e.1 with
  | 0 => { w with
      map := w.map.set e.2.1 pca
      pend := w.pend ++ [(e.2.1, some pca)]
      touched := setInsert w.touched (e.2.1 / 256) }
  | 1 => { w with mapAt := w.mapAt.set e.2.1 pca }
  | 2 => { w with jourAt := setInsert w.jourAt pca }
  | _ => { w with sysAt := setInsert w.sysAt pca }

/-- Page positions of the open set's next wordline: its lower, middle and upper pages. -/
def wordline (w : Well) : List Nat :=
  match w.opened with
  | [] => []
  | n :: _ => (List.range 3).map ((w.stripe n).pos + ·)

/-- Places that one program of the open set fills: three pages of a wordline on all four planes of each die. -/
def places (w : Well) (h : Nat) : List Nat :=
  w.wordline.flatMap fun page => w.opened.flatMap fun n => w.slots h n page

/-- How many they are. -/
def room (w : Well) : Nat := (w.opened.map fun n => 24 * ((w.stripe n).blks.length - 1)).sum

/-- One program of the open set (R257, R260); after wordline 511 it is full. -/
def program (w : Well) (h : Nat) (es : List Codeword) : Well :=
  let w1 := ((w.places h).zip es).foldl (fun w x => w.put x.1 x.2) w
  let w1 := w.wordline.foldl (fun w1 page => w.opened.foldl (fun w1 n => w1.putParity h n page) w1) w1
  let w1 := w.opened.foldl (fun (w1 : Well) n => { w1 with
    stripes := w1.stripes.set n { w1.stripe n with pos := (w1.stripe n).pos + 3 }
    programmed := w1.programmed + 24 * (w1.stripe n).blks.length }) w1
  { w1 with opened := if w1.wordline.all (· < 1536) then w.opened else [] }

/-- Write codewords to the log (R266), in the open set alone or through as many sets as it takes; what does not fit
stays out. -/
def place (w : Well) (h : Nat) (one : Bool) (es : List Codeword) : Nat → Well × List Codeword
  | 0 => (w, es)
  | n + 1 =>
    if es.isEmpty then (w, [])
    else match (if !w.opened.isEmpty then some w else if one then none else w.openSet false) with
      | none => (w, es)
      | some w1 => (w1.program h (es.take w1.room)).place h one (es.drop w1.room) n

/-- Write codewords to the log; none when the free blocks do not take them all. -/
def log (w : Well) (h : Nat) (es : List Codeword) : Option Well :=
  let (w1, left) := w.place h false es es.length
  if left.isEmpty then some w1 else none

/-! ### Moves (R264) -/

/-- A codeword is the current one of what it holds. -/
def current (w : Well) (pca : Nat) (c : Cell) : Bool :=
  match c.kind with
  | 0 => w.map.get? c.lpn == some pca && !w.lost.contains c.lpn
  | 1 => w.mapAt.get? c.lpn == some pca
  | 2 => w.jourAt.contains pca
  | _ => w.sysAt.contains pca

/-- A PCA lies in a stripe block. -/
def inStripe (w : Well) (n pca : Nat) : Bool := (w.blk (pcaBid pca)).stripe == some n

/-- Valid codewords of a stripe block. -/
def validOf (w : Well) (n : Nat) : SMap Cell := w.cells.filter fun kv => w.inStripe n kv.1 && w.current kv.1 kv.2

/-- A stripe block takes no more programs: its set is closed. -/
def close (w : Well) (n : Nat) : Well := if w.opened.contains n then { w with opened := [] } else w

/-- Move every valid codeword of a stripe block, which then waits for its erase (R264): into the log, or into the most
worn free blocks (R267). None when the free blocks do not take them all. -/
def vacate (w : Well) (h n : Nat) (worn : Bool) : Option Well :=
  let es : List Codeword := (w.validOf n).map fun kv => (kv.2.kind, kv.2.lpn, kv.2.plain h w.key)
  let out := fun (l : List Nat) => l.filter fun pca => !w.inStripe n pca
  let w1 := { w.close n with jourAt := out w.jourAt, sysAt := out w.sysAt }
  let w2 := if worn then { w1 with opened := [] }.openSet true else some w1
  w2.bind fun w2 =>
    let (w3, left) := w2.place h worn es es.length
    let w4 := if worn then { w3 with opened := w1.opened } else w3
    (w4.log h left).map fun w5 =>
      { w5 with stripes := w5.stripes.set n { w5.stripe n with gone := true }, erasing := w5.erasing ++ [n] }

/-- A stripe block is erased: its blocks are free, each with one more erase. -/
def erase (w : Well) (n : Nat) : Well :=
  let keep := fun (pca : Nat) => !w.inStripe n pca
  { w with
    cells := w.cells.filter fun kv => keep kv.1
    parity := w.parity.filter fun kv => keep kv.1
    blocks := w.blocks.mapV fun _ x => if x.stripe = some n then { x with erases := x.erases + 1, reads := 0, rot := 0, stripe := none } else x
    stripes := w.stripes.erase n
    erasing := setErase w.erasing n
    sanit := setErase w.sanit n }

/-- A codeword reconstructed from those at its position on the other dies (R261): none when another die of its stripe
block has failed, or when what they give is not the codeword. -/
def rebuilt (w : Well) (h pca : Nat) : Option Cell :=
  (w.blk (pcaBid pca)).stripe.bind fun n =>
    let x := w.stripe n
    if x.blks.any fun cb => cb.1 != pcaChan pca && (w.dead x.group).contains cb.1 then none
    else match w.parityFirst n with
      | [] => none
      | p :: rest =>
        let at_ := fun b => pcaAt h b (bitsOf pca 13 3) (bitsOf pca 2 0)
        let others := (rest.filter fun b => b != pcaBid pca).map fun b => w.storedAt h (at_ b)
        let bytes := xorAll (w.parity.getD (at_ p) (List.replicate 2256 0) :: others)
        (w.cells.get? pca).bind fun c => if bytes = c.stored h then some c else none

/-! ### The map in flash (R266) -/

/-- An 8-byte map entry (R262). -/
def mapEntry (e : Option Nat) : List Byte := leBytes 8 (match e with | some pca => pca + 2 ^ 35 | none => 0)

/-- A map page: the entries of 256 LPNs. -/
def mapPage (w : Well) (m : Nat) : List Byte := (List.range 256).flatMap fun i => mapEntry (w.map.get? (256 * m + i))

/-- A journal entry; the spec fixes no format (log entry 21). -/
def jourEntry (e : Nat × Option Nat) : List Byte := leBytes 8 e.1 ++ mapEntry e.2

/-- Journal codewords of the changes that the journal lacks, and of a marker. -/
def jourWords (w : Well) (marker : Nat) : List Codeword :=
  (dataWords (w.pend.flatMap jourEntry) ++ (if marker = 0 then [] else [padData (leBytes 8 (2 ^ 63 + marker))])).map fun d => (2, 0, d)

/-- The journal in flash comes to hold every map change (R266), and ends with a marker or none. -/
def journal (w : Well) (h marker : Nat) : Option Well :=
  (w.log h (w.jourWords marker)).map fun w => { w with pend := [], jmap := w.map, jseq := w.seq, unacked := [], marker := marker }

/-- Codewords of a checkpoint; the spec fixes no format (log entry 21). -/
def sysWords (c : Ckpt) : List Codeword :=
  (dataWords (c.mapAt.flatMap (fun kv => leBytes 8 kv.1 ++ leBytes 8 kv.2) ++ c.bad.flatMap (leBytes 8)
    ++ c.wear.flatMap (fun kv => leBytes 8 kv.1 ++ leBytes 8 kv.2)
    ++ c.offsets.flatMap (fun kv => leBytes 8 kv.1 ++ kv.2.map (BitVec.ofInt 8)))).map fun d => (3, 0, d)

/-- What a checkpoint holds. -/
def tables (w : Well) : Ckpt :=
  ⟨w.mapAt, w.factory ++ w.grown, w.blocks.map fun kv => (kv.1, kv.2.erases), w.blocks.map fun kv => (kv.1, kv.2.offsets)⟩

/-- A checkpoint (R266): the map pages that changed, then the tables; the journal's older codewords and those of the
last checkpoint are released. -/
def checkpoint (w : Well) (h : Nat) : Option Well :=
  (w.journal h w.marker).bind fun w =>
    (w.log h (w.touched.map fun m => (1, m, w.mapPage m))).bind fun w1 =>
      let w1 := { w1 with touched := [], sysAt := [], ckpt := w1.tables }
      (w1.log h (sysWords w1.ckpt)).map fun w2 => { w2 with jourAt := [] }

/-- A mount of a half finds its map (R279): as the journal gives it after a marker, else with the codewords programmed
after its last write. It loads the checkpoint's read-level offsets, and the wrapped media key (R280). -/
def mount (w : Well) : Well :=
  let late := if w.marker = 0 then w.cells.filter fun kv => decide (w.jseq < kv.2.seq) && kv.2.kind == 0 else []
  let newer := fun (m : SMap (Nat × Nat)) (kv : Nat × Cell) =>
    match m.get? kv.2.lpn with
    | some (q, _) => if q < kv.2.seq then m.set kv.2.lpn (kv.2.seq, kv.1) else m
    | none => m.set kv.2.lpn (kv.2.seq, kv.1)
  let map := (late.foldl newer []).foldl (fun (m : SMap Nat) kv => m.set kv.1 kv.2.2) w.jmap
  { w with
    map := map
    pend := []
    jmap := map
    jseq := w.seq
    key := w.wrapped
    blocks := w.blocks.mapV fun b x => { x with offsets := w.ckpt.offsets.getD b Blk.fresh.offsets } }

/-! ### Wear and the daily write budget (R267, R268) -/

/-- Good blocks of a half. -/
def goodCount (w : Well) : Nat := blockCount - ((w.grown.foldl setInsert w.factory)).length

/-- Erase counts of the good blocks that were ever used. -/
def eraseCounts (w : Well) : List Nat := (w.blocks.filter fun kv => !w.bad kv.1).map (·.2.erases)

/-- The largest erase count of a good block, PE_MAX, and the smallest. -/
def eraseMax (w : Well) : Nat := w.eraseCounts.foldl max 0
def eraseMin (w : Well) : Nat := if w.eraseCounts.length < w.goodCount then 0 else w.eraseCounts.foldl min w.eraseMax

/-- The mean erase count of the good blocks. -/
def eraseMean (w : Well) : Rat := (w.eraseCounts.sum : Nat) / (w.goodCount : Nat)

/-- The first program of a day keeps the counts of R267 as the day began; 30 days are kept. -/
def mark (w : Well) (day : Nat) : Well :=
  if w.marks.any (·.1 == day) then w
  else { w with marks := (w.marks.filter fun m => decide (day < m.1 + 30)) ++ [(day, w.written, w.programmed)] }

/-- Write amplification over the last 30 days, never below 16/15 (R267; log entry 22). -/
def writeAmp (w : Well) (day : Nat) : Rat :=
  match w.marks.find? fun m => decide (day < m.1 + 30) with
  | none => 16 / 15
  | some (_, wr, pr) => max (16 / 15) (((w.programmed - pr : Nat) : Rat) / ((w.written - wr : Nat) : Rat))

/-- B of R268 for one half, in GB per day. -/
def budget (w : Well) (day : Nat) : Rat :=
  max 0 (3000 - w.eraseMean) * 16000 / (max 2 (w.writeAmp day) * (max 30 (1826 - day) : Nat))

/-! ### Requests (R262, R263) -/

/-- The data that a READ of an LPN gives without the flash: from the write buffer, or zero when it was never
written or is trimmed. -/
def quick (w : Well) (lpn : Nat) : Option (List Byte) :=
  match (w.buf.filter (·.lpn == lpn)).getLast? with
  | some b => some b.data
  | none => if (w.map.get? lpn).isNone then some (List.replicate 2048 0) else none

/-- Contents of an LPN as the well holds it: in its write buffer, or programmed. -/
def bytes (w : Well) (h lpn : Nat) : List Byte :=
  (w.quick lpn).getD (match (w.map.get? lpn).bind w.cells.get? with
    | some c => c.plain h w.key
    | none => List.replicate 2048 0)

end Well

/-- To the nearest whole number (log entry 22). -/
def nearest (q : Rat) : Nat := (q + 1 / 2).floor.toNat

namespace State

def well (s : State) (h : Nat) : Well := s.wells.getD h Well.reset
def setWell (s : State) (h : Nat) (w : Well) : State := { s with wells := s.wells.set h w }
def modWell (s : State) (h : Nat) (f : Well → Well) : State := s.setWell h (f (s.well h))

/-- WEL_STATE bits. -/
def wellUp (s : State) : Bool := s.flag .welState 0 0
def wellShut (s : State) : Bool := s.flag .welState 0 5
def holdupOk (s : State) : Bool := s.flag .welState 0 3
def wellMode (s : State) (h : Nat) : Nat := s.fld .whState h 1 0

/-- A half's requests without one. -/
def dropReq (s : State) (h : Nat) (r : WellReq) : State := s.modWell h fun w => { w with reqs := w.reqs.erase r }

/-- A page's WRITE is acknowledged: the page is clean unless it was dirtied again (R233, R263). -/
def ackPage (s : State) (id : Nat) : State :=
  match s.pages.get? id with
  | none => s
  | some p =>
    { s with pages := s.pages.set id { p with
        writing := false
        dirty := p.again
        again := none
        above := false } }

/-- A page's WRITE is refused: it stays dirty in its place (R233, R265, R269), and its tokens and its bytes above
the budget come back (R234). -/
def refusePage (s : State) (id : Nat) : State :=
  match s.pages.get? id with
  | none => s
  | some p =>
    let s := { s with pages := s.pages.set id { p with writing := false, again := none, above := false }, tokens := s.tokens + 4320 * 2048 }
    if p.above then { s with overBytes := s.overBytes - 2048 } else s

/-- An answer to a READ goes to the row-page cache. -/
def answer (s : State) (h lpn : Nat) (code : Code) (data : List Byte) : State :=
  s.modWell h fun w => { w with arrived := w.arrived ++ [(lpn, code, data)] }

/-- Days in service: 24 hours of powered operation each, in keeper ticks (R268). -/
def serviceDays (s : State) : Nat := (s.powered + s.ticks) / 4320000000000

/-- A half enters READ_ONLY (R269). -/
def readOnly (s : State) (h : Nat) : State :=
  if s.wellMode h = 2 then s
  else (s.setFld .whState h 1 0 2).raise 0x07 (16 * h) .state 0x09

/-- The condition of R269 on free good blocks: below 0.5 % beside the room for reclaim. -/
def checkFree (s : State) (h : Nat) : State :=
  if ((s.well h).freeBlocks - Config.reclaimRoom) * 200 < blockCount then s.readOnly h else s

/-- A half writes to its log: programs count for the day, and R269 is tested. None when the free blocks do not suffice. -/
def logged (s : State) (h : Nat) (f : Well → Option Well) : Option State :=
  (f ((s.well h).mark s.serviceDays)).map fun w => (s.setWell h w).checkFree h

/-- A half above 70 °C defers programs (R446). -/
def defers (s : State) (h : Nat) : Bool := s.nandHot.contains h

/-- The same, changing nothing while programs are deferred or when the free blocks do not suffice. -/
def tryLog (s : State) (h : Nat) (f : Well → Option Well) : State := if s.defers h then s else (s.logged h f).getD s

/-- A die fails (R274): its group loses its redundancy until it is rebuilt. A fifth die, or a second one of a stripe
block, makes the half READ_ONLY (R269). -/
def failDie (s : State) (h die : Nat) : State :=
  let w := s.well h
  if w.failed.contains die then s
  else
    let g := die % 8
    let s := s.setWell h { w with
      failed := w.failed ++ [die]
      rebuilding := setInsert w.rebuilding g
      opened := if w.opened.any fun n => (w.stripe n).group == g then [] else w.opened }
    let s := if s.wellMode h = 0 then s.setFld .whState h 1 0 1 else s
    let dead := (s.well h).dead g
    let twice := w.stripes.any fun kv => kv.2.group == g && decide (2 ≤ (kv.2.blks.filter fun cb => dead.contains cb.1).length)
    (if twice || 5 ≤ (s.well h).failed.length then s.readOnly h else s).checkFree h

/-- A block becomes a grown bad block (R273), its stripe block takes no more programs; three blocks of one die within an
hour fail it (R274). -/
def growBad (s : State) (h bid : Nat) : State :=
  let w := s.well h
  let fails := (bid, s.ticks) :: w.fails.filter fun f => decide (s.ticks < f.2 + 180000000000)
  let s1 := s.setWell h { w with
    grown := setInsert w.grown bid
    fails := fails
    opened := if w.opened.any fun n => (w.blk bid).stripe == some n then [] else w.opened }
  let s1 := if w.grown.contains bid then s1 else s1.raise 0x07 (16 * h + bid / 2 ^ 16) .media 0x01 none 0 (pcaAt h bid 0 0)
  let failed := ((fails.map (·.1)).filter fun b => dieOf b == dieOf bid).eraseDups
  (if 3 ≤ failed.length then s1.failDie h (dieOf bid) else s1).checkFree h

/-- A stripe block is refresh-relocated for a block of it (R260, R272). -/
def relocate (s : State) (h n : Nat) : State :=
  if ((s.well h).stripe n).gone || s.defers h then s
  else match s.logged h fun w => w.vacate h n false with
    | some s1 => s1.bump .whReloc h 1
    | none => s

/-- Program the write buffer and write the journal with a marker (R276 steps 3 and 4, R278, R281). Without free blocks for
them the buffer keeps what does not fit, and no marker is written. -/
def drainWell (s : State) (h marker : Nat) : State :=
  let w := (s.well h).mark s.serviceDays
  let (w1, left) := w.place h false (w.buf.map fun b => (0, b.lpn, b.data)) w.buf.length
  let n := w.buf.length - left.length
  let w1 := { w1 with buf := w.buf.drop n, written := w.written + n }
  let late := ((w.buf.take n).filter (fun b => !b.acked)).map (·.page)
  match (if left.isEmpty then w1.journal h marker else none) with
  | some w2 => ((w.unacked.map (·.2)) ++ late).foldl ackPage ((s.setWell h w2).checkFree h)
  | none => (s.setWell h w1).checkFree h

/-- A half reports its budget and counts its days in service (R268). -/
def reportBudget (s : State) (h : Nat) : State :=
  s.modWell h fun w => { w with days := s.serviceDays, rated := w.budget s.serviceDays }

/-- The module's budget, as LKE_GOV_BUDGET takes it at mount. -/
def moduleBudget (s : State) : Nat := min 0xFFFF (nearest ((s.well 0).rated + (s.well 1).rated))

end State

/-- A well command ends with a code (WEL_CMD_STATE), and with it the entry that waits on it (R336). -/
def endWelCmd (code : Code) (s : State) : State :=
  ({ s with welRun := none }.setReg .welCmdState 0 (BitVec.ofNat 32 (2 + 4 * code.toNat))).cmdEnd 1 0 code

end Sys2Proof.Machine
end

