-- ==== Sys2Proof/Machine/Tables.lean ====
section
/-!
DEFINITION. Tables (R177 to R183, R207 to R216, R220 to R224): rows and their values, homes, row pages and
locators, the row-page cache, and what every change of a row does to hot copies, pages and migrations.
-/

namespace Sys2Proof.Machine

namespace Table

/-- Element format of a table. -/
def f (t : Table) : Fmt := (Fmt.ofCode t.fmt).getD .bf16

/-- Elements of a block. -/
def block (t : Table) : Nat := if t.scaling = 1 then 32 else if t.scaling = 2 then 16 else 0

/-- Blocks of a row. -/
def blocks (t : Table) : Nat := if t.block = 0 then 0 else (t.elems + t.block - 1) / t.block

/-- Elements stored in a row (R182). -/
def stored (t : Table) : Nat := if t.block = 0 then t.elems else t.blocks * t.block

/-- Bytes of the elements. -/
def elemBytes (t : Table) : Nat := (t.stored * t.f.bits + 7) / 8

/-- Place of the row scale, after the block scales. -/
def scaleAt (t : Table) : Nat := (t.elemBytes + t.blocks + 3) / 4 * 4

/-- Row size (R182). -/
def rowSize (t : Table) : Nat := t.scaleAt + 4 * bit t.rsc + 4 * bit t.rbi

/-- Rows of a SEQUENTIAL page (R208). -/
def perPage (t : Table) : Nat := 2048 / t.rowSize

/-- Row group of a row, and the row within its group (R178, R208). -/
def groupOf (t : Table) (row : Nat) : Nat := row / 2 ^ t.gshift
def inGroup (t : Table) (row : Nat) : Nat := row % 2 ^ t.gshift

/-- The format keeps an update shadow (R191). -/
def shadowed (t : Table) : Bool := t.f != .bf16 && t.f != .fp16

/-- Placement of an instar: PACKED (R220). -/
def packed (t : Table) (inst : Nat) : Bool := if inst = t.cur then t.packCur else t.packOther

/-- Live instars. -/
def live (t : Table) : List Nat := if t.ostate = 0 then [t.cur] else [t.cur, t.other]

/-- An instar is served (R222). -/
def serves (t : Table) (inst : Nat) : Bool := inst == t.cur || (inst == t.other && decide (2 ≤ t.ostate))

/-- An FP32 word of a stored row. -/
def word (bs : List Byte) (at_ : Nat) : BitVec 32 := BitVec.ofNat 32 (leNat ((bs.drop at_).take 4))

/-- Row scale and row bias of a stored row (R183). -/
def scaleOf (t : Table) (bs : List Byte) : FVal := if t.rsc then ofF32 (word bs t.scaleAt) else .one
def biasOf (t : Table) (bs : List Byte) : FVal :=
  if t.rbi then ofF32 (word bs (t.scaleAt + 4 * bit t.rsc)) else .zero

/-- Element codes and block scale codes of a stored row (R182). -/
def codes (t : Table) (bs : List Byte) : List Nat := unpack t.f.bits t.elems (bs.take t.elemBytes)
def scales (t : Table) (bs : List Byte) : List Nat := ((bs.drop t.elemBytes).take t.blocks).map BitVec.toNat

/-- The value of each element of a stored row: one rounding of d, one of d * s + b (R183). -/
def values (t : Table) (bs : List Byte) : List FVal :=
  let s := t.scaleOf bs
  let b := t.biasOf bs
  let sc := t.scales bs
  (t.codes bs).zipIdx.map fun (c, i) =>
    let d := (elemVal t.f t.scaling c).mul
      ((scaleVal t.scaling (sc.getD (i / max 1 t.block) 0)).mul (tensorScale t.scaling t.tscale))
    rnd32 ((rnd32 d).mul s |>.add b)

end Table

namespace State

def table (s : State) (tid : Nat) : Option Table := s.tables.get? tid
def setTable (s : State) (tid : Nat) (t : Table) : State := { s with tables := s.tables.set tid t }

/-- Key of a row group in the directory. -/
def dirKey (tid group : Nat) : Nat := tid * 2 ^ 42 + group

/-- Home of a row group: node and engine (R178, R216). -/
def homeOf (s : State) (tid : Nat) (t : Table) (group : Nat) : Nat × Nat :=
  match s.dir.get? (dirKey tid group) with
  | some ⟨0, _, e, _, _⟩ => (s.node, e)
  | some ⟨2, _, _, home, _⟩ => (s.node, home)
  | some ⟨_, n, e, _, _⟩ => (n, e)
  | none => t.shards.getD (group % t.shards.length) (0, 0)

/-! ### Row pages -/

def page (s : State) (id : Nat) : Option Page := s.pages.get? id

/-- The page of an instar by its place (R207, R208). -/
def findPage (s : State) (tid inst group page : Nat) (loc packed : Bool) : Option Nat :=
  (s.pages.find? fun kv => kv.2.tid == tid && kv.2.insts.contains inst && kv.2.group == group &&
    kv.2.page == page && kv.2.loc == loc && kv.2.packed == packed).map (·.1)

/-- Contents of a page in the cache. -/
def pageData (s : State) (id : Nat) : Option (List Byte) := (s.page id).bind (·.data)

end State

/-- Where a row lies: in a cached page at a byte, in a page that is not cached, behind a poisoned locator of a
page (R223), or nowhere yet, which reads as zero (R180, R224). -/
inductive RowAt where
  | at_ (id off : Nat) | miss (id : Nat) | bad (id : Nat) | zero
deriving DecidableEq, Repr

namespace State

/-- A row in a page found, at a byte. -/
def rowIn (s : State) (id : Option Nat) (off : Nat) : RowAt :=
  match id with
  | none => .zero
  | some id => if (s.pageData id).isSome then .at_ id off else .miss id

/-- A row under SEQUENTIAL placement (R208). -/
def seqAt (s : State) (tid : Nat) (t : Table) (inst row : Nat) : RowAt :=
  let r := t.inGroup row
  s.rowIn (s.findPage tid inst (t.groupOf row) (r / t.perPage) false false) (r % t.perPage * t.rowSize)

/-- A row's locator, by its page and byte (R208). -/
def locAt (s : State) (tid : Nat) (t : Table) (inst row : Nat) : RowAt :=
  let r := t.inGroup row
  s.rowIn (s.findPage tid inst (t.groupOf row) (r / 512) true true) (4 * (r % 512))

/-- Some granule of a row in a page is poisoned. -/
def rowPoison (p : Page) (off n : Nat) : Bool := p.poison.any fun g => decide (off < 64 * g + 64) && decide (64 * g < off + n)

/-- A row found through its locator; a locator of zero names no slot (log entry 19), and a poisoned one leaves
the row poisoned (R223). -/
def packAt (s : State) (tid : Nat) (t : Table) (inst row : Nat) : RowAt :=
  match s.locAt tid t inst row with
  | .at_ id off =>
    if (s.page id).any fun p => rowPoison p off 4 then .bad id
    else
      let v := leNat ((((s.pageData id).getD []).drop off).take 4)
      if v = 0 then .zero
      else s.rowIn (s.findPage tid inst (t.groupOf row) (v % 2 ^ 23) false true) (4 * (v / 2 ^ 23))
  | r => r

/-- Where an instar's row lies. Under a CLONE with another placement, a row that has not been rewritten is
found as in the current instar (R224; log entry 23). -/
def rowAt (s : State) (tid : Nat) (t : Table) (inst row : Nat) : RowAt :=
  if t.packed inst then
    match s.packAt tid t inst row with
    | .zero => s.seqAt tid t inst row
    | r => r
  else match s.seqAt tid t inst row with
    | .zero => s.packAt tid t inst row
    | r => r

/-- The stored bytes of a row in a cached page, and whether they are poisoned. -/
def rowBytes (s : State) (t : Table) : RowAt → List Byte × Bool
  | .at_ id off =>
    match s.page id with
    | some p => (((p.data.getD []).drop off).take t.rowSize, rowPoison p off t.rowSize)
    | none => (List.replicate t.rowSize 0, false)
  | .bad _ => (List.replicate t.rowSize 0, true)
  | _ => (List.replicate t.rowSize 0, false)

/-! ### The row-page cache (R210 to R214) -/

/-- Row-page cache ways of one X die, in sets of 16. -/
def cacheSets (s : State) : Nat := max 1 (s.fld .cisPart 0 9 0 * 2 ^ 30 / 2048 / 16)

/-- Set of a page: the hash is not published (log entry 1). -/
def pageSet (s : State) (p : Page) : Nat :=
  Config.pageSet (p.page + 2 ^ 33 * (p.group + 2 ^ 42 * (p.hashed + 2 ^ 16 * (p.tid + 2 ^ 10 *
    (p.engine + 64 * (bit p.loc + 2 * bit p.packed)))))) % s.cacheSets

/-- Pages of a page's set that are cached on its die. -/
def setPages (s : State) (p : Page) : List (Nat × Page) :=
  s.pages.filter fun kv => kv.2.data.isSome && kv.2.engine / 32 == p.engine / 32 && s.pageSet kv.2 == s.pageSet p

/-- The least recently used page of a list. -/
def oldest : List (Nat × Page) → Option (Nat × Page)
  | [] => none
  | x :: rest => match oldest rest with
    | some y => if y.2.used < x.2.used then some y else some x
    | none => some x

/-- A page can leave the cache (R214). -/
def clean (p : Page) : Bool := p.dirty.isNone && !p.writing && p.poison.isEmpty

/-- A page leaves the cache; one that was never written back has no other place and is all zero. -/
def evict (s : State) (id : Nat) : State :=
  match s.page id with
  | none => s
  | some p =>
    if p.lpn.isNone then { s with pages := s.pages.erase id }
    else { s with pages := s.pages.set id { p with data := none } }

/-- Make room for a page in its set; none when every way is dirty (R213). -/
def makeRoom (s : State) (p : Page) : Option State :=
  let set := s.setPages p
  if set.length < 16 then some s
  else
    let free := set.filter fun kv => clean kv.2
    match oldest (free.filter fun kv => !kv.2.loc) <|> oldest free with
    | some v => some (s.evict v.1)
    | none => none

/-- The page becomes the most recently used. -/
def touch (s : State) (id : Nat) : State :=
  match s.page id with
  | some p => { s with pages := s.pages.set id { p with used := s.order }, order := s.order + 1 }
  | none => s

/-- A new page in the cache, clean. -/
def newPage (s : State) (p : Page) : Option (Nat × State) :=
  (s.makeRoom p).map fun s =>
    (s.nextPage, { s with
      pages := s.pages.set s.nextPage { p with used := s.order }
      nextPage := s.nextPage + 1
      order := s.order + 1 })

/-- A page is changed: it joins the log order unless it is dirty already (R233), and the delta map of a
migration of its group (R218). One dirtied again while its WRITE is under way takes a place that counts once the
WRITE is acknowledged. -/
def dirtyPage (s : State) (id : Nat) : State :=
  match s.page id with
  | none => s
  | some p =>
    let now := some (s.order, s.ticks)
    let p' := if p.dirty.isNone then { p with dirty := now }
      else if p.writing && p.again.isNone then { p with again := now }
      else p
    { s with
      pages := s.pages.set id p'
      order := s.order + 1
      migs := s.migs.mapV fun _ m =>
        if m.tid = p.tid ∧ m.group = p.group then { m with delta := setInsert m.delta id } else m }

/-- Poison of a page's granules after bytes are written: all of them poisoned, or those written whole clean. -/
def pagePoison (p : Page) (off n : Nat) (bad : Bool) : List Nat := clearGranules p.poison off n bad

/-- Write bytes into a cached page. -/
def writePage (s : State) (id off : Nat) (bs : List Byte) (bad : Bool := false) : State :=
  match s.page id with
  | none => s
  | some p =>
    let d := p.data.getD (List.replicate 2048 0)
    { s with pages := s.pages.set id { p with
        data := some (d.take off ++ bs ++ d.drop (off + bs.length))
        poison := if bad then pagePoison p off bs.length true else p.poison } }.dirtyPage id

/-- A row-page miss (R212): a new entry sends a READ to the well, a later one joins it; without room in the
die's pool or the engine's allowance nothing happens yet. -/
def missPage (s : State) (id : Nat) : State :=
  match s.page id with
  | none => s
  | some p =>
    if p.data.isSome then s
    else if p.miss then s.bump .rpcJoined 0 1
    else
      let die := p.engine / 32
      let out := s.pages.filter fun kv => kv.2.miss
      if 8192 ≤ (out.filter fun kv => kv.2.engine / 32 == die).length
          ∨ 1024 ≤ (out.filter fun kv => kv.2.engine == p.engine).length then s
      else
        let s := { s with pages := s.pages.set id { p with miss := true } }.bump .rpcMisses 0 1
        s.modWell die fun w => { w with reqs := w.reqs ++ [.read (p.lpn.getD 0)] }

/-- A page has a miss entry. -/
def missing (s : State) (id : Nat) : Bool := (s.page id).any (·.miss)

/-- The page whose miss entry a waiter has joined, after it needs a page: it joins an entry once (R212). -/
def await (s : State) (id : Nat) (have_ : Option Nat) : State × Option Nat :=
  if s.missing id ∧ have_ = some id then (s, have_)
  else
    let s1 := s.missPage id
    (s1, if s1.missing id then some id else none)

/-- A cached page is used, and whether the tag cache held its tag is a free value (R210, log entry 1). -/
def hitPage (s : State) (id : Nat) : State :=
  let (k, s) := s.draw
  let s := if (Config.freeAt k 0).getLsbD 0 then s.bump .rpcTagmiss 0 1 else s
  (s.bump .rpcHits 0 1).touch id

/-- The cached pages through which a row is reached are used: its locator's, if it has one, and its own (R211,
R213). -/
def useRow (s : State) (tid : Nat) (t : Table) (inst row id : Nat) : State :=
  match s.locAt tid t inst row with
  | .at_ l _ => (s.hitPage l).hitPage id
  | _ => s.hitPage id

/-- A page whose instars are all gone is dropped, its LPN trimmed (R181, R228). -/
def dropPage (s : State) (id : Nat) : State :=
  match s.page id with
  | none => s
  | some p =>
    let s := { s with pages := s.pages.erase id }
    match p.lpn with
    | some l => s.modWell (p.engine / 32) fun w => { w with reqs := w.reqs ++ [.trim l] }
    | none => s

/-- An instar leaves its pages. -/
def leavePages (s : State) (tid inst : Nat) : State :=
  (s.pages.filter fun kv => kv.2.tid == tid && kv.2.insts.contains inst).foldl (fun s kv =>
    if kv.2.insts = [inst] then s.dropPage kv.1
    else { s with pages := s.pages.set kv.1 { kv.2 with
      insts := kv.2.insts.filter (· != inst)
      rows := kv.2.rows.map fun l => l.filter (·.1 != inst) } }) s

end State

/-- What a change of a row needs: the row's own page and byte, a page to be read first, or a way of a set. -/
inductive Prep where
  | ready (s : State) (id off : Nat) | miss (id : Nat) | full

namespace State

/-- A cached page as a page of some of its instars alone: the page itself, or a copy (R224, R226). -/
def ownPage (s : State) (id : Nat) (insts : List Nat) : Option (Nat × State) :=
  match s.page id with
  | none => none
  | some p =>
    let mine := p.insts.filter insts.contains
    if mine = p.insts then some (id, s)
    else
      let of := fun (f : Nat → Bool) => p.rows.map fun l => l.filter fun x => f x.1
      (s.newPage { p with
          insts := mine
          hashed := mine.headD 0
          rows := of mine.contains
          lpn := none
          dirty := none
          writing := false
          again := none
          above := false
          miss := false
          swept := false }).map fun (n, s) =>
        (n, ({ s with pages := s.pages.set id { p with
            insts := p.insts.filter fun i => !mine.contains i
            rows := of fun i => !mine.contains i } }).dirtyPage n)

/-- A blank page of an instar. -/
def blank (tid group page engine inst : Nat) (loc packed : Bool) : Page :=
  { tid, group, page, loc, packed
    insts := [inst]
    engine
    data := some (List.replicate 2048 0)
    poison := []
    dirty := none
    writing := false
    again := none
    above := false
    miss := false
    lpn := none
    used := 0
    hashed := inst
    rows := some []
    swept := false
    fresh := [] }

/-- Bytes of a row in a page and its poisoned bytes, counted from the row's first. -/
def poisonIn (p : Page) (off n : Nat) : List Nat := (List.range n).filter fun i => p.poison.contains ((off + i) / 64)

/-- The rows of a new SEQUENTIAL page, as found elsewhere, with the poisoned bytes of the page (R224); the first
page that must be read, if any. A row behind a poisoned locator comes poisoned whole. -/
def gather (s : State) (tid : Nat) (t : Table) (inst : Nat) : Nat → List Nat → Except Nat (List Byte × List Nat)
  | _, [] => .ok ([], [])
  | at_, r :: rest =>
    match s.rowAt tid t inst r with
    | .miss id => .error id
    | a => match s.gather tid t inst (at_ + t.rowSize) rest with
      | .ok (bs, bad) =>
        let mine := match a with
          | .at_ id off => ((s.page id).map fun p => poisonIn p off t.rowSize).getD []
          | .bad _ => List.range t.rowSize
          | _ => []
        .ok ((s.rowBytes t a).1 ++ bs, mine.map (· + at_) ++ bad)
      | e => e

/-- The lowest page number of an instar's group that no page found through locators bears (R208, log entry
19). -/
def freshPage (s : State) (tid inst group : Nat) : Nat :=
  let used := (s.pages.filter fun kv => kv.2.tid == tid && kv.2.insts.contains inst && kv.2.group == group &&
    kv.2.packed && !kv.2.loc).map (·.2.page)
  ((List.range (used.length + 1)).find? fun i => !used.contains (i + 1)).getD 0 + 1

/-- The tail of a PACKED instar's group: page and byte where its next row goes. -/
def tailOf (s : State) (t : Table) (tid inst group : Nat) : Nat × Nat :=
  match s.tails.find? fun x => x.1 == tid && x.2.1 == inst && x.2.2.1 == group with
  | some (_, _, _, pg, off) => if off + t.rowSize ≤ 2048 then (pg, off) else (s.freshPage tid inst group, 0)
  | none => (s.freshPage tid inst group, 0)

def setTail (s : State) (tid inst group pg off : Nat) : State :=
  { s with tails := (tid, inst, group, pg, off) ::
      s.tails.filter fun x => !(x.1 == tid && x.2.1 == inst && x.2.2.1 == group) }

/-! ### Poison of pages (R223) -/

/-- A row of `n` bytes at a byte touches a granule. -/
def touches (off n g : Nat) : Bool := decide (off < 64 * g + 64) && decide (64 * g < off + n)

/-- Rows that a group's cached locators put into a page, as instar and row. -/
def locRows (s : State) (id : Nat) (p : Page) (t : Table) : List (Nat × Nat) :=
  p.insts.flatMap fun i =>
    let locs := s.pages.filter fun kv => kv.2.tid == p.tid && kv.2.group == p.group && kv.2.loc && kv.2.insts.contains i &&
      kv.2.data.isSome
    (locs.flatMap fun kv => (List.range 512).map fun k => p.group * 2 ^ t.gshift + 512 * kv.2.page + k).filterMap fun r =>
      match s.packAt p.tid t i r with
      | .at_ x _ => if x = id then some (i, r) else none
      | .miss x => if x = id then some (i, r) else none
      | _ => none

/-- Every locator page of a page's instars and group is cached. -/
def locsCached (s : State) (p : Page) : Bool :=
  s.pages.all fun kv => !(kv.2.tid == p.tid && kv.2.group == p.group && kv.2.loc && p.insts.any kv.2.insts.contains) ||
    kv.2.data.isSome

/-- Rows that live in a page found through locators. -/
def liveRows (s : State) (id : Nat) (p : Page) (t : Table) : Option (List (Nat × Nat)) :=
  match p.rows with
  | some l => some l
  | none => if s.locsCached p then some (s.locRows id p t) else none

/-- Bytes of a page at which rows, or the locators of rows, that exist begin. -/
def rowSlots (s : State) (id : Nat) (p : Page) (t : Table) : List Nat :=
  let has := fun (n z k : Nat) =>
    let r := p.page * n + k
    if r < 2 ^ t.gshift ∧ p.group * 2 ^ t.gshift + r < t.rows then some (k * z) else none
  if p.loc then (List.range 512).filterMap (has 512 4)
  else if p.packed then
    (p.rows.getD (s.locRows id p t)).filterMap fun r => match s.packAt p.tid t r.1 r.2 with
      | .at_ i off => if i = id then some off else none
      | .miss _ => some 0
      | _ => none
  else (List.range t.perPage).filterMap (has t.perPage t.rowSize)

/-- Poison after a row, or a locator, of `n` bytes has been written at a byte of a page: the granules `got` that
received poisoned bytes gain it, and those whose every row has been rewritten since lose it (R223). -/
def settlePoison (s : State) (id off n : Nat) (t : Table) (got : List Nat) : State :=
  match s.page id with
  | none => s
  | some p =>
    if p.poison.isEmpty && got.isEmpty then s
    else
      let fresh := if got.isEmpty then setInsert p.fresh off else p.fresh.filter fun o => !got.any (touches o n)
      let all := s.rowSlots id p t
      let poison := got.foldl setInsert (p.poison.filter fun g => (all.filter fun o => touches o n g).any fun o => !fresh.contains o)
      let d := p.data.getD (List.replicate 2048 0)
      let used := if p.loc then 2048 else t.perPage * n
      { s with pages := s.pages.set id { p with
          poison := poison
          fresh := if poison.isEmpty then [] else fresh
          -- Slack bytes are zero.
          data := some (d.take used ++ List.replicate (2048 - used) 0) } }

/-! ### A row's own place -/

/-- A page of an instar at a place, cached and its own; made when there is none. -/
def pageFor (s : State) (tid inst group page engine : Nat) (loc packed : Bool) (init : List Byte) : Prep :=
  match s.findPage tid inst group page loc packed with
  | some id =>
    if (s.pageData id).isNone then .miss id
    else match s.ownPage id [inst] with
      | some (id, s) => .ready s id 0
      | none => .full
  | none =>
    match s.newPage { blank tid group page engine inst loc packed with
        data := some (init ++ List.replicate (2048 - init.length) 0) } with
    | some (id, s) => .ready (s.dirtyPage id) id 0
    | none => .full

/-- A row of an instar lives in one page alone: it leaves the slot that it had (R215). -/
def moveIn (s : State) (tid inst row id : Nat) : State :=
  { s with pages := s.pages.mapV fun k p =>
      if p.tid ≠ tid then p
      else
        let left := p.rows.map fun l => l.filter (· != (inst, row))
        if k = id then { p with rows := left.map (· ++ [(inst, row)]) } else { p with rows := left } }

/-- A slot for a row of a PACKED instar: the next free one, with its locator written (R208). -/
def newSlot (s : State) (e tid : Nat) (t : Table) (inst row : Nat) : Prep :=
  let g := t.groupOf row
  let r := t.inGroup row
  match s.pageFor tid inst g (r / 512) e true true [] with
  | .ready s lp _ =>
    let (pg, off) := s.tailOf t tid inst g
    (match s.pageFor tid inst g pg e false true [] with
    | .ready s id _ =>
      let at_ := 4 * (r % 512)
      let s := (s.writePage lp at_ (leBytes 4 (pg + 2 ^ 23 * (off / 4)))).settlePoison lp at_ 4 t []
      .ready ((s.setTail tid inst g pg (off + t.rowSize)).moveIn tid inst row id) id off
    | r => r)
  | r => r

/-- A SEQUENTIAL page of an instar's own, with its rows as they are found now (R224). -/
def seqPage (s : State) (e tid : Nat) (t : Table) (inst row : Nat) : Prep :=
  let r := t.inGroup row
  let pg := r / t.perPage
  let base := t.groupOf row * 2 ^ t.gshift + pg * t.perPage
  match s.gather tid t inst 0 ((List.range t.perPage).map (· + base)) with
  | .error id => .miss id
  | .ok (bs, bad) =>
    match s.pageFor tid inst (t.groupOf row) pg e false false bs with
    | .ready s id _ =>
      let s := match s.page id with
        | some p => { s with pages := s.pages.set id { p with poison := (bad.map (· / 64)).foldl setInsert p.poison } }
        | none => s
      .ready s id (r % t.perPage * t.rowSize)
    | x => x

/-- Instars of a list that read a row from the place where the first does; a page that must be read first. -/
def sharers (s : State) (tid : Nat) (t : Table) (row : Nat) (insts : List Nat) : Except Nat (List Nat) :=
  let first := insts.headD 0
  insts.foldl (fun l i => match l, s.rowAt tid t i row with
    | .error id, _ => .error id
    | .ok _, .miss id => .error id
    | .ok l, x => .ok (if i = first ∨ (x ≠ .zero ∧ x = s.rowAt tid t first row) then l ++ [i] else l)) (.ok [])

/-- Make a row of some instars writable: `insts` all read it from one place, or it is nowhere yet. -/
def prepare (s : State) (e tid : Nat) (t : Table) (insts : List Nat) (row : Nat) : Prep :=
  let inst := insts.headD 0
  match s.rowAt tid t inst row with
  | .miss id => .miss id
  | .at_ id off =>
    let own := fun (_ : Unit) => match s.ownPage id insts with
      | some (id, s) => Prep.ready s id off
      | none => .full
    (match s.page id with
    | some p =>
      -- A clone that keeps another placement rewrites the row in its own.
      if p.packed = t.packed inst ∨ p.insts.all insts.contains = true then own ()
      else if t.packed inst then
        let (bs, bad) := s.rowBytes t (.at_ id off)
        match s.newSlot e tid t inst row with
        | .ready s1 id1 off1 => .ready (s1.writePage id1 off1 bs bad) id1 off1
        | x => x
      else s.seqPage e tid t inst row
    | none => .full)
  | .bad _ => s.newSlot e tid t inst row
  | .zero => if t.packed inst then s.newSlot e tid t inst row else s.seqPage e tid t inst row

/-! ### Changes of a row -/

/-- Every hot copy of a row follows a change of its stored bytes (R203). -/
def hotWrite (s : State) (tid row : Nat) (insts : List Nat) (bs : List Byte) (bad : Bool) : State :=
  let up := fun (x : HotEntry) => if x.tid = tid ∧ x.row = row ∧ insts.contains x.inst = true
    then { x with raw := bs, bad := bad } else x
  { s with hots := s.hots.mapV fun _ h => { h with h0 := h.h0.map up, h1 := h.h1.map up } }

/-- The stored bytes of a row of some instars are replaced whole in a prepared page (R192). -/
def putRow (s : State) (tid row id off : Nat) (insts : List Nat) (bs : List Byte) (bad : Bool) : State :=
  (s.writePage id off bs bad).hotWrite tid row insts bs bad

/-- The shadow of a row in an instar. -/
def shadowOf (s : State) (tid row inst : Nat) : Option Shadow :=
  s.shadows.find? fun x => x.tid == tid && x.row == row && x.insts.contains inst

/-- An instar's row loses its shadow. -/
def dropShadow (s : State) (tid row : Nat) (insts : List Nat) : State :=
  { s with shadows := s.shadows.filterMap fun x =>
      if x.tid = tid ∧ x.row = row then
        let left := x.insts.filter fun i => !insts.contains i
        if left.isEmpty then none else some { x with insts := left }
      else some x }

/-- The value of each element of a row: stored value, then the shadow with one more rounding (R183); and
whether anything in it is poisoned. -/
def rowVals (s : State) (tid : Nat) (t : Table) (inst row : Nat) (bs : List Byte) (bad : Bool) : List FVal × Bool :=
  let vs := t.values bs
  if t.noshd then (vs, bad)
  else match s.shadowOf tid row inst with
    | some x => ((vs.zip x.vec).map fun (v, w) => rnd32 (v.add (ofF32 w)), bad || x.bad)
    | none => (vs, bad)

/-! ### The hot-row store (R203 to R205) -/

def hot (s : State) (e : Nat) : Hot := s.hots.getD e ⟨[], [], none, none⟩

/-- Active half of an engine's slice: the second one. -/
def hotHalf (s : State) (e : Nat) : Bool := s.flag .lkeState e 0

/-- A hot copy of a row in a half, taken from an instar (R205, R211). -/
def hotCopy (s : State) (e : Nat) (half : Bool) (tid row inst : Nat) : Option HotEntry :=
  (if half then (s.hot e).h1 else (s.hot e).h0).find? fun x => x.tid == tid && x.row == row && x.inst == inst

/-- Bytes that a hot entry of a table takes. -/
def hotSize (t : Table) : Nat :=
  let n := t.rowSize + if t.upd ∧ ¬ t.noshd ∧ t.f.bits < 16 then 4 * t.elems else 0
  (n + 63) / 64 * 64

/-! ### The sketches (R200 to R202) -/

/-- The counter index of a depth. -/
def cmsIndex (s : State) (d tid row : Nat) : Nat :=
  let (a, b) := s.cmsHash.getD d (0, 0)
  ((a * (tid * 2 ^ 42 + row) + b) % (2 ^ 61 - 1)) % 4096

/-- Candidate list after an access with an estimate (R201). The lowest estimate is the first one of that
value (log entry 24). -/
def cand (cands : List (Nat × Nat)) (row est thr : Nat) : List (Nat × Nat) :=
  if cands.any (·.1 == row) then cands.map fun x => if x.1 = row then (row, est) else x
  else if est < thr then cands
  else if cands.length < 256 then cands ++ [(row, est)]
  else
    let low := cands.foldl (fun m x => min m x.2) est
    if est ≤ low then cands
    else match cands.findIdx? (·.2 == low) with
      | some i => cands.set i (row, est)
      | none => cands

/-- One counted access of a row in a sketch set. -/
def cmsAdd (s : State) (key tid row : Nat) : State :=
  let k := s.sketches.getD key ⟨[], []⟩
  let idx := (List.range 4).map fun d => 4096 * d + s.cmsIndex d tid row
  let c := idx.foldl (fun (c : SMap Nat) i => c.set i (satAdd 0xFFFFFFFF (c.getD i 0) 1)) k.counters
  let est := idx.foldl (fun m i => min m (c.getD i 0)) 0xFFFFFFFF
  { s with sketches := s.sketches.set key ⟨c, cand k.cands row est (s.reg .cmsThr 0).toNat⟩ }

/-- Count the access of a row at its home engine (R200, R202). -/
def cmsCount (s : State) (e tid row : Nat) : State :=
  match (List.range 16).find? fun i => s.flag .cmsSet (16 * e + i) 31 && s.fld .cmsSet (16 * e + i) 9 0 == tid with
  | none => s
  | some i =>
    if s.flag .cmsCtrl e 2 then
      let w := s.snapWait.getD e []
      if w.length < 512 then { s with snapWait := s.snapWait.set e (w ++ [(16 * e + i, row)]) }
      else s.setFld .cmsCtrl e 31 3 (satAdd (2 ^ 29 - 1) (s.fld .cmsCtrl e 31 3) 1)
    else s.cmsAdd (16 * e + i) tid row

/-! ### The write-budget governor (R233 to R235) -/

/-- Four hours of budget, in units of the token count. -/
def tokenCap (s : State) : Int := (s.fld .govBudget 0 15 0 * 720000000000 : Nat)

/-- Bytes are written back: tokens go, and bytes above the budget are counted under FRESHNESS or when the
governor writes above its pace. -/
def spend (s : State) (n : Nat) (above : Bool) : State :=
  let s := { s with tokens := max (-s.tokenCap) (s.tokens - 4320 * n) }
  if above then { s with overBytes := s.overBytes + n } else s

/-- A write-back counts above the budget: the governor writes above its pace, or the count is zero or below
under FRESHNESS (R234, R235). -/
def aboveBudget (s : State) (above : Bool) : Bool := above || (s.flag .govCfg 0 0 && decide (s.tokens ≤ 0))

/-- The page is older than GOV_LAG, in keeper ticks of 20 ns (R234). -/
def lagged (s : State) (p : Page) : Bool :=
  p.dirty.any fun d => decide (d.2 + s.fld .govCfg 0 23 8 * 50000000 ≤ s.ticks)

/-- Dirty pages that can be written back, first in log order first. -/
def dirtyFirst (s : State) : Option (Nat × Page) :=
  (s.pages.foldl (fun acc kv =>
    match kv.2.dirty with
    | some (o, _) =>
      if kv.2.writing || !kv.2.poison.isEmpty || kv.2.data.isNone then acc
      else match acc with
        | some (m, x) => if o < m then some (o, kv) else some (m, x)
        | none => some (o, kv)
    | none => acc) (none : Option (Nat × Nat × Page))).map (·.2)

/-- An LPN for a page that is first written (R262; log entry 25). -/
def newLpn (w : Well) : Nat × Well :=
  match w.lpnFree with
  | l :: rest => (l, { w with lpnFree := rest })
  | [] => (w.lpnNext, { w with lpnNext := w.lpnNext + 1 })

/-- Start the write-back of a page: a WRITE goes to the well half of its engine (R233). -/
def writeBack (s : State) (id : Nat) (above : Bool) : State :=
  match s.page id with
  | none => s
  | some p =>
    let h := p.engine / 32
    let (l, w) := match p.lpn with
      | some l => (l, s.well h)
      | none => newLpn (s.well h)
    let s := s.setWell h { w with reqs := w.reqs ++ [.write l id (p.data.getD [])] }
    let above := s.aboveBudget above
    ({ s with pages := s.pages.set id { p with lpn := some l, writing := true, above := above } }).spend 2048 above

/-- Dirty pages fill DIRTY_MAX percent of the cache under ENDURANCE (R235). -/
def dirtyFull (s : State) : Bool :=
  !s.flag .govCfg 0 0 &&
    decide (s.fld .govCfg 0 7 1 * (2 * s.cacheSets * 16) ≤ 100 * (s.pages.filter fun kv => kv.2.dirty.isSome).length)

/-- Bytes of the shadow pool of a die, and those in use. -/
def poolBytes (s : State) : Nat := s.fld .cisPart 0 19 10 * 2 ^ 30
def poolUsed (s : State) (die : Nat) : Nat :=
  s.shadows.foldl (fun n x => if x.engine / 32 = die then n + 4 * x.vec.length else n) 0

end State

end Sys2Proof.Machine
end

