-- ==== Sys2Proof/Machine/Func.lean ====
section
/-!
DEFINITION. The function stage of the vector chain (R135): the special cases, and values that keep the
accuracy bounds and are otherwise open (log entry 1).
-/

namespace Sys2Proof.Machine

namespace FVal

/-- Fractional bits of the reference computations. -/
def fb : Nat := 160

/-- ln 2 and 1 / √(2π), times 2^160, rounded down. -/
def ln2 : Int := 1013035739299659071135698605846798551586536899366
def invSqrt2Pi : Int := 583054796007218040734191730443699882195345907504

/-- A finite value with 160 fractional bits, truncated. -/
def toFix : FVal → Int
  | .fin n m e => signed n (if 0 ≤ e + fb then m <<< (e + fb).toNat else m >>> (-(e + fb)).toNat)
  | _ => 0

/-- A number with 160 fractional bits as a value. -/
def ofFix (i : Int) : FVal := .fin (i < 0) i.natAbs (-(fb : Int))

def fixMul (a b : Int) : Int := a * b / 2 ^ fb

/-- Sum of a series: `term` is the present term, the next is made of it. -/
def series (next : Nat → Int → Int) : Nat → Nat → Int → Int → Int
  | 0, _, _, acc => acc
  | n + 1, i, term, acc => series next n (i + 1) (next i term) (acc + term)

/-- e^x for a finite x of moderate size, to about 150 bits. -/
def expRef (x : FVal) : FVal :=
  let f := toFix x
  let k := (f + ln2 / 2) / ln2
  let r := f - k * ln2
  let t := series (fun i term => fixMul term r / (i + 1)) 45 0 (2 ^ fb) 0
  .fin false t.natAbs (k - fb)

/-- 1 / (1 + e^-x). -/
def sigmoidRef (x : FVal) : FVal :=
  if lt (.fin false 100 0) x then .one
  else if lt x (.fin true 100 0) then .zero
  else div .one (add .one (expRef x.negate))

/-- tanh x. -/
def tanhRef (x : FVal) : FVal :=
  if lt (.fin false 60 0) x then .one
  else if lt x (.fin true 60 0) then .fin true 1 0
  else sub .one (div (.fin false 2 0) (add .one (expRef (mul (.fin false 2 0) x))))

/-- The standard normal distribution function by the series x + x^3/3 + x^5/(3·5) + ... -/
def phiRef (x : FVal) : FVal :=
  if lt (.fin false 12 0) x then .one
  else if lt x (.fin true 12 0) then .zero
  else
    let f := toFix x
    let sq := fixMul f f
    let s := series (fun i term => fixMul term sq / (2 * i + 3)) 400 0 f 0
    let e := toFix (expRef (mul (mul x x).negate (.pow2 (-1))))
    add (.pow2 (-1)) (ofFix (fixMul (fixMul e s) invSqrt2Pi))

/-- Largest r of `bits` bits with r² ≤ n. -/
def isqrt (n : Nat) : Nat → Nat → Nat
  | 0, r => r
  | k + 1, r => if (r + 2 ^ k) * (r + 2 ^ k) ≤ n then isqrt n k (r + 2 ^ k) else isqrt n k r

/-- 1 / √x of a positive finite x, to about 150 bits. -/
def rsqrtRef : FVal → FVal
  | .fin _ m e =>
    let (m, e) := if e % 2 = 0 then (m, e) else (2 * m, e - 1)
    .fin false (isqrt (2 ^ 400 / m) 201 0) (-e / 2 - 200)
  | _ => .zero

/-- One unit in the last place of an FP32 value. -/
def ulp : FVal → FVal
  | .fin _ m e => if m = 0 then .pow2 (-149) else .pow2 (max (-149) (expo m e - 23))
  | _ => .zero

/-- The open value is taken when its error is at most some units in its own last place (R135), and otherwise the
reference rounded to FP32. -/
def withinUlp (y ref : FVal) (n : Nat) : FVal :=
  if y.isFin && le (abs (sub y ref)) (mul (.fin false n 0) (ulp y)) then y else rnd32 ref

/-- The open value is taken when it lies within a bound of the reference, and otherwise the reference rounded
to FP32. -/
def within (y ref bound : FVal) : FVal :=
  if y.isFin && le (abs (sub y ref)) bound then y else rnd32 ref

end FVal

open FVal in
/-- The function of a code (R135), codes 0x1 to 0x7. -/
def chainFunc (code : Nat) (x : FVal) : FVal :=
  let y := ofF32 (Config.funcOut code (toF32 x))
  let mag := fmax .one x.abs
  match code, x with
  | 0, x => x
  | _, .nan => .nan
  | 1, .inf n => if n then .zero else .inf false
  | 1, x =>
    if lt (div (.fin false 887228 0) (.fin false 10000 0)) x then .inf false
    else if lt x (div (.fin true 103973 0) (.fin false 1000 0)) then .zero
    else withinUlp y (expRef x) 2
  | 2, .inf n => .fin n 0 0
  | 2, .fin n m e => if m = 0 then .inf n else withinUlp y (div .one (.fin n m e)) 1
  | 3, .inf n => if n then .nan else .zero
  | 3, .fin n m e =>
    if m = 0 then .inf n else if n then .nan
    else withinUlp y (rsqrtRef (.fin n m e)) 1
  | 4, .inf n => if n then .zero else .one
  | 4, x => within y (sigmoidRef x) (.pow2 (-22))
  | 5, .inf n => .fin n 1 0
  | 5, x => within y (tanhRef x) (.pow2 (-22))
  | 6, .inf n => if n then .fin true 0 0 else .inf false
  | 6, x => within y (mul x (phiRef x)) (mul mag (.pow2 (-20)))
  | 7, .inf n => if n then .fin true 0 0 else .inf false
  | 7, x => within y (mul x (sigmoidRef x)) (mul mag (.pow2 (-20)))
  | _, x => x

end Sys2Proof.Machine
end

