-- ==== Sys2Proof/Machine/Matrix.lean ====
section
/-!
DEFINITION. The matrix arrays, class 0x04 (R98 to R126), with the arithmetic of R43 to R53.
-/

namespace Sys2Proof.Machine

/-! ### Geometry -/

/-- Columns of an array: tile N (R98). -/
def tileN (wide : Bool) : Nat := if wide then 128 else 32

/-- Bank rows (R99). -/
def bankRows (wide : Bool) : Nat := if wide then 64 else 256

/-- Ternary and binary weights: two to a cell. -/
def isThin (fmt : Nat) : Bool := fmt == 10 || fmt == 11

/-- Tile K (R98). -/
def tileK (wide : Bool) (fmt : Nat) : Nat := (if wide then 8 else 32) * (if isThin fmt then 2 else 1)

/-- The arrays that a MASK names, ascending (R100). -/
def maskArrays (m : Nat) : List Nat := (List.range 4).filter m.testBit

/-- Operand pairings of R43, by format code. -/
def pairing (w a : Nat) : Bool :=
  match w with
  | 7 => a == 7 || a == 3 || a == 4
  | 9 => a == 9
  | 5 | 6 => a == 5 || a == 6 || a == 3 || a == 4
  | 3 | 4 => a == 3 || a == 4
  | 8 => a == 8
  | 1 => a == 1
  | 2 => a == 2
  | 10 | 11 => a == 7 || a == 9
  | _ => false

/-- The accumulator of a pairing is INT32 (R43). -/
def intPairing (w wScaling a aScaling : Nat) : Bool :=
  wScaling == 0 && aScaling == 0 && ((w == 9 && a == 9) || (w == 8 && a == 8) || (isThin w && a == 9))

/-- Stream period c (R98). -/
def streamPeriod (w a : Nat) : Nat :=
  if w = 1 ∨ w = 2 then 4
  else if (w = 7 ∨ w = 9 ∨ isThin w) ∧ (a = 7 ∨ a = 9) then 1 else 2

/-- Smallest power of two at or above a number up to 64. -/
def pow2Up (n : Nat) : Nat := ((List.range 7).map (2 ^ ·)).find? (n ≤ ·) |>.getD 128

/-- Row alignment of activation tiles (R114). -/
def rowAlign (wide : Bool) (w a : Nat) : Nat :=
  pow2Up ((tileK wide w * ((Fmt.ofCode a).elim 8 Fmt.bits) + 7) / 8)

/-! ### Fields of the instruction words -/

/-- MASK of WLD, MST and MDR. -/
def mxMask (w : IWord) : Nat := bitsOf w.imm.toNat 3 0
/-- MODE of WLD. -/
def wldWide (w : IWord) : Bool := w.imm.getLsbD 4
/-- SWP, START and BANK of MST. -/
def mstSwp (w : IWord) : Bool := w.imm.getLsbD 4
def mstStart (w : IWord) : Bool := w.imm.getLsbD 5
def mstBank (w : IWord) : Nat := bitsOf w.imm.toNat 6 6
/-- OUT of MST: 0 BANK, 1 BANK_FWD, 2 FWD. -/
def mstOut (w : IWord) : Nat := bitsOf w.imm.toNat 8 7
def mstRow0 (w : IWord) : Nat := bitsOf w.imm.toNat 16 9
/-- BANK and ROW0 of MDR. -/
def mdrBank (w : IWord) : Nat := bitsOf w.imm.toNat 4 4
def mdrRow0 (w : IWord) : Nat := bitsOf w.imm.toNat 12 5

/-- Main descriptor of a job, and its companions. -/
def Job.desc (j : Job) (n : Nat) : Desc := j.descs.getD n 0
def Job.main (j : Job) : Desc := j.desc j.w.src1.toNat
def Job.scaleOf (j : Job) (d : Desc) : Desc := j.desc d.scaleT
def Job.residOf (j : Job) (d : Desc) : Desc := j.desc d.residT

/-- Descriptor registers by number with their contents, for the registers given. -/
def takeDescs (k : Core) (l : List Nat) : SMap Desc := l.foldl (fun m n => m.set n (k.getT n)) []

/-- A job as it is dispatched. -/
def newJob (cls func : Nat) (w : IWord) (w2 : DWord) (descs : SMap Desc) (scal : List DWord)
    (reads writes : List Area) : Job :=
  { id := 0, pc := 0, cls, func, w, w2, descs, scal, reads, writes, fill := [], latch := [], latchBad := [],
    prog := .queued, tiles := [], cols := 0, pair := none, fwd := none, slot := 0, done := 0, target := 0,
    quota := none }

/-- The bytes that a scaled tensor and its scales occupy. -/
def tensorAreas (t : Nat → Desc) (d : Desc) : List Area :=
  d.area :: (if d.scaling ≠ 0 then [(t d.scaleT).scaleArea] else [])

/-- The bytes of a residual list. -/
def residAreas (t : Nat → Desc) (d : Desc) : List Area :=
  if d.residV then [.span (t d.residT).base ((t d.residT).ext0 * d.entryBytes)] else []

/-- Every space of a tensor and its companions is scratchpad (R111, R147). -/
def allPad (t : Nat → Desc) (d : Desc) : Bool :=
  d.space == 0 && (d.scaling == 0 || (t d.scaleT).space == 0) && (!d.residV || (t d.residT).space == 0)

namespace State

def arr (s : State) (p a : Nat) : Arr := (s.core p).arrs.getD a Arr.reset

def setArr (s : State) (p a : Nat) (x : Arr) : State := s.modCore p fun c => { c with arrs := c.arrs.set a x }

def arrd (s : State) (p a : Nat) : ArrD := (s.core p).arrds.getD a ⟨none, none, none, none⟩

def setArrd (s : State) (p a : Nat) (x : ArrD) : State := s.modCore p fun c => { c with arrds := c.arrds.set a x }

/-- Unit instructions of a class dispatched and not yet started (R82). -/
def queuedIds (s : State) (p cls : Nat) : List Nat :=
  ((s.core p).jobs.filter fun j => j.cls == cls && j.prog == .queued).map (·.id)

/-- How many they are. -/
def queued (s : State) (p cls : Nat) : Nat := (s.queuedIds p cls).length

/-- The earliest forwarding MST of the core without a paired VCH, and whether there are others (R145). -/
def unpaired (s : State) (p : Nat) : List Job :=
  (s.core p).jobs.filter fun j => j.cls == 4 && j.func == 1 && decide (mstOut j.w ≠ 0) && j.pair.isNone

end State

/-- A bank of an array in program order. -/
def ArrD.bank (x : ArrD) (b : Nat) : Option (Bool × Bool) := if b = 0 then x.bank0 else x.bank1
def ArrD.setBank (x : ArrD) (b : Nat) (v : Option (Bool × Bool)) : ArrD :=
  if b = 0 then { x with bank0 := v } else { x with bank1 := v }
def Arr.bank (x : Arr) (b : Nat) : Bank := if b = 0 then x.bank0 else x.bank1
def Arr.setBank (x : Arr) (b : Nat) (v : Bank) : Arr := if b = 0 then { x with bank0 := v } else { x with bank1 := v }

open State

/-! ### Dispatch -/

/-- Columns that the k-th array of a tile of `n` columns receives (R100, R103). -/
def colsOf (wide : Bool) (n k : Nat) : Nat := min (tileN wide) (n - tileN wide * k)

/-- The companion registers of a descriptor that dispatch reads. -/
def companionsOf (d : Desc) : List RegRef :=
  (if d.scaling ≠ 0 then [.t d.scaleT] else []) ++ (if d.residV then [.t d.residT] else [])

/-- The conditions of R111 for WLD. DESIGN CHOICE (log entry 61): a format that no pairing of R43 lists as weights, FP32 or
INT32, is not turned away here, since a WLD names no pairing, but at the MST. -/
def wldCode (s : State) (p : Nat) (w : IWord) : Code :=
  let t := (s.core p).getT
  let d := t w.src1.toNat
  let arrays := maskArrays (mxMask w)
  let n := arrays.length
  let wide := wldWide w
  firstCode [
    (decide (n = 0) || !allPad t d || (d.residV && !([5, 6, 7].contains d.format && d.scaling != 0)), .badField),
    (true, checkDesc t d .weight),
    (decide (d.rank ≠ 1) || decide (tileK wide d.format < d.ext0) || decide (tileN wide * n < d.ext1)
      || decide (d.ext1 ≤ tileN wide * (n - 1)), .range),
    (arrays.any fun a => (s.arrd p a).shadow.isSome, .state)]

/-- WLD (R103, R111). -/
def wldBody (w : IWord) (p : Nat) (s : State) : Res :=
  let k := s.core p
  let t := k.getT
  let d := t w.src1.toNat
  if k.isBusy (companionsOf d) then .held []
  else if wldCode s p w ≠ .ok then .bad s (wldCode s p w)
  else if 8 ≤ s.queued p 4 then .full (s.queuedIds p 4)
  else
    let s := ((maskArrays (mxMask w)).zipIdx).foldl (fun s (a, i) =>
      s.setArrd p a { s.arrd p a with
        shadow := some ⟨wldWide w, d.format, d.scaling, d.ext0, colsOf (wldWide w) d.ext1 i⟩ }) s
    .ok (s.dispatch p (newJob 4 0 w 0 (takeDescs k [w.src1.toNat, d.scaleT, d.residT]) []
      (tensorAreas t d ++ residAreas t d) []))

/-- The tile that an MST meets on an array, after any swap (R111). -/
def meetTile (s : State) (p : Nat) (w : IWord) (a : Nat) : Option TileSig :=
  if mstSwp w then (s.arrd p a).shadow else (s.arrd p a).active

/-- Two tiles agree for one MST (R111). -/
def sameTile (x y : TileSig) : Bool := x.wide == y.wide && x.fmt == y.fmt && x.scaling == y.scaling && x.ext0 == y.ext0

/-- The tile whose format and shape an MST goes by: that of the first array named. -/
def mstSig (s : State) (p : Nat) (w : IWord) : Option TileSig :=
  (((maskArrays (mxMask w)).map (meetTile s p w)).filterMap id).head?

/-- An MST accumulates in INT32. -/
def mstInt (s : State) (p : Nat) (w : IWord) : Bool :=
  let d := (s.core p).getT w.src1.toNat
  ((mstSig s p w).map fun x => intPairing x.fmt x.scaling d.format d.scaling).getD false

/-- An MST meets tiles of the wide mode. -/
def mstWide (s : State) (p : Nat) (w : IWord) : Bool := ((mstSig s p w).map (·.wide)).getD false

/-- The conditions of R111 for MST: each that names a tile is tested on every tile that the instruction meets. -/
def mstCode (s : State) (p : Nat) (w : IWord) : Code :=
  let t := (s.core p).getT
  let d := t w.src1.toNat
  let arrays := maskArrays (mxMask w)
  let tiles := arrays.map (meetTile s p w)
  let met := tiles.filterMap id
  let align := fun (x : TileSig) => rowAlign x.wide x.fmt d.format
  let out := mstOut w
  firstCode [
    (decide (arrays = []) || decide (out = 3) || decide (out = 2 ∧ (mstStart w = false ∨ mstRow0 w ≠ 0))
      || !allPad t d || met.any fun x => !pairing x.fmt d.format, .badField),
    (true, checkDesc t d .read),
    (met.any fun x => decide (d.base % align x ≠ 0) || decide (1 ≤ d.rank ∧ d.str1 % align x ≠ 0), .align),
    (decide (1 < d.rank) || met.any fun x => decide (d.ext0 ≠ x.ext0)
      || decide (out ≠ 2 ∧ bankRows x.wide < mstRow0 w + d.e1), .range),
    (tiles.any Option.isNone || (met.any fun x => met.any fun y => !sameTile x y)
      || (!mstStart w && arrays.any fun a => (s.arrd p a).bank (mstBank w) != some (mstInt s p w, mstWide s p w)), .state)]

/-- MST (R105, R106, R111). -/
def mstBody (w : IWord) (p : Nat) (s : State) : Res :=
  let k := s.core p
  let t := k.getT
  let d := t w.src1.toNat
  let arrays := maskArrays (mxMask w)
  let int := mstInt s p w
  let wide := mstWide s p w
  if d.scaling ≠ 0 ∧ k.isBusy [.t d.scaleT] then .held []
  else if mstCode s p w ≠ .ok then .bad s (mstCode s p w)
  else if 8 ≤ s.queued p 4 then .full (s.queuedIds p 4)
  else
    let t1 := arrays.foldl (fun s a =>
      let x := s.arrd p a
      let x := if mstSwp w then { x with active := x.shadow, shadow := none } else x
      let x := if mstStart w ∧ mstOut w ≠ 2 then x.setBank (mstBank w) (some (int, wide)) else x
      s.setArrd p a x) s
    let last := (((arrays.map (meetTile s p w)).getLast?.bind id).map (·.cols)).getD 0
    .ok (t1.dispatch p { newJob 4 1 w 0 (takeDescs k [w.src1.toNat, d.scaleT]) [] (tensorAreas t d) [] with
      cols := tileN wide * (arrays.length - 1) + last
      done := ((mstSig s p w).map fun x => streamPeriod x.fmt d.format).getD 1
      target := bit int + 2 * bit wide })

/-- Type and shape of the banks that an MDR reads: those of the first one named. -/
def mdrSig (s : State) (p : Nat) (w : IWord) : Option (Bool × Bool) :=
  (((maskArrays (mxMask w)).map fun a => (s.arrd p a).bank (mdrBank w)).filterMap id).head?

/-- The conditions of R111 for MDR: each that names a bank is tested on every open bank that the instruction names.
DESIGN CHOICE (log entry 61): banks that are open in different shapes give STATE. -/
def mdrCode (s : State) (p : Nat) (w : IWord) : Code :=
  let t := (s.core p).getT
  let d := t w.src1.toNat
  let arrays := maskArrays (mxMask w)
  let banks := arrays.map fun a => (s.arrd p a).bank (mdrBank w)
  let met := banks.filterMap id
  firstCode [
    (decide (arrays = []) || !allPad t d || decide (d.scaling ≠ 0) || (d.format != 0 && d.format != 0x0C)
      || met.any fun x => decide (d.format ≠ if x.1 then 0x0C else 0), .badField),
    (true, checkDesc t d .written),
    (decide (d.rank ≠ 1) || met.any fun x => decide (tileN x.2 * arrays.length < d.ext0)
      || decide (bankRows x.2 < mdrRow0 w + d.ext1), .range),
    (banks.any Option.isNone || met.any fun x => met.any fun y => x != y, .state)]

/-- MDR (R108, R111). -/
def mdrBody (w : IWord) (p : Nat) (s : State) : Res :=
  let k := s.core p
  let d := k.getT w.src1.toNat
  if mdrCode s p w ≠ .ok then .bad s (mdrCode s p w)
  else if 8 ≤ s.queued p 4 then .full (s.queuedIds p 4)
  else .ok (s.dispatch p { newJob 4 2 w 0 (takeDescs k [w.src1.toNat]) [] [] [d.area] with
    cols := tileN ((mdrSig s p w).getD (false, false)).2 })

/-- WLD (R103). -/
def execWld (c : CoreId) (w : IWord) (s : State) : Outcome :=
  issue 0x04 0x00 w none (w.dst == 0 && IWord.isT w.src1 && w.src2 == 0 && decide (w.imm.toNat < 32))
    [.t w.src1.toNat] c.val (wldBody w c.val) s

/-- MST (R105). -/
def execMst (c : CoreId) (w : IWord) (s : State) : Outcome :=
  issue 0x04 0x01 w none (w.dst == 0 && IWord.isT w.src1 && w.src2 == 0 && decide (w.imm.toNat < 2 ^ 17)
    && decide (mstOut w ≠ 3)) [.t w.src1.toNat] c.val (mstBody w c.val) s

/-- MDR (R108). -/
def execMdr (c : CoreId) (w : IWord) (s : State) : Outcome :=
  issue 0x04 0x02 w none (w.dst == 0 && IWord.isT w.src1 && w.src2 == 0 && decide (w.imm.toNat < 2 ^ 13))
    [.t w.src1.toNat] c.val (mdrBody w c.val) s

/-- The tile flags of all eight banks (R109). -/
def tileFlags (s : State) (p : Nat) : Nat :=
  ((List.range 4).map fun a => ((s.arr p a).bank0.flags.toNat + 8 * (s.arr p a).bank1.flags.toNat) * 2 ^ (6 * a)).sum

/-- MTF writes its register once every earlier matrix instruction has completed (R109). -/
def settleMtf (p : Nat) : Nat → State → State
  | 0, s => s
  | n + 1, s =>
    match (s.jobsOf p [4]).head? with
    | some j =>
      if j.func = 3 then
        settleMtf p n ((s.modCore p fun c =>
          (c.setS j.w.dst (BitVec.ofNat 64 (tileFlags s p))).freeBusy (.s j.w.dst.toNat)).dropJob p j.id)
      else s
    | none => s

/-- MTF (R109). -/
def execMtf (c : CoreId) (w : IWord) (s : State) : Outcome :=
  issue 0x04 0x03 w none (w.src1 == 0 && w.src2 == 0 && w.imm == 0) (sRegs [w.dst]) c.val
    (fun s =>
      if 8 ≤ s.queued c.val 4 then .full (s.queuedIds c.val 4)
      else
        let s := s.dispatch c.val (newJob 4 3 w 0 [] [] [] [])
        .ok (settleMtf c.val 1 (s.modCore c.val fun k => k.addBusy (.s w.dst.toNat)))) s

/-- A word that spells no instruction is rejected at decode with its own CLASS and FUNC (R73, R74). -/
def badOpcode (c : CoreId) (w : DWord) (s : State) : Outcome :=
  issue (IWord.cls w) (IWord.func w) { IWord.ofBits w with dep := false } none true [] c.val
    (fun s => .bad s .badOpcode) s

/-- INPUT_STATIONARY (R126): in a launch the word is unassigned and decodes as BAD_OPCODE, as does every other word that
spells no instruction (R73). On a core that no launch holds it is a keeper's test pass, which leaves the arrays as a launch
finds them (R101). -/
def execInputStationary (c : CoreId) (w : DWord) (s : State) : Outcome :=
  if (s.core c.val).launch.isSome then badOpcode c w s
  else .next (s.modCore c.val fun k => { k with arrs := [], arrds := [] })

/-! ### Weight tiles -/

/-- A residual-list entry read from scratchpad: block index, residual scale, elements, and whether its
reserved bytes are zero (R50). -/
def residEntry (s : State) (p : Nat) (d rs : Desc) (i : Nat) : Nat × Nat × List Nat × Bool :=
  let bs := (s.pad p).readN (rs.base + i * d.entryBytes) d.entryBytes
  let n := d.block
  (leNat ((bs.drop n).take 4), ((bs.drop (n + 4)).headD 0).toNat, (bs.take n).map BitVec.toNat,
    (bs.drop (n + 5)).all (· == 0))

/-- A residual list keeps to R50. -/
def residOk (total : Nat) : Option Nat → List (Nat × Nat × List Nat × Bool) → Bool
  | _, [] => true
  | prev, (b, _, _, z) :: rest =>
    z && decide (b < total) && (prev.elim true fun q => decide (q < b)) && residOk total (some b) rest

/-- The tile that a WLD reads for one array. -/
def loadTile (s : State) (p : Nat) (j : Job) (entries : List (Nat × Nat × List Nat × Bool)) (k : Nat)
    (bad : Bool) : Tile :=
  let d := j.main
  let sc := j.scaleOf d
  let wide := wldWide j.w
  let col := fun n : Nat =>
    (⟨s.rowCodes p d n, if d.scaling = 0 then [] else s.scaleCodes p sc n,
      entries.filterMap fun (b, q, es, _) => if b / d.rowBlocks = n then some (b % d.rowBlocks, q, es) else none⟩ : TileCol)
  ⟨⟨wide, d.format, d.scaling, d.ext0, colsOf wide d.ext1 k⟩, d.tscale,
    (List.range (colsOf wide d.ext1 k)).map fun i => col (tileN wide * k + i), bad⟩

/-- The residual-list entries that a WLD meets. -/
def residEntries (s : State) (p : Nat) (j : Job) : List (Nat × Nat × List Nat × Bool) :=
  let rs := j.residOf j.main
  if j.main.residV then (List.range rs.ext0).map (residEntry s p j.main rs) else []

/-- Residual cell rows of a tile (R117): 16 for each K-group that holds an eyespot, at most the cell rows. -/
def residRows (t : Tile) : Nat :=
  let blk := if t.sig.scaling = 1 then 32 else 16
  let hit := fun g => t.cols.any fun c => c.resid.any fun e => decide (e.1 * blk ≤ 16 * g) && decide (16 * g < e.1 * blk + blk)
  min (if t.sig.wide then 8 else 32) (16 * ((List.range 4).filter hit).length)

/-- Row period p of an MST (R118). -/
def rowPeriod (d : Desc) (c : Nat) : Nat :=
  if c ≠ 1 then c
  else if (List.range (d.e1 - 1)).all fun i =>
      let x := d.rowAddr i / 64
      let y := d.rowAddr (i + 1) / 64
      x == y || x % 16 != y % 16 then 1 else 2

/-- Largest number of an area's bytes in any one bank of the scratchpad (R117, R151). -/
def worstBank (xs : List Area) : Nat :=
  let rows := xs.flatMap Area.rows
  let inBank := fun b => (rows.map fun (a, n) =>
    ((granules a n).filter fun g => g % 16 == b).map (fun g => min (a + n) (64 * g + 64) - max a (64 * g)) |>.sum).sum
  ((List.range 16).map inBank).foldl max 0

/-! ### Feed demand (R155, R156) -/

/-- Cycles of a WLD (R117), from its descriptors and its residual list. -/
def wldCycles (s : State) (p : Nat) (j : Job) : Nat :=
  let d := j.main
  let wide := wldWide j.w
  let arrays := maskArrays (mxMask j.w)
  let a := arrays.length
  let cells := tileN wide
  let bytes := (cells * (if d.format = 10 then 4 else if d.format = 11 then 2 else d.ebits) + 7) / 8
  let r := (arrays.zipIdx.map fun x => residRows (loadTile s p j (residEntries s p j) x.2 false)).foldl max 0
  max ((if wide then 8 else 32) * ((a * bytes + 255) / 256) + r * ((a * cells + 255) / 256)) ((worstBank j.reads + 31) / 32)

/-- Lines of some areas in a bank of the scratchpad (R153). -/
def bankLines (xs : List Area) (b : Nat) : Nat :=
  ((xs.flatMap Area.rows).flatMap fun (a, n) => (granules a n).filter fun g => g % 16 == b).eraseDups.length

/-- Demand of lines that move evenly over a run of some cycles (log entry 61). -/
def evenDemand (lines cycles : Nat) : Nat := if cycles ≤ 16 then lines else (16 * lines + cycles - 1) / cycles

/-- Lines that consecutive rows move in a bank: rows that follow one another in one line move it once. -/
def rowMoves (b : Nat) : Option Nat → List Nat → Nat
  | _, [] => 0
  | prev, l :: ls => (if l % 16 = b ∧ prev ≠ some l then 1 else 0) + rowMoves b (some l) ls

/-- Largest number of lines that a stream of rows moves in a bank in any 16 cycles, one row every `per` cycles. -/
def streamDemand (lines : List Nat) (per b : Nat) : Nat :=
  let n := (15 + per) / per
  ((List.range lines.length).map fun i => rowMoves b none ((lines.drop i).take n)).foldl max 0

/-- Residual cycles per row, r, of tiles (R118). -/
def residPeriod (tiles : List Tile) : Nat :=
  (tiles.map residRows).foldl max 0 * tileN ((tiles.head?.map (·.sig.wide)).getD false) / 512

/-- The tiles that an MST streams through, or will once it starts. -/
def mstTiles (s : State) (p : Nat) (j : Job) : List Tile :=
  if j.prog = .queued then
    (maskArrays (mxMask j.w)).filterMap fun a => if mstSwp j.w then (s.arr p a).shadow else (s.arr p a).active
  else j.tiles.map (·.2)

/-- The feed demand of a matrix instruction on a bank (R155): the largest number of lines it moves there in any 16 cycles
of its run. None is above 8, the feed slots of a wheel (R154). DESIGN CHOICE (log entry 61): the lines of a WLD and of
an MDR are spread evenly over its cycles. -/
def feedDemand (s : State) (p : Nat) (j : Job) (b : Nat) : Nat :=
  let d := j.main
  min 8 <| match j.func with
  | 0 => evenDemand (bankLines j.reads b) (wldCycles s p j)
  | 1 =>
    let lines := (List.range d.e1).map fun i => d.rowAddr i / 64
    let scales := if d.scaling = 0 then [] else (List.range d.e1).map fun i => (j.scaleOf d).rowAddr i / 64
    let demand := fun per => streamDemand lines per b + streamDemand scales per b
    let r := residPeriod (mstTiles s p j)
    max (demand (rowPeriod d j.done)) (if r = 0 then 0 else demand r)
  | 2 => evenDemand (bankLines j.writes b)
      (max ((d.ext0 * 4 * d.ext1 + 255) / 256) ((worstBank j.writes + 31) / 32))
  | _ => 0

/-- R156: on every bank the demand of an instruction and of those still running add up to at most 8. -/
def feedClear (s : State) (p : Nat) (run : List Job) (j : Job) : Bool :=
  (List.range 16).all fun b => decide ((run.map fun x => feedDemand s p x b).sum + feedDemand s p j b ≤ 8)

/-! ### Start -/

/-- The bank that a job reads, as arrays and bank: MDR, and VCH from a bank. -/
def bankRead (j : Job) : List Nat × Nat :=
  if j.cls = 4 ∧ j.func = 2 then (maskArrays (mxMask j.w), mdrBank j.w)
  else if j.cls = 5 ∧ bitsOf j.w.imm.toNat 1 0 = 1 then
    (maskArrays (bitsOf j.w.imm.toNat 5 2), bitsOf j.w.imm.toNat 6 6)
  else ([], 0)

/-- The bank that an MST writes. -/
def bankWrite (j : Job) : List Nat × Nat :=
  if j.cls = 4 ∧ j.func = 1 then (maskArrays (mxMask j.w), mstBank j.w) else ([], 0)

/-- Two uses of banks meet. -/
def banksMeet (x y : List Nat × Nat) : Bool := x.2 == y.2 && x.1.any fun a => y.1.contains a

/-- Scratchpad hazards of a start (R113, R149): no earlier job still writes what it reads, nor reads or writes
what it writes. -/
def padClear (js : List Job) (j : Job) : Bool :=
  (writersOf js j.reads).isEmpty && (writersOf js j.writes).isEmpty && (readersOf js j.writes).isEmpty

/-- A VCH is ready to start but for its pairing MST (R149): every earlier VCH has started, one under DIRECT has taken its
rows, and its hazards are clear. When another one's last element enters is time, which the command asserts. -/
def vchReady (s : State) (p : Nat) (j : Job) : Bool :=
  let js := s.before p j.id
  js.all (fun x => !(x.cls == 5 && (x.prog == .queued || (bitsOf x.w.imm.toNat 1 0 == 2 && x.fwd.isNone)))) &&
    padClear (js.filter fun x => some x.id != j.pair) j &&
    !(js.any fun x => banksMeet (bankWrite x) (bankRead j))

/-- Conditions of start of a matrix instruction (R113, R156). The stream path and the load paths are free when nothing
started holds them; the cycles of R117 to R120 are time, which the command asserts. An instruction that takes the stream
path starts when the one before has released it, so that only weight loads feed beside it. With `loaded` the shadows of
an MST under SWP count as ready and the weight loads that run as done. -/
def mxReadyIf (s : State) (p : Nat) (j : Job) (loaded : Bool) : Bool :=
  let js := s.before p j.id
  let run := js.filter fun x => x.cls == 4 && x.prog != .queued
  let loads := run.filter fun x => x.func == 0
  js.all (fun x => !(x.cls == 4 && x.prog == .queued)) && padClear js j &&
  feedClear s p (if j.func = 0 then run else if loaded then [] else loads) j &&
  match j.func with
  | 0 => !(loads.any fun x => (maskArrays (mxMask x.w)).any fun a => (maskArrays (mxMask j.w)).contains a)
  | 1 =>
    !(run.any fun x => x.func == 2) &&
    (!mstSwp j.w || loaded || (maskArrays (mxMask j.w)).all fun a => (s.arr p a).shadow.isSome) &&
    (maskArrays (mxMask j.w)).all (fun a => mstSwp j.w || (s.arr p a).active.isSome) &&
    !(js.any fun x => banksMeet (bankRead x) (bankWrite j)) &&
    (mstOut j.w == 0 || match j.pair with
      | some v => (match s.job p v with | some y => vchReady s p y | none => false)
      | none => false)
  | 2 => !(run.any fun x => x.func == 2) && !(js.any fun x => banksMeet (bankWrite x) (bankRead j))
  | _ => false

/-- A matrix instruction may start. -/
def mxReady (s : State) (p : Nat) (j : Job) : Bool := mxReadyIf s p j false

/-- The next MST in a core's queue is held only because of a weight load (MXU_LOAD_STALL): its shadow is not yet ready, or
the load takes the feed slots that it needs (R156). -/
def loadHeld (s : State) (p : Nat) : Bool :=
  match (s.jobsOf p [4]).find? fun j => j.prog == .queued with
  | some j => j.func == 1 && !mxReady s p j && mxReadyIf s p j true
  | none => false

/-- An MST starts: the swap and the clearing of its bank's flags (R105, R106), and the cycles it occupies the stream
path (R118); its paired VCH starts with it (R149, R151). The bank takes its type, shape and entries as the instruction
completes, so that an earlier MST into it completes on the entries it met. -/
def startMst (s : State) (p : Nat) (j : Job) : State :=
  let arrays := maskArrays (mxMask j.w)
  let d := j.main
  let b := mstBank j.w
  let s := arrays.foldl (fun s a =>
    let x := s.arr p a
    let x := if mstSwp j.w then { x with active := x.shadow, shadow := none } else x
    s.setArr p a (if mstStart j.w then x.setBank b { x.bank b with flags := 0 } else x)) s
  let tiles : SMap Tile := arrays.filterMap fun a => ((s.arr p a).active).map fun t => (a, t)
  let sig := (tiles.head?.map (·.2.sig)).getD ⟨false, 0, 0, 0, 0⟩
  let c := streamPeriod sig.fmt d.format
  let r := residPeriod (tiles.map (·.2))
  let s := (s.bump64 .mxuStreamLo .mxuStreamHi p (d.e1 * (rowPeriod d c + r))).bump .mxuResid p (d.e1 * r)
  let s := s.modJob p j.id fun x => { x with prog := .running, tiles := tiles }
  match j.pair with
  | some v => (s.bump64 .vcuCycLo .vcuCycHi p (d.e1 * (rowPeriod d c + r))).modJob p v (s.startVch p)
  | none => s

/-- MATRIX_START (R113): the matrix instruction at the head of the queue starts, when its conditions hold. -/
def execMatrixStart (c : CoreId) (s : State) : Outcome :=
  match (s.jobsOf c.val [4]).find? fun j => j.prog == .queued with
  | none => .next s
  | some j =>
    if !mxReady s c.val j then .next s
    else if j.func = 1 then .next (startMst s c.val j)
    else
      let s := if j.func = 2 then
          s.bump64 .mxuStreamLo .mxuStreamHi c.val
            (8 + max ((j.main.ext0 * 4 * j.main.ext1 + 255) / 256) ((worstBank [j.main.area] + 31) / 32))
        else s
      .next (s.modJob c.val j.id fun x => { x with prog := .running })

/-! ### Weight loads -/

/-- WLD_LOAD_DONE (R103, R112): the core's oldest running load completes. DESIGN CHOICE (log entry 61): the tile is read as the
load completes and activation rows as the MST does, so that a write from another core in between is seen. -/
def execWldLoadDone (c : CoreId) (s : State) : Outcome :=
  let p := c.val
  match (s.jobsOf p [4]).find? fun j => j.func == 0 && j.prog == .running with
  | none => .next s
  | some j =>
    let d := j.main
    let entries := residEntries s p j
    let s1 := s.dropJob p j.id
    if !residOk (d.rowBlocks * d.ext1) none entries then
      .next ((s1.modCore p fun k => { k with fault := .badField, faultCls := 4, faultFunc := 0, faultPc := j.pc }).endLaunchOf
        p .badField)
    else
      let bad := j.reads.any fun x => x.rows.any fun (a, n) => (s.padRead p a n).2
      let s2 := (maskArrays (mxMask j.w)).zipIdx.foldl (fun t (a, i) =>
        t.setArr p a { t.arr p a with shadow := some (loadTile s p j entries i bad) }) s1
      .next (settleMtf p 8 s2)

/-! ### Arithmetic (R43 to R47) -/

/-- An element picked out of a list. -/
def pickOut {α : Type} (l : List α) (i : Nat) (d : α) : α × List α := (l.getD i d, l.eraseIdx i)

/-- Partial sums of BF16 and FP16 products: two terms at a time, in an order that the spec leaves open (R48;
log entry 1), each rounded to FP32 (R45). -/
def sumRounded (k base : Nat) : Nat → List FVal → FVal
  | 0, xs => xs.headD .zero
  | n + 1, xs =>
    if xs.length ≤ 1 then xs.headD .zero
    else
      let (a, xs) := pickOut xs ((Config.freeAt k (base + 2 * n)).toNat % xs.length) .zero
      let (b, xs) := pickOut xs ((Config.freeAt k (base + 2 * n + 1)).toNat % xs.length) .zero
      sumRounded k base n (rnd32 (a.add b) :: xs)

/-- An exact sum. -/
def sumExact : List FVal → FVal
  | [] => .zero
  | x :: xs => xs.foldl FVal.add x

/-- The sum of one K-group by its formats (R45). -/
def groupSum (wf af : Fmt) (k base : Nat) (xs : List FVal) : FVal :=
  if wf = .bf16 ∨ wf = .fp16 then sumRounded k base xs.length xs
  else if wf = .e4m3 ∨ wf = .e5m2 ∨ af = .e4m3 ∨ af = .e5m2 then rnd32 (sumExact xs)
  else sumExact xs

/-- What a K-group adds to an entry: the exact value whose rounding is added, whether every operand of it is finite, and
INVALID. -/
structure Part where
  val : FVal
  fin : Bool
  invalid : Bool

/-- A list in an order that the spec leaves open (R48; log entry 1). -/
def anyOrder {α : Type} (k base : Nat) : Nat → List α → List α
  | 0, xs => xs
  | n + 1, xs =>
    match xs with
    | [] => []
    | x :: _ =>
      let (a, rest) := pickOut xs ((Config.freeAt k (base + n)).toNat % xs.length) x
      a :: anyOrder k base n rest

/-- The K-group parts of one column against one activation row, main pass (R44 to R46). -/
def mainParts (k base : Nat) (t : Tile) (col : TileCol) (af : Fmt) (d : Desc) (xs scales : List Nat) : List Part :=
  match Fmt.ofCode t.sig.fmt with
  | none => []
  | some wf =>
    let g := if t.sig.scaling = 2 ∨ d.scaling = 2 then 16 else 32
    let wblk := if t.sig.scaling = 1 then 32 else 16
    let n := t.sig.ext0
    (List.range ((n + g - 1) / g)).map fun i =>
      let idx := (List.range (min g (n - g * i))).map (· + g * i)
      let ws := scaleVal t.sig.scaling (col.scales.getD (g * i / wblk) 0)
      let as := scaleVal d.scaling (scales.getD (g * i / max 1 d.block) 0)
      let sc := (ws.mul (tensorScale t.sig.scaling t.tscale)).mul (as.mul (tensorScale d.scaling d.tscale))
      let wv := fun e => if invalidElem wf (col.elems.getD e 0) then ofF32 ((Config.freeAt k (base + 4096 + e)).setWidth 32)
        else elemVal wf t.sig.scaling (col.elems.getD e 0)
      let prods := idx.map fun e => (wv e).mul (elemVal af d.scaling (xs.getD e 0))
      ⟨(groupSum wf af k (base + 256 * i) prods).mul sc, sc.isFin && prods.all FVal.isFin,
        ws.isNan || as.isNan || idx.any fun e => invalidElem wf (col.elems.getD e 0)⟩

/-- The parts of the residual pass (R51, R52): 16-row groups that hold an eyespot of the tile. The cells of a column that
no eyespot covers there hold zero and take the same activations. DESIGN CHOICE (log entry 61): a residual scale code of
0xFF is NaN as R37 has it and sets INVALID like a NaN block scale. -/
def residParts (t : Tile) (col : TileCol) (af : Fmt) (d : Desc) (xs scales : List Nat) : List Part :=
  let wblk := if t.sig.scaling = 1 then 32 else 16
  let n := t.sig.ext0
  let covers := fun (g : Nat) (e : Nat × Nat × List Nat) =>
    decide (e.1 * wblk ≤ 16 * g) && decide (16 * g < e.1 * wblk + wblk)
  let hit := fun g => t.cols.any fun c => c.resid.any (covers g)
  ((List.range ((n + 15) / 16)).filter hit).map fun g =>
    let as := scaleVal d.scaling (scales.getD (16 * g / max 1 d.block) 0)
    let aScale := as.mul (tensorScale d.scaling d.tscale)
    let (b, ws, es) := match col.resid.find? (covers g) with
      | some (b, q, es) => (b, (e8m0 q).mul (tensorScale t.sig.scaling t.tscale), es)
      | none => (16 * g / wblk, .one, [])
    let idx := (List.range (min 16 (n - 16 * g))).map (· + 16 * g)
    let prods := idx.map fun e => (decodeElem .e4m3 (es.getD (e - b * wblk) 0)).mul (elemVal af d.scaling (xs.getD e 0))
    let sc := ws.mul aScale
    ⟨(rnd32 (sumExact prods)).mul sc, sc.isFin && prods.all FVal.isFin, as.isNan || ws.isNan⟩

/-- A zero of the same sign for a magnitude below 2^-126 (R34). -/
def flushAcc (v : FVal) : FVal :=
  match v with
  | .fin n m e => if m ≠ 0 ∧ FVal.expo m e < -126 then .fin n 0 0 else v
  | v => v

/-- Flags OVF, NAN and INVALID of an accumulation so far. -/
structure AccFlags where
  ovf : Bool
  nan : Bool
  invalid : Bool

/-- Flags that either of two sets has. -/
def AccFlags.or (f g : AccFlags) : AccFlags := ⟨f.ovf || g.ovf, f.nan || g.nan, f.invalid || g.invalid⟩

/-- Add one part to an FP32 entry (R46, R47): an infinity that no infinite operand brings is an overflow. -/
def accF (acc : FVal × AccFlags) (x : Part) : FVal × AccFlags :=
  let r := flushAcc (rnd32 (acc.1.add (rnd32 x.val)))
  let big := (match r with | .inf _ => true | _ => false) && acc.1.isFin && x.fin
  (r, ⟨acc.2.ovf || big, acc.2.nan || r.isNan, acc.2.invalid || x.invalid⟩)

/-- Add one part to an INT32 entry, saturating (R47). -/
def accI (acc : Int × AccFlags) (x : Part) : Int × AccFlags :=
  let r := acc.1 + x.val.trunc
  let c := max (-2 ^ 31) (min (2 ^ 31 - 1) r)
  (c, ⟨acc.2.ovf || c != r, acc.2.nan, acc.2.invalid || x.invalid⟩)

/-- The new word of an entry, from its old one or none. -/
def accumulate (int : Bool) (free : BitVec 64) (old : Option Word) (parts : List Part) : Word × AccFlags :=
  let f0 : AccFlags := ⟨false, false, false⟩
  if int then
    let (v, f) := parts.foldl accI (((old.map BitVec.toInt).getD 0), f0)
    (BitVec.ofInt 32 v, f)
  else
    let (v, f) := parts.foldl accF (((old.map ofF32).getD .zero), f0)
    (f32Word free v, f)

/-- An entry of a bank; one that nothing has written holds a free value (R101; log entry 1). -/
def Bank.cell (b : Bank) (row col : Nat) : Word :=
  (b.cells.get? (128 * row + col)).getD ((Config.freeAt b.draw (128 * row + col)).setWidth 32)

/-- Flags as the bits of a bank: OVF, NAN, INVALID. -/
def flagBits (f : AccFlags) : BitVec 3 := BitVec.ofNat 3 (bit f.ovf + 2 * bit f.nan + 4 * bit f.invalid)

/-- One activation row through one array: the words of its unmasked columns, with the flags. -/
def rowResult (s : State) (p : Nat) (j : Job) (k : Nat) (t : Tile) (b : Bank) (i : Nat) : List Word × AccFlags :=
  let d := j.main
  let af := (d.fmt).getD .fp32
  let xs := s.rowCodes p d i
  let scales := if d.scaling = 0 then [] else s.scaleCodes p (j.scaleOf d) i
  let int := intPairing t.sig.fmt t.sig.scaling d.format d.scaling
  let row := mstRow0 j.w + i
  let cell := fun (n : Nat) (col : TileCol) =>
    let base := (128 * i + n) * 16384
    let old := if mstStart j.w then none else some (b.cell row n)
    let parts := anyOrder k (base + 8192) 8 (mainParts k base t col af d xs scales) ++
      residParts t col af d xs scales
    accumulate int (Config.freeAt k (base + 8200)) old parts
  let r := t.cols.zipIdx.map fun (col, n) => cell n col
  (r.map (·.1), r.foldl (fun f x => f.or x.2) ⟨false, false, false⟩)

/-- A bank opened with a type and shape (R105). DESIGN CHOICE (log entry 61): what the entries of another type or shape read
as in the new one is a free value until they are written. -/
def openBank (b : Bank) (int wide : Bool) (draw : Nat) : Bank :=
  let keep := b.wide == wide && b.int == int
  { b with
    isOpen := true
    int := int
    wide := wide
    draw := if keep then b.draw else draw
    cells := if keep then b.cells else []
    poison := if keep then b.poison else [] }

/-- MST on one array: its bank after the instruction, the forwarded rows, and the flags (R105, R106, R122). A poisoned tile
of any array named marks every bank row that the instruction writes (R112). -/
def runArray (s : State) (p : Nat) (j : Job) (k0 k : Nat) (last : Bool) (a : Nat) (t : Tile) :
    Bank × List (List Word) × AccFlags :=
  let d := j.main
  let x := s.arr p a
  let b := x.bank (mstBank j.w)
  let m := d.e1
  let wide := t.sig.wide
  let rows := (List.range m).map fun i => rowResult s p j (k + a) t b i
  let f := rows.foldl (fun f r => f.or r.2) ⟨false, false, false⟩
  let rowsBad := (List.range m).filter fun i => j.tiles.any (fun kv => kv.2.poison) || s.rowBad p d (j.scaleOf d) i
  let b' : Bank :=
    if mstOut j.w = 2 then b
    else
      let b := if mstStart j.w then openBank b (intPairing t.sig.fmt t.sig.scaling d.format d.scaling) wide (k0 + a) else b
      let cells := rows.zipIdx.foldl (fun (cs : SMap Word) (r, i) =>
        let base := 128 * (mstRow0 j.w + i)
        let cs := r.1.zipIdx.foldl (fun (cs : SMap Word) (v, n) => cs.set (base + n) v) cs
        if mstStart j.w then
          (List.range (tileN wide - r.1.length)).foldl (fun (cs : SMap Word) n => cs.set (base + r.1.length + n) 0) cs
        else cs) b.cells
      let pz := (List.range m).foldl (fun (acc : List Nat) i =>
        let row := mstRow0 j.w + i
        if rowsBad.contains i then setInsert acc row
        else if mstStart j.w then setErase acc row else acc) b.poison
      { b with cells := cells, poison := pz }
  let pad := fun (r : List Word) => if last then r else r ++ List.replicate (tileN wide - r.length) 0
  ({ b' with flags := b'.flags ||| flagBits f }, rows.map (fun r => pad r.1), f)

/-- An MST completes: banks, flags, sticky bits, and the rows it forwards (R65, R118). -/
def finishMst (s : State) (p : Nat) (j : Job) : State :=
  let (k0, s) := s.draw
  let s := { s with free := s.free + 7 }
  let n := j.tiles.length
  let out := j.tiles.zipIdx.map fun ((a, t), i) => (a, runArray s p j k0 (k0 + 4) (i + 1 == n) a t)
  let m := j.main.e1
  let fwd := (List.range m).map fun i =>
    (out.flatMap (fun x => x.2.2.1.getD i []),
      j.tiles.any (fun kv => kv.2.poison) || s.rowBad p j.main (j.scaleOf j.main) i ||
        (mstStart j.w == false && out.any fun x => x.2.1.poison.contains (mstRow0 j.w + i)))
  let s := out.foldl (fun s x =>
    let s := s.setArr p x.1 ((s.arr p x.1).setBank (mstBank j.w) x.2.1)
    let f := x.2.2.2
    ((s.stickyIf p (4 * x.1) f.ovf).stickyIf p (4 * x.1 + 1) f.nan).stickyIf p (4 * x.1 + 2) f.invalid) s
  let s := match j.pair with
    | some v => s.modJob p v fun x => { x with fwd := some fwd }
    | none => s
  s.dropJob p j.id

/-- An MDR completes: bank rows into scratchpad, the columns of a poisoned bank row marking the lines they lie in (R108,
R112). -/
def finishMdr (s : State) (p : Nat) (j : Job) : State :=
  let d := j.main
  let arrays := maskArrays (mxMask j.w)
  let c := j.cols
  let b := fun a => (s.arr p a).bank (mdrBank j.w)
  let s := (List.range d.ext1).foldl (fun s i =>
    let row := mdrRow0 j.w + i
    let bs := (List.range d.ext0).flatMap fun n =>
      leBytes 4 ((b (arrays.getD (n / c) 0)).cell row (n % c)).toNat
    arrays.zipIdx.foldl (fun s (a, n) =>
        if (b a).poison.contains row then s.padMark p (d.rowAddr i + 4 * c * n) (4 * min c (d.ext0 - c * n)) else s)
      (s.padWrite p (d.rowAddr i) bs)) s
  s.dropJob p j.id

/-- MATRIX_COMPLETE (R118): the core's oldest running MST or MDR completes. -/
def execMatrixComplete (c : CoreId) (s : State) : Outcome :=
  match (s.jobsOf c.val [4]).find? fun j => j.prog == .running && decide (j.func ≠ 0) with
  | none => .next s
  | some j =>
    let s := if j.func = 1 then finishMst s c.val j else finishMdr s c.val j
    .next (settleMtf c.val 8 s)

end Sys2Proof.Machine
end

