-- ==== Sys2Proof/Machine/Vector.lean ====
section
/-!
DEFINITION. The vector chain, class 0x05 (R127 to R152), with convert-in and convert-out of R54 to R64.
-/

namespace Sys2Proof.Machine

/-! ### Fields of the instruction words (R128) -/

/-- SRCA: 0 TENSOR, 1 BANK, 2 DIRECT. -/
def vSrc (w : IWord) : Nat := bitsOf w.imm.toNat 1 0
def vMask (w : IWord) : Nat := bitsOf w.imm.toNat 5 2
def vBank (w : IWord) : Nat := bitsOf w.imm.toNat 6 6
def vRow0 (w : IWord) : Nat := bitsOf w.imm.toNat 14 7
def vSb (w : IWord) : Nat := bitsOf w.imm.toNat 20 15
def vBv (w : IWord) : Bool := w.imm.getLsbD 21
def vTbl (w : IWord) : Nat := bitsOf w.imm.toNat 26 22
def vNout (w : IWord) : Bool := w.imm.getLsbD 27

/-- The chain word. -/
structure Chain where
  fn : Nat
  cs : Nat
  red : Nat
  rnd : Nat
  satf : Bool
  int : Bool
  mul1 : Nat
  add1 : Nat
  csy : Nat
  mul2 : Nat
  add2 : Nat
  rcap : Bool
  thr : Bool
  smap : Bool
  mapT : Nat
  cT : Nat
  cv : Bool
  rwiT : Nat
  rwiv : Bool
  rwoT : Nat
  rwov : Bool
  zero : Nat

/-- The fields of a second word. -/
def Chain.of (x : DWord) : Chain :=
  let f := bitsOf x.toNat
  let b := x.getLsbD
  { fn := f 3 0, cs := f 6 4, red := f 9 7, rnd := f 11 10, satf := b 12, int := b 13, mul1 := f 16 14,
    add1 := f 19 17, csy := f 22 20, mul2 := f 25 23, add2 := f 28 26, rcap := b 29, thr := b 30, smap := b 31,
    mapT := f 36 32, cT := f 41 37, cv := b 42, rwiT := f 47 43, rwiv := b 48, rwoT := f 53 49, rwov := b 54,
    zero := f 57 55 }

/-- The five selectors. -/
def Chain.sels (c : Chain) : List Nat := [c.mul1, c.add1, c.csy, c.mul2, c.add2]

/-- A selector takes u or v of a row tensor. -/
def Chain.rowSel (c : Chain) : Bool := c.sels.any fun x => x == 4 || x == 5 || x == 7

/-- Reserved codes, unused fields and register numbers (R128 to R130, R135 to R138). -/
def vchFields (w : IWord) (w2 : DWord) : Bool :=
  let c := Chain.of w2
  decide (w.imm.toNat < 2 ^ 28) && vSrc w != 3 && decide (c.fn ≤ 8) && decide (c.cs ≤ 5) && decide (c.red ≤ 5)
    && c.rnd != 3 && c.zero == 0
    && (c.smap || c.mapT == 0) && (c.cv || c.cT == 0) && (c.rwiv || c.rwiT == 0) && (c.rwov || c.rwoT == 0)
    && (c.cs != 0 || c.csy == 0)
    && (if vNout w then w.dst == 0 else IWord.isT w.dst)
    && (if vSrc w = 2 then w.src1 == 0 else IWord.isT w.src1)
    && (if vBv w then IWord.isT w.src2 else w.src2 == 0)
    && (vSrc w == 1 || (vMask w == 0 && vBank w == 0 && vRow0 w == 0))
    && (c.fn == 8 || vTbl w == 0)

/-- The descriptor registers that the words name. -/
def vNamed (w : IWord) (c : Chain) : List Nat :=
  (if vNout w then [] else [w.dst.toNat]) ++ (if vSrc w = 2 then [] else [w.src1.toNat]) ++
  (if vBv w then [w.src2.toNat] else []) ++ (if c.cv then [c.cT] else []) ++ (if c.rwiv then [c.rwiT] else []) ++
  (if c.rwov then [c.rwoT] else []) ++ (if c.smap then [c.mapT] else []) ++ (if c.fn = 8 then [vTbl w] else [])

/-- The element tensors that a VCH reads from scratchpad: A, B and C. -/
def vReads (t : Nat → Desc) (w : IWord) (c : Chain) : List Desc :=
  (if vSrc w = 0 then [t w.src1.toNat] else []) ++ (if vBv w then [t w.src2.toNat] else []) ++
  (if c.cv then [t c.cT] else [])

/-- The output tensor. -/
def vOut (t : Nat → Desc) (w : IWord) : List Desc := if vNout w then [] else [t w.dst.toNat]

/-- The companions that dispatch reads. -/
def vCompanions (t : Nat → Desc) (w : IWord) (c : Chain) : List Nat :=
  ((vReads t w c ++ vOut t w).filter fun d => d.scaling != 0).map Desc.scaleT ++
  (if c.rcap then (vOut t w).map Desc.residT else [])

/-! ### Geometry -/

/-- The descriptor of a table or a map as R69 meets it: FORMAT and SCALING are ignored, and dimension 0 has `n` bytes
(R136, R141, R147). -/
def byteDesc (d : Desc) (n : Nat) : Desc :=
  ((d.put 63 59 8).put 65 64 0).put 87 68 (min n (2 ^ 20 - 1))

/-- Every stride within the rank is zero (R143). -/
def zeroStrides (d : Desc) : Bool :=
  (decide (d.rank < 1) || d.str1 == 0) && (decide (d.rank < 2) || d.str2 == 0) && (decide (d.rank < 3) || d.str3 == 0)

/-- Bytes of a packed row with its block scales. -/
def packedRow (d : Desc) : Nat := d.rowBytes + d.rowBlocks

/-- A latched operand (R143). -/
def latched (d : Desc) : Bool := zeroStrides d && decide (packedRow d ≤ 2048)

/-- Map bytes of a row (R64). -/
def mapRow (d : Desc) (e : Nat) : Nat := if d.block = 0 then (e + 31) / 32 else (e + d.block - 1) / d.block

/-- Bytes of one row of a tensor and of its scales. -/
def rowSpans (t : Nat → Desc) (d : Desc) (j : Nat) : List Area :=
  .span (d.rowAddr j) d.rowBytes ::
    (if d.scaling ≠ 0 then [.span ((t d.scaleT).rowAddr j) (t d.scaleT).ext0] else [])

/-- Bytes that a VCH reads and writes for row `j`, latched operands and the table excepted. -/
def vRowSpans (t : Nat → Desc) (w : IWord) (c : Chain) (e j : Nat) : List Area :=
  let a := if vSrc w = 0 then [t w.src1.toNat] else []
  let bc := ((if vBv w then [t w.src2.toNat] else []) ++ (if c.cv then [t c.cT] else [])).filter fun d => !latched d
  ((a ++ bc ++ vOut t w).flatMap fun d => rowSpans t d j) ++
    (if c.rwiv then [.span ((t c.rwiT).base + 8 * j) 8] else []) ++
    (if c.rwov then [.span ((t c.rwoT).base + 8 * j) 8] else []) ++
    (if c.smap then (vOut t w).map fun d => .span ((t c.mapT).base + mapRow d e * j) (mapRow d e) else [])

/-- The residual list at its capacity. -/
def vList (t : Nat → Desc) (w : IWord) (c : Chain) : List Area :=
  if c.rcap then (vOut t w).map fun d => .span (t d.residT).base ((t d.residT).ext0 * d.entryBytes) else []

/-- Latched operands and the table, read as the chain fills (R151). -/
def vFill (t : Nat → Desc) (w : IWord) (c : Chain) : List Area :=
  (((if vBv w then [t w.src2.toNat] else []) ++ (if c.cv then [t c.cT] else [])).filter latched).flatMap
    (fun d => rowSpans t d 0) ++
  (if c.fn = 8 then [.span (t (vTbl w)).base (16 * (t (vTbl w)).ext0)] else [])

/-- Cycles T of R151. -/
def vCycles (t : Nat → Desc) (w : IWord) (c : Chain) (rows e : Nat) : Nat :=
  let n := worstBank ((List.range rows).flatMap (vRowSpans t w c e) ++ vList t w c)
  (worstBank (vFill t w c) + 15) / 16 + max (rows * ((e + 127) / 128)) ((n + 15) / 16)

/-- Two tensors whose overlap R148 allows. -/
def sameTensor (o a : Desc) : Bool :=
  o.scaling == 0 && a.scaling == 0 && o.base == a.base && o.rank == a.rank &&
  (decide (o.rank < 1) || o.str1 == a.str1) && (decide (o.rank < 2) || o.str2 == a.str2) &&
  (decide (o.rank < 3) || o.str3 == a.str3) && decide (o.ebits ≤ a.ebits)

/-- The overlap that R148 bars. -/
def vOverlap (t : Nat → Desc) (w : IWord) (c : Chain) : Bool :=
  let hulls := fun d : Desc => (tensorAreas t d).map Area.hull
  let a := if vSrc w = 0 then [t w.src1.toNat] else []
  let other := ((if vBv w then [t w.src2.toNat] else []) ++ (if c.cv then [t c.cT] else [])).flatMap hulls ++
    a.flatMap (fun d => (hulls d).drop 1) ++
    (if c.fn = 8 then [Area.span (t (vTbl w)).base (16 * (t (vTbl w)).ext0)] else [])
  let aMain := a.map fun d => d.area.hull
  let ri := if c.rwiv then [(t c.rwiT).area.hull] else []
  let out := (vOut t w).map fun d => d.area.hull
  let ro := if c.rwov then [(t c.rwoT).area.hull] else []
  let rest := (vOut t w).flatMap (fun d => (hulls d).drop 1) ++ vList t w c ++
    (if c.smap then [Area.span (t c.mapT).base (t c.mapT).ext0] else [])
  areasMeet (out ++ ro ++ rest) other || areasMeet (ro ++ rest) aMain || areasMeet (out ++ rest) ri ||
    (areasMeet out aMain && !((vOut t w).any fun o => a.any fun x => sameTensor o x)) ||
    (areasMeet ro ri && (t c.rwoT).base != (t c.rwiT).base)

/-! ### Dispatch (R147) -/

/-- FORMAT and SCALING of an integer-lane operand (R133). -/
def intOperand (d : Desc) : Bool := d.scaling == 0 && [8, 9, 10, 11, 12].contains d.format

/-- A row tensor keeps to the form of R140. -/
def rowForm (c : Chain) (d : Desc) : Bool := d.rank == 0 && d.scaling == 0 && d.format == (if c.int then 0x0C else 0)

open State

/-- Largest number of bytes that 16 consecutive rows from row `i` on read and write in one bank (R146), or all rows when there are
fewer. DESIGN CHOICE (log entry 64): the residual list counts with the entries that these rows can mark, from its start. -/
def runBytes (t : Nat → Desc) (w : IWord) (c : Chain) (rows e i : Nat) : Nat :=
  let l := (vOut t w).map fun d =>
    Area.span (t d.residT).base (min (t d.residT).ext0 (16 * d.rowBlocks) * d.entryBytes)
  worstBank ((((List.range rows).drop i).take 16).flatMap (vRowSpans t w c e) ++ if c.rcap then l else [])

/-- The conditions of R147, on top of R69 and of the fields. `mst` is the pairing MST under DIRECT. DESIGN CHOICE (log entry 64):
banks open in different shapes are read in the shape of the first one named, an output of the direct path with one row may
have RANK 0, and fewer than 16 rows are tested as one run. -/
def vchCode (s : State) (p : Nat) (w : IWord) (c : Chain) (mst : Option Job) : Code :=
  let t := (s.core p).getT
  let a := t w.src1.toNat
  let out := vOut t w
  let bc := (if vBv w then [t w.src2.toNat] else []) ++ (if c.cv then [t c.cT] else [])
  let rw := (if c.rwiv then [t c.rwiT] else []) ++ (if c.rwov then [t c.rwoT] else [])
  let src := vSrc w
  let e := match mst with | some j => j.cols | none => if src = 2 then 0 else a.ext0
  let rows := match mst with | some j => j.main.e1 | none => if src = 2 then 0 else a.rows
  let shaped := fun d : Desc =>
    if src = 2 then mst.isNone || (d.ext0 == e && d.e1 == rows && (d.rank == 1 || (d.rank == 0 && rows == 1)))
    else d.rank == a.rank && d.ext0 == a.ext0 && d.e1 == a.e1 && d.e2 == a.e2 && d.e3 == a.e3
  let banks := (maskArrays (vMask w)).map fun x => (s.arrd p x).bank (vBank w)
  let wide := ((banks.filterMap id).head?.map (·.2)).getD false
  firstCode [
    ((vReads t w c ++ out).any (fun d => d.space != 0 || (d.scaling != 0 && (t d.scaleT).space != 0))
      || rw.any (fun d => d.space != 0) || (c.smap && (t c.mapT).space != 0) || (c.fn == 8 && (t (vTbl w)).space != 0)
      || (c.rcap && out.any fun d => (t d.residT).space != 0)
      || (c.sels.contains 2 && !vBv w) || (c.sels.contains 3 && !c.cv) || (c.rowSel && !c.rwiv)
      || decide (src = 1 ∧ (vMask w = 0 ∨ a.scaling ≠ 0 ∨ (a.format ≠ 0 ∧ a.format ≠ 0x0C)))
      || (c.int && (decide (src = 0 ∧ intOperand a = false) || decide (src = 1 ∧ a.format ≠ 0x0C)
        || (mst.map fun j => j.target % 2 == 0).getD false || bc.any (fun d => !intOperand d)
        || c.fn != 0 || c.rowSel || c.red == 4 || c.red == 5
        || out.any fun d => !(d.scaling == 0 && [8, 9, 12].contains d.format)))
      || (c.red != 0) != c.rwov
      || rw.any (fun d => !rowForm c d)
      || (c.rcap && !(out.any fun d => [5, 6, 7].contains d.format && d.scaling != 0 && d.residV))
      || c.thr != (out.any fun d => d.format == 10 || d.format == 11)
      || (vNout w && (c.rcap || c.smap)), .badField),
    (true, firstCode ((vReads t w c).map fun d => (true, checkDesc t d .read))),
    (true, firstCode (out.map fun d => (true, checkDesc t d (if c.rcap then .rcap else .written)))),
    (c.rwiv, checkDesc t (t c.rwiT) .read),
    (c.rwov, checkDesc t (t c.rwoT) .written),
    (c.fn == 8, checkDesc t (byteDesc (t (vTbl w)) (16 * (t (vTbl w)).ext0)) .read),
    (c.smap, checkDesc t (byteDesc (t c.mapT) (t c.mapT).ext0) .written),
    (decide (56 < vSb w) || (out ++ bc).any (fun d => !shaped d)
      || (c.fn == 8 && decide ((t (vTbl w)).ext0 = 0 ∨ 64 < (t (vTbl w)).ext0))
      || (c.smap && out.any fun d => decide ((t c.mapT).ext0 < rows * mapRow d e))
      || bc.any (fun d => zeroStrides d && !latched d)
      || rw.any (fun d => decide (d.ext0 < 2 * rows))
      || decide (src = 1 ∧ (1 < a.rank ∨ a.ext0 = 0 ∨ (a.rank = 1 ∧ a.ext1 = 0)))
      || (decide (src = 1) && !banks.any Option.isNone
        && decide (tileN wide * banks.length < a.ext0 ∨ bankRows wide < vRow0 w + a.e1))
      || ((mst.map fun j => decide (128 * j.done < tileN (decide (2 ≤ j.target)) * (maskArrays (mxMask j.w)).length)
        || (List.range (rows - min rows 16 + 1)).any fun i => decide (256 * j.done < runBytes t w c rows e i)).getD false)
      || vOverlap t w c, .range),
    (decide (src = 1) && banks.any (fun b => b.isNone || (b.map fun x => x.1 != (a.format == 0x0C)).getD false), .state),
    (if src = 2 then mst.isNone else !(s.unpaired p).isEmpty, .state)]

/-- VCH (R128, R147): dispatch takes the descriptors and the scalar block, and pairs with the MST (R145). -/
def vchBody (w : IWord) (w2 : DWord) (p : Nat) (s : State) : Res :=
  let k := s.core p
  let c := Chain.of w2
  let t := k.getT
  let mst := if vSrc w = 2 ∧ (s.unpaired p).length = 1 then (s.unpaired p).head? else none
  let code := vchCode s p w c mst
  if k.isBusy ((vCompanions t w c).map .t) then .held []
  else if code ≠ .ok then .bad s code
  else if 8 ≤ s.queued p 5 then .full (s.queuedIds p 5)
  else
    let a := t w.src1.toNat
    let e := match mst with | some j => j.cols | none => a.ext0
    let rows := match mst with | some j => j.main.e1 | none => a.rows
    let reads := (vReads t w c).flatMap (tensorAreas t) ++
      (if c.rwiv then [.span (t c.rwiT).base (8 * rows)] else []) ++
      (if c.fn = 8 then [.span (t (vTbl w)).base (16 * (t (vTbl w)).ext0)] else [])
    let writes := (vOut t w).flatMap (tensorAreas t) ++ vList t w c ++
      (if c.rwov then [.span (t c.rwoT).base (8 * rows)] else []) ++
      (if c.smap then (vOut t w).map fun d => .span (t c.mapT).base (rows * mapRow d e) else [])
    let scal := (List.range 8).map fun i => k.getS (BitVec.ofNat 6 (vSb w + i))
    let j := { newJob 5 0 w w2 (takeDescs k (vNamed w c ++ vCompanions t w c)) scal reads writes with
      fill := vFill t w c
      cols := e
      done := rows
      target := match mst with | some j => j.target % 2 | none => bit (a.format == 0x0C)
      pair := mst.map (·.id) }
    let s := s.dispatch p j
    let s := match mst with | some m => s.modJob p m.id fun x => { x with pair := some k.nextJob } | none => s
    .ok (if c.rcap then s.modCore p fun k => k.addBusy (.s (vSb w + 7)) else s)

/-- VCH (R128). -/
def execVch (c : CoreId) (w : IWord) (w2 : DWord) (s : State) : Outcome :=
  issue 0x05 0x00 w (some w2) (vchFields w w2)
    ((vNamed w (Chain.of w2)).map .t ++ (List.range 8).map (fun i => .s (vSb w + i))) c.val (vchBody w w2 c.val) s

/-- VCH_START (R149): the VCH at the head of the queue starts; one under DIRECT starts with its MST. -/
def execVchStart (c : CoreId) (s : State) : Outcome :=
  match (s.jobsOf c.val [5]).find? fun j => j.prog == .queued with
  | none => .next s
  | some j =>
    if vSrc j.w = 2 || !vchReady s c.val j then .next s
    else
      .next ((s.bump64 .vcuCycLo .vcuCycHi c.val (vCycles j.desc j.w (Chain.of j.w2) j.done j.cols)).modJob c.val j.id
        (s.startVch c.val))

/-! ### Lane arithmetic (R133, R134) -/

/-- An integer modulo 2^32. -/
def wrap32 (v : FVal) : FVal := .ofInt (toSigned 32 (v.trunc % 2 ^ 32).toNat)

/-- A lane result: one rounding to FP32, or modulo 2^32. -/
def lane (int : Bool) (v : FVal) : FVal := if int then wrap32 v else rnd32 v

/-- Maximum and minimum that order −0 below +0 (R137, R138). -/
def zmax (a b : FVal) : FVal :=
  if a.isNan || b.isNan then .nan else if a.isZero && b.isZero then (if a.neg then b else a)
  else if FVal.lt a b then b else a
def zmin (a b : FVal) : FVal :=
  if a.isNan || b.isNan then .nan else if a.isZero && b.isZero then (if a.neg then a else b)
  else if FVal.lt b a then b else a

/-- A scalar of the scalar block (R131). -/
def blockScalar (int : Bool) (j : Job) (i : Nat) : FVal :=
  let v := (j.scal.getD i 0).setWidth 32
  if int then .ofInt v.toInt else ofF32 v

/-- An operand by its selector (R130). -/
def selVal (code : Nat) (const scalar x b c u v : FVal) : FVal :=
  match code with
  | 0 => const | 1 => scalar | 2 => b | 3 => c | 4 => u | 5 => v | 6 => x | _ => u.negate

/-- A multiply-add stage; one whose selectors are both CONST is not used (R127, R134). -/
def madd (int : Bool) (m a : Nat) (x mv av : FVal) : FVal :=
  if m = 0 ∧ a = 0 then x else lane int ((x.mul mv).add av)

/-- The piecewise function (R136). -/
def piecewise (tbl : List (FVal × FVal × FVal)) (x : FVal) : FVal :=
  let hit := (tbl.filter fun e => FVal.le e.1 x).getLast?
  match (hit <|> tbl.head?), x with
  | _, .nan => .nan
  | some (_, a, b), x => rnd32 ((a.mul x).add b)
  | none, x => x

/-- Compare and select (R137). -/
def compareSel (int : Bool) (cs : Nat) (x y h : FVal) : FVal :=
  match cs with
  | 1 => zmax x y
  | 2 => zmin x y
  | 3 => if h.isNan then .nan else zmin (zmax x y) h
  | 4 => if FVal.lt .zero x then x else lane int (x.mul y)
  | 5 => if y.isZero then h else x
  | _ => x

/-- Stages 1 to 5 on one lane. -/
def stages (j : Job) (c : Chain) (tbl : List (FVal × FVal × FVal)) (u v : FVal) (x b y : FVal) : FVal :=
  let sc := blockScalar c.int j
  let pick := fun (code i : Nat) (const x : FVal) => selVal code const (sc i) x b y u v
  let x := madd c.int c.mul1 c.add1 x (pick c.mul1 0 .one x) (pick c.add1 1 .zero x)
  let x := if c.fn = 8 then piecewise tbl x else if c.fn = 0 then x else chainFunc c.fn x
  let x := compareSel c.int c.cs x (pick c.csy 2 .zero x) (sc 5)
  madd c.int c.mul2 c.add2 x (pick c.mul2 3 .one x) (pick c.add2 4 .zero x)

/-! ### Reduction (R138 to R140) -/

/-- One level of the tree: pairs in an order that the spec fixes and does not state (log entry 1). -/
def treeLevel (op : FVal → FVal → FVal) (lvl : Nat) : Nat → List FVal → List FVal
  | 0, xs => xs
  | _, [] => []
  | _, [x] => [x]
  | n + 1, x :: xs =>
    let (y, rest) := pickOut xs (Config.treePick lvl n % xs.length) x
    op x y :: treeLevel op lvl n rest

/-- The tree's output for one cycle of 128 lanes. -/
def treeOf (op : FVal → FVal → FVal) (ident : FVal) (xs : List FVal) : FVal :=
  ((List.range 7).foldl (fun l i => treeLevel op i 64 l) (xs ++ List.replicate (128 - xs.length) ident)).headD ident

/-- A row, cycle by cycle, into a running value. -/
def rowReduce (op : FVal → FVal → FVal) (ident : FVal) (xs : List FVal) : FVal :=
  (List.range ((xs.length + 127) / 128)).foldl (fun acc i => op acc (treeOf op ident ((xs.drop (128 * i)).take 128))) ident

/-- u and v of a row (R138). -/
def rowResult2 (c : Chain) (eps : FVal) (ys : List FVal) : FVal × FVal :=
  let sum := rowReduce (fun a b => lane c.int (a.add b)) .zero
  let e : FVal := .fin false ys.length 0
  let lowest : FVal := if c.int then .ofInt (-2 ^ 31) else .inf true
  let highest : FVal := if c.int then .ofInt (2 ^ 31 - 1) else .inf false
  if ys.any FVal.isNan then (.nan, .nan)
  else match c.red with
    | 1 => (sum ys, .zero)
    | 2 => (rowReduce zmax lowest ys, .zero)
    | 3 => (rowReduce zmin highest ys, .zero)
    | 4 =>
      let m := rnd32 ((sum ys).div e)
      let q := rnd32 ((sum (ys.map fun y => rnd32 (y.mul y))).div e)
      let d := zmax (rnd32 (q.sub (rnd32 (m.mul m)))) .zero
      let r := chainFunc 3 (rnd32 (d.add eps))
      (rnd32 (m.negate.mul r), r)
    | _ => (chainFunc 2 (sum ys), sum ys)

/-! ### Convert-in (R56) -/

/-- A lane value with the mark of an element derived from a poisoned line, and of an invalid code. -/
structure Lane where
  val : FVal
  bad : Bool
  invalid : Bool

/-- First byte and number of bytes of element `i` of a row (R35). -/
def elemSpan (d : Desc) (row i : Nat) : Nat × Nat :=
  (row + i * d.ebits / 8, (i * d.ebits + d.ebits - 1) / 8 - i * d.ebits / 8 + 1)

/-- Row `r` of a tensor as lanes. -/
def convertIn (s : State) (p : Nat) (int : Bool) (d sc : Desc) (r : Nat) : List Lane :=
  let f := d.fmt.getD .fp32
  let scales := if d.scaling = 0 then [] else s.scaleCodes p sc r
  (s.rowCodes p d r).zipIdx.map fun (code, i) =>
    let b := i / max 1 d.block
    let v := (elemVal f d.scaling code).mul ((scaleVal d.scaling (scales.getD b 0)).mul (tensorScale d.scaling d.tscale))
    let sp := elemSpan d (d.rowAddr r) i
    ⟨if int then v else rnd32 v,
      (s.padRead p sp.1 sp.2).2 || (decide (d.scaling ≠ 0) && (s.padRead p (sc.rowAddr r + b) 1).2),
      invalidElem f code⟩

/-- A word of a bank or of the direct path as a lane: an INT32 value enters FP32 lanes rounded (R133). -/
def wordLane (int32 int : Bool) (bad : Bool) (x : Word) : Lane :=
  ⟨if int32 then (if int then .ofInt x.toInt else rnd32 (.ofInt x.toInt)) else ofF32 x, bad, false⟩

/-- The scratchpad as a running VCH sees its table and latched operands: as they were when it started (R143). -/
def latchView (s : State) (p : Nat) (j : Job) : State :=
  { s with pads := s.pads.set p j.latch, padPoison := s.padPoison.set p j.latchBad }

/-- Row `r` of operand B or C: of a latched one the row read at the start, with its scales (R143). -/
def operandRow (s : State) (p : Nat) (j : Job) (int : Bool) (d : Desc) (r : Nat) : List Lane :=
  if latched d then convertIn (latchView s p j) p int d (j.scaleOf d) 0 else convertIn s p int d (j.scaleOf d) r

/-- The numbers that make up row `r` of an element tensor: codes of its elements and of its scales. -/
def rowNumbers (s : State) (p : Nat) (j : Job) (d : Desc) (r : Nat) : List Nat :=
  s.rowCodes p d r ++ if d.scaling = 0 then [] else s.scaleCodes p (j.scaleOf d) r

/-- Row `r` of input A. -/
def inputA (s : State) (p : Nat) (j : Job) (c : Chain) (r : Nat) : List Lane :=
  match vSrc j.w with
  | 0 => convertIn s p c.int j.main (j.scaleOf j.main) r
  | 1 =>
    let arrays := maskArrays (vMask j.w)
    let b := fun a => (s.arr p a).bank (vBank j.w)
    let n := tileN (b (arrays.getD 0 0)).wide
    let row := vRow0 j.w + r
    (List.range j.cols).map fun i =>
      let x := b (arrays.getD (i / n) 0)
      wordLane (j.target == 1) c.int (x.poison.contains row) (x.cell row (i % n))
  | _ =>
    let x := ((j.fwd.getD []).getD r ([], false))
    x.1.map (wordLane (j.target == 1) c.int x.2)

/-- The piecewise table (R136). -/
def readTable (s : State) (p : Nat) (d : Desc) : List (FVal × FVal × FVal) :=
  (List.range d.ext0).map fun i =>
    let bs := (s.pad p).readN (d.base + 16 * i) 12
    let f := fun n => ofF32 (BitVec.ofNat 32 (leNat ((bs.drop n).take 4)))
    (f 0, f 4, f 8)

/-! ### Convert-out (R57 to R64) -/

/-- What convert-out needs of the output. -/
structure OutCfg where
  f : Fmt
  scaling : Nat
  block : Nat
  t : FVal
  satf : Bool
  /-- Rounding at a position of the output. -/
  rnd : Nat → Rnd
  /-- A free value at a position of the output. -/
  free : Nat → BitVec 64
  thr : FVal

/-- A zero element: code 1 for binary (R496). -/
def zeroCode (f : Fmt) : Nat := if f = .binary then 1 else 0

/-- Largest finite of a sign (R60, R141). -/
def largestCode (f : Fmt) (neg : Bool) : Nat :=
  if f = .int32 ∧ neg then 2 ^ 31 else encodeElem f 0 (f.largest neg)

/-- Ternary and binary elements (R496). -/
def thrElem (f : Fmt) (thr x : FVal) : Nat :=
  if x.isNan then zeroCode f
  else if f = .binary then (if x.neg && !x.isZero then 0 else 1)
  else if !x.isFin || FVal.le thr x.abs then (if x.neg then 3 else 1) else 0

/-- An element from a value in units of the format, and whether R60 counts it. A NaN of a scaled output comes
only from a reciprocal that is infinite, and its code is a free value (log entry 1). DESIGN CHOICE (log entry 64): R60 lists
neither ternary nor binary, and only an infinite lane under S16, which R58 counts, is counted there. -/
def putElem (o : OutCfg) (pos : Nat) (x : FVal) : Nat × Bool :=
  let scaled := o.scaling ≠ 0
  if o.f = .ternary ∨ o.f = .binary then (thrElem o.f o.thr x, decide scaled && !x.isFin && !x.isNan)
  else match x with
    | .nan => if scaled then ((o.free pos).toNat % 2 ^ o.f.bits, false)
        else if o.f.hasInf then (pickNan o.f (o.free pos), false) else (0, false)
    | .inf n => if scaled ∨ ¬ o.f.hasInf ∨ o.satf then (largestCode o.f n, true) else (encodeF o.f 0 (.inf n), false)
    | x =>
      let r := o.rnd pos
      let y := roundUnbounded r o.f x
      if o.f.beyond y then
        (if scaled ∨ ¬ o.f.hasInf ∨ o.satf ∨ r = .rtz then largestCode o.f y.neg else encodeF o.f 0 (.inf y.neg), true)
      else (encodeElem o.f 0 y, false)

/-- A block as convert-out writes it. -/
structure OutBlock where
  scale : Nat
  codes : List Nat
  counted : Nat
  nans : Nat
  clamp : Bool

/-- e_max of R57. -/
def eMax : Fmt → Int
  | .e4m3 => 8 | .e5m2 => 15 | .e2m3 => 2 | .e3m2 => 4 | .e2m1 => 2 | _ => 0

/-- Smallest E4M3 code at or above a / (m * T), at most 448 (R58). -/
def s16Code (a mt : FVal) : Nat := ((List.range 126).find? fun c => FVal.le a ((decodeF .e4m3 c).mul mt)).getD 126

/-- Largest finite magnitude of a block's lanes. -/
def blockMax (xs : List FVal) : FVal := (xs.filter FVal.isFin).foldl (fun a x => FVal.fmax a x.abs) .zero

/-- One block, or one run of 32 elements of an unscaled row; `pos` is its first position. -/
def outBlock (o : OutCfg) (pos : Nat) (xs : List FVal) : OutBlock :=
  let nans := (xs.filter FVal.isNan).length
  let pad := fun cs : List Nat => cs ++ List.replicate (o.block - cs.length) (zeroCode o.f)
  let fin := fun (scale : Nat) (clamp : Bool) (rs : List (Nat × Bool)) =>
    (⟨scale, pad (rs.map (·.1)), (rs.filter (·.2)).length, nans, clamp⟩ : OutBlock)
  if o.scaling = 0 then fin 0 false (xs.zipIdx.map fun (x, i) => putElem o (pos + i) x)
  else if nans ≠ 0 then
    ⟨if o.scaling = 1 then 0xFF else 0x7F, pad (xs.map fun _ => zeroCode o.f), 0, nans, false⟩
  else
    let a := blockMax xs
    if a.isZero then
      fin 0 false (xs.map fun x => if x.isFin then (zeroCode o.f, false)
        else (if o.f = .ternary ∨ o.f = .binary then thrElem o.f o.thr x else largestCode o.f x.neg, true))
    else if o.scaling = 1 then
      let c0 := (match a with | .fin _ m e => FVal.expo m e | _ => 0) - eMax o.f + 127
      let c := (max 0 (min 254 c0)).toNat
      let k := FVal.pow2 (127 - (c : Int) + (if o.f = .int8 then 6 else 0))
      fin c (decide (c0 < 0 ∨ 254 < c0)) (xs.zipIdx.map fun (x, i) => putElem o (pos + i) (x.mul k))
    else
      let mt := (o.f.largest false).mul o.t
      let c := s16Code a mt
      let recip := rnd32 (FVal.one.div ((decodeF .e4m3 c).mul o.t))
      fin c (FVal.lt a ((FVal.pow2 (-9)).mul mt) || FVal.lt ((FVal.fin false 448 0).mul mt) a)
        (xs.zipIdx.map fun (x, i) => putElem o (pos + i) (rnd32 (x.mul recip)))

/-- The residual entry of a marked block: scale code and element codes (R54). -/
def residOf (o : OutCfg) (theta : FVal) (pos : Nat) (xs : List FVal) (b : OutBlock) : Option (Nat × List Nat) :=
  let bt := (scaleVal o.scaling b.scale).mul o.t
  let d := (b.codes.zipIdx.map fun (code, i) =>
    match xs[i]? with
    | some x => if x.isFin then x.sub ((elemVal o.f o.scaling code).mul bt) else .zero
    | none => FVal.zero)
  let m := blockMax d
  if b.nans ≠ 0 ∨ !(xs.any FVal.isFin) ∨ !(FVal.lt (theta.mul bt) m) then none
  else
    -- The exponent of an error of zero, which a negative θ can mark, is a free value (log entry 1).
    let c : Nat := match m with
      | .fin _ n e => if n = 0 then (o.free pos).toNat % 255 else (max 0 (min 254 (FVal.expo n e - 8 + 127))).toNat
      | _ => 0
    let k := (FVal.pow2 ((c : Int) - 127)).mul o.t
    let e4 : OutCfg := { o with f := .e4m3, scaling := 0, satf := true, rnd := fun _ => .rne }
    some (c, d.map fun x => (putElem e4 0 (x.div k)).1)

/-! ### Completion -/

/-- What a VCH has written so far. -/
structure VAcc where
  s : State
  entries : Nat
  map : List Byte
  sat : Nat
  nans : Nat
  full : Nat
  /-- Spans to mark as poisoned when all is written. -/
  marks : List (Nat × Nat)

namespace State

/-- Hardware sets a sticky bit a number of times (R10). -/
def stickyN (s : State) (p b n : Nat) : State :=
  if n = 0 then s else (s.setFlag .numSticky p b true).bump .numEvt (20 * p + b) n

end State

/-- Write one block of row `r`: its residual entry, scale and map byte. -/
def putBlock (p : Nat) (j : Job) (c : Chain) (o : OutCfg) (d : Desc) (r : Nat) (acc : VAcc)
    (x : Nat × Nat × List Lane × OutBlock) : VAcc :=
  let (b, pos, lanes, ob) := x
  let hit := lanes.any Lane.bad
  let rs := j.residOf d
  let res := if c.rcap then residOf o (blockScalar false j 7) pos (lanes.map Lane.val) ob else none
  let acc := match res with
    | none => acc
    | some (code, es) =>
      if rs.ext0 ≤ acc.entries then { acc with full := acc.full + 1 }
      else
        let bs := es.map (BitVec.ofNat 8) ++ leBytes 4 (r * d.rowBlocks + b) ++ [BitVec.ofNat 8 code]
        let a := rs.base + acc.entries * d.entryBytes
        { acc with
          s := acc.s.padWrite p a (bs ++ List.replicate (d.entryBytes - bs.length) 0)
          entries := acc.entries + 1
          marks := if hit then (a, d.entryBytes) :: acc.marks else acc.marks }
  let sa := (j.scaleOf d).rowAddr r + b
  { acc with
    s := if d.scaling = 0 then acc.s else acc.s.padWrite p sa [BitVec.ofNat 8 ob.scale]
    map := acc.map ++ [BitVec.ofNat 8 (ob.counted + 64 * bit (ob.nans != 0) + 128 * bit ob.clamp)]
    sat := acc.sat + ob.counted
    nans := acc.nans + ob.nans
    marks := if hit && decide (d.scaling ≠ 0) then (sa, 1) :: acc.marks else acc.marks }

/-- Write row `r` of the output (R141). Masked lanes write nothing, so a last byte that the row fills in part keeps its other
bits (R132). -/
def putRow (p : Nat) (j : Job) (c : Chain) (o : Nat → OutCfg) (d : Desc) (acc : VAcc) (x : List Lane × Nat) : VAcc :=
  let (lanes, r) := x
  let step := if d.block = 0 then 32 else d.block
  let oc := o r
  let blocks := (List.range ((lanes.length + step - 1) / step)).map fun b =>
    let ls := (lanes.drop (step * b)).take step
    (b, step * b, ls, outBlock oc (step * b) (ls.map Lane.val))
  let acc := blocks.foldl (putBlock p j c oc d r) acc
  let codes := blocks.flatMap fun x => x.2.2.2.codes
  let codes := codes ++ List.replicate (d.stored - codes.length) 0
  let bs := pack d.ebits codes
  let used := codes.length * d.ebits % 8
  let old := leNat ((acc.s.pad p).readN (d.rowAddr r + bs.length - 1) 1)
  let bs := if used = 0 then bs
    else bs.set (bs.length - 1) (BitVec.ofNat 8 ((bs.getLastD 0).toNat % 2 ^ used + old / 2 ^ used * 2 ^ used))
  { acc with
    s := acc.s.padWrite p (d.rowAddr r) bs
    marks := (lanes.zipIdx.filter fun l => l.1.bad).map (fun l => elemSpan d (d.rowAddr r) l.2) ++ acc.marks }

/-- The lanes of row `r` at the end of stage 5, with u and v read. -/
def rowLanes (s : State) (p : Nat) (j : Job) (c : Chain) (tbl : List (FVal × FVal × FVal)) (tblBad : Bool)
    (r : Nat) : List Lane :=
  let operand := fun (on : Bool) (d : Desc) => if on then operandRow s p j c.int d r else []
  let as := inputA s p j c r
  let bs := operand (vBv j.w) (j.desc j.w.src2.toNat)
  let cs := operand c.cv (j.desc c.cT)
  let ra := (j.desc c.rwiT).base + 8 * r
  let uv := s.padRead p ra 8
  let f := fun n => ofF32 (BitVec.ofNat 32 (leNat ((uv.1.drop n).take 4)))
  let useB := c.sels.contains 2
  let useC := c.sels.contains 3
  let none : Lane := ⟨.zero, false, false⟩
  as.zipIdx.map fun (a, i) =>
    let b := bs.getD i none
    let y := cs.getD i none
    ⟨stages j c tbl (f 0) (f 4) a.val b.val y.val,
      a.bad || (useB && b.bad) || (useC && y.bad) || (c.rowSel && uv.2) || tblBad, false⟩

/-- Ternary 0b10 elements that enter (R56); a latched operand enters once. -/
def invalidIn (s : State) (p : Nat) (j : Job) (c : Chain) : Nat :=
  let count := fun (row : Nat → List Lane) (rows : Nat) =>
    ((List.range rows).map fun r => ((row r).filter Lane.invalid).length).sum
  (if vSrc j.w = 0 then count (convertIn s p c.int j.main (j.scaleOf j.main)) j.done else 0) +
    (((if vBv j.w then [j.desc j.w.src2.toNat] else []) ++ (if c.cv then [j.desc c.cT] else [])).map fun d =>
      count (operandRow s p j c.int d) (if latched d then 1 else j.done)).sum

/-- All that a VCH names and reads for row `r`, on which what the spec leaves open there depends (R139). -/
def rowKey (s : State) (p : Nat) (j : Job) (c : Chain) (tbl : List Nat) (r : Nat) : List Nat :=
  let operand := fun (on : Bool) (d : Desc) =>
    if !on then [] else if latched d then rowNumbers (latchView s p j) p j d 0 else rowNumbers s p j d r
  let a := match vSrc j.w with
    | 0 => rowNumbers s p j j.main r
    | 1 => (maskArrays (vMask j.w)).flatMap fun a =>
        let x := (s.arr p a).bank (vBank j.w)
        (List.range (tileN x.wide)).map fun n => (x.cell (vRow0 j.w + r) n).toNat
    | _ => (((j.fwd.getD []).getD r ([], false)).1).map BitVec.toNat
  [j.w.imm.toNat, j.w2.toNat] ++ j.scal.map BitVec.toNat ++ a ++ operand (vBv j.w) (j.desc j.w.src2.toNat) ++
    operand c.cv (j.desc c.cT) ++ (if c.rwiv then [leNat ((s.pad p).readN ((j.desc c.rwiT).base + 8 * r) 8)] else []) ++ tbl

/-- Write u and v of a row (R140). -/
def putUV (p : Nat) (j : Job) (c : Chain) (free : Nat → Nat → BitVec 64) (acc : VAcc) (x : List Lane × Nat) : VAcc :=
  let (lanes, r) := x
  let (u, v) := rowResult2 c (blockScalar c.int j 6) (lanes.map Lane.val)
  let w := fun (i : Nat) (v : FVal) =>
    leBytes 4 (if c.int then BitVec.ofInt 32 v.trunc else f32Word (free r i) v).toNat
  let a := (j.desc c.rwoT).base + 8 * r
  { acc with
    s := acc.s.padWrite p a (w (2 ^ 20) u ++ w (2 ^ 20 + 1) v)
    marks := if lanes.any Lane.bad then (a, 8) :: acc.marks else acc.marks }

/-- A VCH completes (R151): outputs, row results, map bytes, residual entries, counters and s(SB + 7). -/
def finishVch (s : State) (p : Nat) (j : Job) : State :=
  let c := Chain.of j.w2
  let t := j.desc (vTbl j.w)
  let at0 := latchView s p j
  let tbl := if c.fn = 8 then readTable at0 p t else []
  let tblBad := c.fn == 8 && (at0.padRead p t.base (16 * t.ext0)).2
  let tblKey := if c.fn = 8 then ((at0.pad p).readN t.base (16 * t.ext0)).map BitVec.toNat else []
  let free := fun r => Config.chainFree (rowKey s p j c tblKey r)
  let rows := (List.range j.done).map (rowLanes s p j c tbl tblBad)
  let inval := invalidIn s p j c
  let d := j.desc j.w.dst.toNat
  let core := s.core p
  let o := fun r : Nat =>
    { f := d.fmt.getD .fp32, scaling := d.scaling, block := d.block, t := tensorScale d.scaling d.tscale, satf := c.satf
      rnd := fun i => match c.rnd with
        | 1 => .rtz
        | 2 => .sr (Config.srOut core.srSeed (core.srPos + r * d.stored + i)).toNat
        | _ => .rne
      free := free r
      thr := blockScalar false j 7 : OutCfg }
  let acc : VAcc := ⟨s, 0, [], 0, 0, 0, []⟩
  let acc := if c.rwov then rows.zipIdx.foldl (putUV p j c free) acc else acc
  let acc := if vNout j.w then acc else rows.zipIdx.foldl (putRow p j c o d) acc
  let s := acc.s
  let s := if c.smap then s.padWrite p (j.desc c.mapT).base acc.map else s
  let s := acc.marks.foldl (fun s x => s.padMark p x.1 x.2) s
  let s := (((s.countSat p acc.sat).stickyN p 17 acc.nans).stickyN p 18 acc.full).stickyN p 19 inval
  let s := if vSrc j.w = 2 then s.bump .vcuFwd p j.done else s
  let s := s.modCore p fun q => { q with
    srPos := if c.rnd = 2 ∧ !vNout j.w then q.srPos + j.done * d.stored else q.srPos }
  let s := if c.rcap then
      s.modCore p fun q => (q.setS (BitVec.ofNat 6 (vSb j.w + 7)) (BitVec.ofNat 64 acc.entries)).freeBusy (.s (vSb j.w + 7))
    else s
  s.dropJob p j.id

/-- VCH_COMPLETE (R151): the core's oldest running VCH completes; under DIRECT once its rows have come. -/
def execVchComplete (c : CoreId) (s : State) : Outcome :=
  match (s.jobsOf c.val [5]).find? fun j => j.prog == .running with
  | none => .next s
  | some j => if vSrc j.w = 2 ∧ j.fwd.isNone then .next s else .next (finishVch s c.val j)

end Sys2Proof.Machine
end

