-- ==== Sys2Proof/Machine/Engine.lean ====
section
/-!
DEFINITION. The lookup engines (R191, R192, R197, R211 to R215, R219, R222, R226, R229 to R235): parts, adds,
folds, repacking, what waits for a row page, and the events PART, UPDATE, ROW_PAGE_INSTALL and those of the
governor.
-/

namespace Sys2Proof.Machine

/-- A row page that could not be read, with the code of its READ (R194, R275). -/
abbrev Lost := Option (Nat × Code)

/-- A row as its home engine finds it (R211). -/
inductive RowRead where
  | got (s : State) (bs : List Byte) (bad : Bool) (hot : Bool) | miss (id : Nat) | lost (code : Code)

namespace State

/-- Look for a row: a half of the hot store, locator and page in the cache, and the well on a miss (R205, R211). -/
def readRow (s : State) (e : Nat) (half : Bool) (tid : Nat) (t : Table) (inst row : Nat) (lost : Lost) : RowRead :=
  match s.hotCopy e half tid row inst with
  | some x => .got s x.raw x.bad true
  | none => match s.rowAt tid t inst row with
    | .miss id => match lost with
      | some (l, c) => if l = id then .lost c else .miss id
      | none => .miss id
    | .at_ id off => let (bs, bad) := s.rowBytes t (.at_ id off)
      .got (s.useRow tid t inst row id) bs bad false
    | .bad id => .got (s.hitPage id) (List.replicate t.rowSize 0) true false
    | .zero => .got s (List.replicate t.rowSize 0) false false

/-! ### Pooling (R183, R187) -/

/-- A partial sum with one more row. -/
def poolRow (op : Nat) (acc : List FVal) (w : Word) (weighted : Bool) (vs : List FVal) : List FVal :=
  if op = 0 then vs
  else if weighted then
    let acc := if acc.isEmpty then vs.map fun _ => FVal.zero else acc
    (acc.zip vs).map fun (a, v) => rnd32 ((ofF32 w).mul v |>.add a)
  else if acc.isEmpty then vs
  else (acc.zip vs).map fun (a, v) => rnd32 (a.add v)

/-- Set a bit of a flags byte. -/
def setBit (f : BitVec 8) (i : Nat) (x : Bool) : BitVec 8 := if x then f ||| BitVec.ofNat 8 (2 ^ i) else f

end State

/-- How an attempt to serve a part goes. -/
structure PartRun where
  s : State
  p : RowPart
  code : Code

namespace State

/-- Serve one row of a part, or leave it for later when its page must be read. `later` says that the part has
waited before, for the pages `old`. -/
def serveRow (e : Nat) (t : Table) (weighted later : Bool) (old : List Nat) (lost : Lost) (k : Nat) (r : PartRun)
    (it : (Nat × Word) × Nat) : PartRun :=
  if r.code ≠ .ok then r
  else
    let (row, w) := it.1
    match r.s.readRow e r.p.half r.p.tid t r.p.inst row lost with
    | .lost c => { r with code := c }
    | .miss id =>
      let (s, w) := r.s.await id (if old.contains id || r.p.waits.contains id then some id else none)
      { r with s := s, p := { r.p with
          items := r.p.items ++ [it.1]
          flags := setBit r.p.flags 4 true
          waits := w.toList.foldl setInsert r.p.waits } }
    | .got s bs bad hot =>
      let s := (if hot then s.bump .rowsHot e 1 else if later then s.bump .rowsWell e 1 else s.bump .rowsCis e 1).cmsCount e r.p.tid row
      let (vs, bad) := if r.p.op = 3 then ([], bad) else s.rowVals r.p.tid t r.p.inst row bs bad
      let vec := if r.p.op = 3 then [] else poolRow r.p.op (r.p.vec.map ofF32) w weighted vs
      { r with
        s := s
        p := { r.p with
          -- The payload of a NaN in a partial sum is a free value (log entry 1).
          vec := vec.zipIdx.map fun (v, i) => f32Word (Config.freeAt k (2048 * it.2 + i)) v
          count := r.p.count + 1
          flags := setBit r.p.flags 5 (vs.any FVal.isNan || vec.any FVal.isNan)
          bad := r.p.bad || bad
          raw := if r.p.op = 3 then bs else r.p.raw } }

/-- Serve what can be served of a part, its rows in an order that the spec leaves open (R48, log entry 1). -/
def serve (s : State) (e : Nat) (p : RowPart) (later : Bool) (lost : Lost) : PartRun :=
  match s.table p.tid with
  | none => ⟨s, p, .state⟩
  | some t =>
    if !t.serves p.inst then ⟨s, p, .version⟩
    else
      let (k, s) := s.draw
      let weighted := p.op == 4
      let items := anyOrder k 0 p.items.length p.items
      items.zipIdx.foldl (serveRow e t weighted later p.waits lost k)
        ⟨s, { p with items := [], waits := [] }, if p.items.any (fun i => decide (t.rows ≤ i.1)) then .range else .ok⟩

/-! ### Answers -/

/-- Send a response (R396, R400): an undeliverable one is dropped and counted. -/
def respond (s : State) (p : Packet) : State :=
  match s.route p.dst 0 with
  | none => s.bump .tlkNoroute 0 1
  | some l => s.sendOn l { p with src := s.node }

/-- A NAK of a request with a code (R396). -/
def nak (s : State) (p : Packet) (code : Code) : State :=
  s.respond ⟨p.src, 0, 0, 0x14, false, p.tag, 0, p.addr, code.toNat, []⟩

/-- Bytes of a vector of words. -/
def wordBytes (v : List Word) : List Byte := v.flatMap fun w => leBytes 4 w.toNat

/-- Words of a byte string. -/
def wordsOf (bs : List Byte) : List Word :=
  (List.range (bs.length / 4)).map fun i => BitVec.ofNat 32 (leNat ((bs.drop (4 * i)).take 4))

/-- PMASK of a body that is poisoned whole. -/
def fullMask (bad : Bool) (n : Nat) : Nat := if bad then 2 ^ ((n + 63) / 64) - 1 else 0

/-- The PSUM packets of a partial sum: two when the vector exceeds 2,048 bytes (R396). -/
def psumPkts (dst tag : Nat) (vec : List Word) (count : Nat) (flags : BitVec 8) (bad : Bool) : List Packet :=
  let arg := count % 2 ^ 16 + 2 ^ 16 * flags.toNat
  let mk := fun (v : List Word) (x : Nat) =>
    (⟨dst, 0, 0, 0x12, false, tag, fullMask bad (4 * v.length), 0, arg + 2 ^ 24 * x, wordBytes v⟩ : Packet)
  if vec.length ≤ 512 then [mk vec 0]
  else [mk (vec.take (vec.length / 2)) 2, mk (vec.drop (vec.length / 2)) 3]

/-- A part is answered to who asked: a partial sum, or the code that ends it (R194, R197). -/
def answerTo (s : State) (to_ : Sender) (p : RowPart) (code : Code) : State :=
  match to_ with
  | .core c job bag =>
    { s with psums := s.psums ++ [⟨c, job, bag, p.vec, p.count, p.flags, p.bad, p.raw, code⟩] }
  | .node n tag | .relay _ n tag =>
    if code ≠ .ok then s.respond ⟨n, 0, 0, 0x14, false, tag, 0, 0, code.toNat, []⟩
    else (psumPkts n tag p.vec p.count p.flags p.bad).foldl respond s

def partsOf (s : State) (e : Nat) : List RowPart := s.parts.getD e []
def addsOf (s : State) (e : Nat) : List Add := s.adds.getD e []
def setParts (s : State) (e : Nat) (l : List RowPart) : State := { s with parts := s.parts.set e l }
def setAdds (s : State) (e : Nat) (l : List Add) : State := { s with adds := s.adds.set e l }

/-- A sum of partial sums with one more, in order of arrival (R197). -/
def addSums (k : Nat) (a b : List Word) : List Word :=
  if a.isEmpty then b
  else (a.zip b).zipIdx.map fun ((x, y), i) => f32Word (Config.freeAt k i) ((ofF32 x).add (ofF32 y))

/-- The answer to rows that an engine forwarded while it pooled the rest of their part (R219; log entry 26). -/
def relayPsum (s : State) (e : Nat) (who : Sender) (x : Psum) : State :=
  match (s.partsOf e).find? fun p => p.sender == who && decide (p.subs ≠ 0) with
  | none => s
  | some p =>
    if x.code ≠ .ok then (s.setParts e ((s.partsOf e).erase p)).answerTo who p x.code
    else
      let (k, s) := s.draw
      let p' := { p with
        vec := addSums k p.vec x.vec
        count := p.count + x.count
        flags := p.flags ||| x.flags
        bad := p.bad || x.bad
        subs := p.subs - 1 }
      if p'.subs = 0 ∧ p'.items.isEmpty then (s.setParts e ((s.partsOf e).erase p)).answerTo who p' .ok
      else s.setParts e ((s.partsOf e).map fun q => if q = p then p' else q)

/-- A part is answered. -/
def answerPart (s : State) (p : RowPart) (code : Code) : State :=
  match p.sender with
  | .relay e n tag => s.relayPsum e (.node n tag) ⟨0, 0, 0, p.vec, p.count, p.flags, p.bad, p.raw, code⟩
  | x => s.answerTo x p code

/-! ### Repacking (R215) -/

/-- How a row's move goes. -/
inductive RowMove where
  | done (s : State) | miss (id : Nat) | wait | drop

/-- Move a row of a PACKED instar into a fresh slot (R215): its bytes, then its locator. A row that is nowhere or
poisoned stays where it is (log entry 65). -/
def moveRow (s : State) (e tid : Nat) (t : Table) (inst row : Nat) : RowMove :=
  match s.rowAt tid t inst row with
  | .miss id => .miss id
  | .at_ id off =>
    let (bs, bad) := s.rowBytes t (.at_ id off)
    if bad || !t.packed inst then .drop
    else match s.newSlot e tid t inst row with
      | .ready s1 id1 off1 => .done (s1.writePage id1 off1 bs)
      | .miss id => .miss id
      | .full => .wait
  | _ => .drop

/-- Move rows, given as instar and row, all or none: the pages that must be read first otherwise. -/
def moveRows (e tid : Nat) (t : Table) : List (Nat × Nat) → State → Except (List Nat) State
  | [], s => .ok s
  | (i, r) :: rest, s =>
    match s.moveRow e tid t i r with
    | .done s1 => moveRows e tid t rest s1
    | .drop => moveRows e tid t rest s
    | .wait => .error []
    | .miss id => match moveRows e tid t rest s with
      | .ok _ => .error [id]
      | .error l => .error (setInsert l id)

/-- More than half of the bytes of a page found through locators are free, and it is no tail. -/
def sparse (s : State) (t : Table) (id : Nat) (p : Page) : Bool :=
  p.packed && !p.loc && !p.miss && p.poison.isEmpty &&
    ((s.liveRows id p t).any fun l => decide (2 * t.rowSize * (l.map (·.2)).eraseDups.length < 2048)) &&
    !(s.tails.any fun x => x.1 == p.tid && p.insts.contains x.2.1 && x.2.2.1 == p.group && x.2.2.2.1 == p.page)

/-- Return a sparse page: its rows move into new pages, and it goes back to the well engine (R215). -/
def returnPage (s : State) (id : Nat) : State :=
  match s.page id with
  | none => s
  | some p => match s.table p.tid with
    | none => s
    | some t =>
      if !s.sparse t id p then s
      else
        let e := p.engine
        match moveRows e p.tid t ((s.liveRows id p t).getD []) s with
        | .ok s1 =>
          -- A row that did not move keeps the page.
          if (s1.page id).any fun q => (s1.liveRows id q t).any (·.isEmpty) then s1.dropPage id else s
        | .error l =>
          let s1 := l.foldl (fun s i =>
            if p.swept ∧ s.missing i then s else s.missPage i) s
          { s1 with pages := s1.pages.mapV fun k q => if k = id then { q with swept := true } else q }

/-- Pages of a group that can be returned are. -/
def returnGroup (s : State) (tid group : Nat) : State :=
  (s.pages.filter fun kv => kv.2.tid == tid && kv.2.group == group).foldl (fun s kv => s.returnPage kv.1) s

/-- The candidates of a table's group. -/
def candidates (s : State) (tid inst group : Nat) : List Cand :=
  s.repacks.filter fun x => x.tid == tid && x.inst == inst && x.group == group

/-- Repack when a group's candidates fill a page (R215): the tail moves to a fresh page, the rows go into it, and
pages left sparse are returned. -/
def repack (s : State) (e tid : Nat) (t : Table) (inst group : Nat) : State :=
  let now := (s.candidates tid inst group).take t.perPage
  if now.length < t.perPage then s
  else
    match moveRows e tid t (now.map fun c => (inst, c.row)) (s.setTail tid inst group 0 2048) with
    | .ok s1 => ({ s1 with repacks := s1.repacks.filter fun x => !now.contains x }).returnGroup tid group
    | .error l => l.foldl (fun s id =>
        -- The rows that wait for the page join its entry once.
        let old := now.any fun c => c.wait == some id
        let (s1, w) := s.await id (if old then some id else none)
        { s1 with repacks := s1.repacks.map fun c =>
            if now.contains c && decide (s.rowAt tid t inst c.row = .miss id) then { c with wait := w } else c }) s

/-- A part that read the well is sampled for repacking: which ones is a free value (R215, log entry 1). -/
def sample (s : State) (e : Nat) (p : RowPart) : State :=
  match s.table p.tid with
  | none => s
  | some t =>
    let (k, s) := s.draw
    if !t.packed p.inst || !p.flags.getLsbD 4 ||
        (Config.freeAt k 0).toNat % (max 1 (s.fld .foldCfg 0 23 16)) ≠ 0 then s
    else match p.all with
      | [] => s
      | r0 :: _ =>
        let g := t.groupOf r0
        let new := (p.all.filter fun r => t.groupOf r == g).eraseDups.filter fun r =>
          !(s.candidates p.tid p.inst g).any fun c => c.row == r
        ({ s with repacks := s.repacks ++ new.map fun r => (⟨p.tid, p.inst, g, r, e, none⟩ : Cand) }).repack e p.tid t p.inst g

/-- Repacking and returns of an engine's die that wait go on; rows in a page that could not be read are no longer
candidates. -/
def pumpRepacks (die : Nat) (lost : Lost) (s : State) : State :=
  let gone := fun (c : Cand) => c.engine / 32 == die && lost.any fun l => c.wait == some l.1
  let s := { s with
    repacks := s.repacks.filter fun c => !gone c
    pages := match lost with
      | some _ => s.pages.mapV fun _ p => if p.engine / 32 = die then { p with swept := false } else p
      | none => s.pages }
  let groups := ((s.repacks.filter fun c => c.engine / 32 == die).map fun c => (c.engine, c.tid, c.inst, c.group)).eraseDups
  let s := groups.foldl (fun s (e, tid, inst, g) => match s.table tid with
    | some t => s.repack e tid t inst g
    | none => s) s
  if lost.isSome then s
  else (s.pages.filter fun kv => kv.2.swept && kv.2.engine / 32 == die).foldl (fun s kv => s.returnPage kv.1) s

/-- Go on with a part that an engine has taken. -/
def runPart (s : State) (e : Nat) (p : RowPart) (later : Bool) (lost : Lost) : State × Option RowPart :=
  let r := s.serve e p later lost
  if r.code ≠ .ok then (r.s.answerPart r.p r.code, none)
  else if !r.p.items.isEmpty || r.p.subs ≠ 0 then (r.s, some r.p)
  else ((r.s.sample e r.p).answerPart r.p .ok, none)

/-! ### Adds (R191, R226, R232) -/

end State

/-- How a change of a row goes. -/
inductive RowDo where
  | done (s : State) | miss (id : Nat) | lost (code : Code) | wait (s : State) | skip (s : State)

namespace State

/-- Add a vector to the stored elements of an FP16 or BF16 row: one rounding each (R191). -/
def addStored (t : Table) (bs : List Byte) (vec : List Word) (k : Nat) : List Byte :=
  let codes := ((t.codes bs).zip vec).zipIdx.map fun ((c, w), i) =>
    let v := roundIEEE t.f ((decodeElem t.f c).add (ofF32 w))
    encodeElem t.f (pickNan t.f (Config.freeAt k i)) v
  pack t.f.bits codes ++ bs.drop t.elemBytes

/-- Apply an add to the stored row of each of some instars, place by place (R226). A row behind a poisoned locator
stays poisoned, and the add is lost with it (log entry 65). -/
def addPages (s : State) (e tid : Nat) (t : Table) (row : Nat) (vec : List Word) (bad : Bool) (lost : Lost) :
    Nat → List Nat → RowDo
  | 0, _ => .done s
  | n + 1, insts =>
    if insts.isEmpty then .done s
    else match s.sharers tid t row insts with
      | .error id => (match lost with
        | some (l, c) => if l = id then .lost c else .miss id
        | none => .miss id)
      | .ok mine =>
        let rest := insts.filter fun i => !mine.contains i
        match s.rowAt tid t (insts.headD 0) row, s.prepare e tid t mine row with
        | .bad _, _ => s.addPages e tid t row vec bad lost n rest
        | _, .full => .wait s
        | _, .miss id => (match lost with
          | some (l, c) => if l = id then .lost c else .miss id
          | none => .miss id)
        | _, .ready s1 id off =>
          let s1 := s1.useRow tid t (insts.headD 0) row id
          let (bs, pb) := s1.rowBytes t (.at_ id off)
          let (k, s1) := s1.draw
          let s1 := s1.putRow tid row id off mine (addStored t bs vec k) (bad || pb)
          s1.addPages e tid t row vec bad lost n rest

/-- A row's page in an instar, cached or not, to tell whether two instars share it. -/
def rowPage (s : State) (tid : Nat) (t : Table) (inst row : Nat) : Option Nat :=
  match s.rowAt tid t inst row with
  | .at_ id _ => some id
  | .miss id => some id
  | .bad id => some id
  | .zero => none

/-- Add to shadows (R191, R226): a shadow that only some of the instars take part in is split, a missing one is
created, shared where the instars share the row. None when the pool has no room (R230). -/
def addShadow (s : State) (e tid : Nat) (t : Table) (row : Nat) (vec : List Word) (bad : Bool) :
    Nat → List Nat → Option State
  | 0, _ => some s
  | n + 1, insts =>
    match insts with
    | [] => some s
    | i :: _ =>
      let room := decide (s.poolUsed (e / 32) + 4 * t.elems ≤ s.poolBytes)
      match s.shadowOf tid row i with
      | some x =>
        let mine := x.insts.filter insts.contains
        let sum := (x.vec.zip vec).map fun (a, w) => toF32 ((ofF32 a).add (ofF32 w))
        let x' := { x with insts := mine, vec := sum, bad := x.bad || bad }
        let rest := x.insts.filter fun j => !mine.contains j
        if rest.isEmpty then
          ({ s with shadows := s.shadows.map fun y => if y = x then x' else y }).addShadow e tid t row vec bad n
            (insts.filter fun j => !mine.contains j)
        else if room then
          ({ s with shadows := (s.shadows.map fun y => if y = x then { x with insts := rest } else y) ++ [x'] }).addShadow
            e tid t row vec bad n (insts.filter fun j => !mine.contains j)
        else none
      | none =>
        if !room then none
        else
          let mine := insts.filter fun j => j == i || (t.clone && (s.shadowOf tid row j).isNone &&
            s.rowPage tid t j row == s.rowPage tid t i row)
          -- A sum with a shadow of zero.
          let v := vec.map fun w => toF32 (FVal.zero.add (ofF32 w))
          let x : Shadow := ⟨tid, row, mine, e, v, s.ticks, bad, false, none⟩
          ({ s with shadows := s.shadows ++ [x] }).addShadow e tid t row vec bad n
            (insts.filter fun j => !mine.contains j)

/-- Apply an add at its home engine (R191, R222). -/
def applyAdd (s : State) (e : Nat) (a : Add) (lost : Lost) : RowDo :=
  match s.table a.tid with
  | none => .lost .state
  | some t =>
    if !t.serves a.inst then .lost .version
    else if !t.upd then .lost .state
    else if t.rows ≤ a.row then .lost .range
    else
      let insts := if t.mirror ∧ t.ostate ≠ 0 then t.live else [a.inst]
      let s1 := s.setTable a.tid { t with touched := true }
      let ok := fun (s : State) => RowDo.done (s.bump .rowsAdds e 1)
      if t.shadowed then
        match s1.addShadow e a.tid t a.row a.vec a.bad 2 insts with
        | some s2 => ok s2
        | none => .wait s
      else match s1.addPages e a.tid t a.row a.vec a.bad lost 2 insts with
        | .done s2 => ok s2
        | r => r

/-- An add of an LKU is applied or acknowledged, or ends with a code: the LKU completes with its last add
(R196). -/
def addDone (s : State) (c job : Nat) (code : Code) : State :=
  match s.job c job with
  | none => s
  | some j =>
    if code ≠ .ok then s.faultCore c j.cls j.func j.pc code
    else if j.done ≤ 1 then s.dropJob c job
    else s.modJob c job fun j => { j with done := j.done - 1 }

/-- An add is acknowledged, or ends with a code: a local one to its LKU, a remote one with an answer (R231). -/
def answerAdd (s : State) (a : Add) (code : Code) : State :=
  match a.sender with
  | .core c job _ => s.addDone c job code
  | .node n tag | .relay _ n tag =>
    if code ≠ .ok then
      let refuse := fun (s : State) (t : Nat) => s.respond ⟨n, 0, 0, 0x14, false, t, 0, a.row, code.toNat, []⟩
      match a.also with
      | some t => refuse (refuse s t) tag
      | none => refuse s tag
    else
      let ack := fun (s : State) (t : Nat) => s.respond ⟨n, 0, 0, 0x13, false, t, 0, 0, 0, []⟩
      match a.also with
      | some t => ack (ack s t) tag
      | none => ack s tag

/-- An LKU's add reads a row page from the well: the WELL flag of its bag (R189). -/
def markWell (s : State) (a : Add) : State :=
  match a.sender with
  | .core c job bag =>
    (match s.job c job with
    | some j =>
      if j.w2.getLsbD 10 then
        let at_ := (j.desc (bitsOf j.w2.toNat 9 5)).base + bag
        let (bs, bad) := s.padRead c at_ 1
        s.padWrite c at_ (bs.map fun b => b ||| 0x10) bad
      else s
    | none => s)
  | _ => s

/-- Go on with an add that an engine has taken. One that waits for the shadow pool keeps the tick since which it
does (R230, R235). -/
def runAdd (s : State) (e : Nat) (a : Add) (lost : Lost) : State × Option Add :=
  match s.applyAdd e a lost with
  | .done s1 => (s1.answerAdd a .ok, none)
  | .miss id =>
    let (s1, w) := s.await id a.wait
    (s1.markWell a, some { a with wait := w, held := none })
  | .lost c => (s.answerAdd a c, none)
  | .wait _ =>
    let pool := (s.table a.tid).any (·.shadowed)
    (s, some { a with wait := none, held := if pool then a.held <|> some s.ticks else none })
  | .skip s1 => (s1, some a)

/-! ### Folds (R229) -/

/-- A row as a fold re-encodes it: each (v - b) / s rounded once to FP32, then convert-out with stochastic
rounding; the row scale and bias stay. `pos` is the position of the engine's generator. -/
def foldBytes (t : Table) (e pos k : Nat) (bs : List Byte) (vs : List FVal) : List Byte :=
  let sc := t.scaleOf bs
  let b := t.biasOf bs
  let xs := vs.map fun v => rnd32 ((v.sub b).div sc)
  let o : OutCfg :=
    { f := t.f, scaling := t.scaling, block := t.block, t := tensorScale t.scaling t.tscale
      -- Whether an overflow of E5M2 saturates is a free value (log entry 1).
      satf := (Config.freeAt k 0).getLsbD 0
      rnd := fun i => .sr (Config.srOut (BitVec.ofNat 64 (2 * e + 1)) (pos + i)).toNat
      free := fun i => Config.freeAt k (i + 1)
      thr := .one }
  let n := if t.block = 0 then t.elems else t.block
  let blocks := (List.range ((t.elems + n - 1) / n)).map fun i => outBlock o (n * i) ((xs.drop (n * i)).take n)
  let el := pack t.f.bits (blocks.flatMap (·.codes))
  let el := el ++ List.replicate (t.elemBytes - el.length) 0
  let body := el.take t.elemBytes ++ (if t.scaling = 0 then [] else blocks.map fun x => BitVec.ofNat 8 x.scale)
  body ++ bs.drop body.length

/-- Fold a shadow into the rows of its instars, place by place. -/
def foldPages (s : State) (tid : Nat) (t : Table) (x : Shadow) (lost : Lost) : Nat → List Nat → RowDo
  | 0, _ => .done s
  | n + 1, insts =>
    if insts.isEmpty then .done s
    else
      let need := fun (id : Nat) => match lost with
        | some (l, c) => if l = id then RowDo.lost c else RowDo.miss id
        | none => RowDo.miss id
      match s.sharers tid t x.row insts with
      | .error id => need id
      | .ok mine => match s.rowAt tid t (insts.headD 0) x.row, s.prepare x.engine tid t mine x.row with
        -- A row that is poisoned, or whose shadow is, is not folded (R416).
        | .bad _, _ => .lost .poison
        | _, .full => .wait s
        | _, .miss id => need id
        | _, .ready s1 id off =>
          let s1 := s1.useRow tid t (insts.headD 0) x.row id
          let (bs, pb) := s1.rowBytes t (.at_ id off)
          if pb || x.bad then .lost .poison
          else if (t.scaleOf bs).isZero then .skip s
          else
            let vs := ((t.values bs).zip x.vec).map fun (v, w) => rnd32 (v.add (ofF32 w))
            let pos := s1.foldPos.getD x.engine 0
            let (k, s1) := s1.draw
            let s1 := { s1 with foldPos := s1.foldPos.set x.engine (pos + t.stored) }
            let s1 := s1.putRow tid x.row id off mine (foldBytes t x.engine pos k bs vs) false
            (s1.dropShadow tid x.row mine).foldPages tid t x lost n (insts.filter fun j => !mine.contains j)

/-- Count a row that is not folded (LKE_FOLD_STAT.SKIP). -/
def skipFold (s : State) : State := s.setFld .foldStat 0 31 8 (satAdd 0xFFFFFF (s.fld .foldStat 0 31 8) 1)

/-- A fold would dirty a clean page while dirty pages fill their limit (R235). -/
def foldHeld (s : State) (tid : Nat) (t : Table) (x : Shadow) : Bool :=
  s.dirtyFull && (match s.rowPage tid t (x.insts.headD 0) x.row with
    | some id => (s.page id).any fun p => p.dirty.isNone
    | none => true)

/-- Fold a shadow (R229). -/
def fold1 (s : State) (x : Shadow) (lost : Lost) : RowDo :=
  match s.table x.tid with
  | none => .done s
  | some t => match s.foldPages x.tid t x lost 2 x.insts with
    | .skip _ => .skip s.skipFold
    | r => r

/-- A shadow of a list is replaced. -/
def setShadow (s : State) (x y : Shadow) : State := { s with shadows := s.shadows.map fun z => if z = x then y else z }

/-- A fold that cannot be made is tried again at a later PERIOD (R229). -/
def later (s : State) (x : Shadow) : State :=
  let y := { x with due := false, wait := none, since := s.ticks }
  { s with shadows := s.shadows.filter (fun z => z.tid != x.tid || z.row != x.row || z.insts != x.insts) ++ [y] }

/-- A fold that is due goes on: it is made, skipped, or waits for its page. One whose page cannot be read is tried again
at a later PERIOD (R229, R281). -/
def tryFold (s : State) (x : Shadow) (lost : Lost) : State :=
  match s.table x.tid with
  | none => s
  | some t =>
    if s.foldHeld x.tid t x then s.setShadow x { x with due := true }
    else match s.fold1 x lost with
      | .done s1 => s1
      | .skip s1 => s1.later x
      | .miss id =>
        let (s1, w) := s.await id x.wait
        s1.setShadow x { x with due := true, wait := w }
      | .lost c =>
        (if c = .media then s.skipFold else s).later x
      | .wait _ => s.setShadow x { x with due := true }

/-- Shadows of a die whose fold is due. -/
def dueFolds (die : Nat) (lost : Lost) (s : State) : State :=
  (s.shadows.filter fun x => x.due && x.engine / 32 == die).foldl (fun s x => s.tryFold x lost) s

/-- Shadows of a die are folded, oldest first, while its pool is more than 90 % full (R230). -/
def poolPressure (s : State) (die : Nat) : State :=
  (s.shadows.filter fun x => x.engine / 32 == die && !x.due).foldl (fun s x =>
    if s.poolUsed die * 10 ≤ s.poolBytes * 9 then s else s.tryFold x none) s

/-! ### What waits -/

/-- Go on with an add, and fold what the pool then asks for (R230); an add that waits for the pool tries once
more when that has freed a shadow. -/
def stepAdd (s : State) (e : Nat) (a : Add) (lost : Lost) : State × Option Add :=
  let (s1, r) := s.runAdd e a lost
  let s2 := s1.poolPressure (e / 32)
  match r with
  | some a' => if a'.held.isSome && decide (s2.poolUsed (e / 32) < s1.poolUsed (e / 32)) then s2.runAdd e a' none else (s2, r)
  | none => (s2, none)

/-- The adds of an engine that it has taken go on. -/
def pumpAdds (e : Nat) (lost : Lost) (s : State) : State :=
  if s.inReset 3 e then s else (s.addsOf e).foldl (fun s a =>
    if !a.begun then s
    else
      let (s1, r) := s.stepAdd e a lost
      match r with
      | none => s1.setAdds e ((s1.addsOf e).erase a)
      | some a' => s1.setAdds e ((s1.addsOf e).map fun b => if b = a then a' else b)) s

/-- The parts of an engine that it has taken go on. -/
def pumpParts (e : Nat) (lost : Lost) (s : State) : State :=
  if s.inReset 3 e then s else (s.partsOf e).foldl (fun s p =>
    if !p.begun then s
    else
      let (s1, r) := s.runPart e p true lost
      match r with
      | none => s1.setParts e ((s1.partsOf e).erase p)
      | some p' => s1.setParts e ((s1.partsOf e).map fun q => if q = p then p' else q)) s

/-- Engines of a die with parts or adds. -/
def busyEngines (s : State) (die : Nat) : List Nat :=
  ((List.range 32).map (· + 32 * die)).filter fun e => !(s.partsOf e).isEmpty || !(s.addsOf e).isEmpty

/-- Adds that may wait for the shadow pool of a die go on. -/
def pumpPool (die : Nat) (s : State) : State := (s.busyEngines die).foldl (fun s e => pumpAdds e none s) s

/-- Everything that may wait for a page of a die, or for a shadow, goes on. -/
def pumpDie (die : Nat) (lost : Lost) (s : State) : State :=
  let s := dueFolds die lost s
  pumpRepacks die lost ((s.busyEngines die).foldl (fun s e => pumpAdds e lost (pumpParts e lost s)) s)

/-! ### Homes of what arrives (R216, R218, R219) -/

/-- How an engine treats a row group. -/
inductive Duty where
  | mine | held | forward (node engine : Nat) | refuse
deriving DecidableEq, Repr

/-- A migration of the group cuts over (R218). -/
def cutting (s : State) (tid group : Nat) : Bool :=
  s.migs.any fun kv => kv.2.tid == tid && kv.2.group == group && kv.2.cutting

/-- What an engine does for a group: a FORWARD entry, or one that a MIGRATE has made MOVING again, still sends on
what reaches another engine of this node (R216, R218, R219). -/
def duty (s : State) (e tid : Nat) (t : Table) (group : Nat) : Duty :=
  let here := if s.cutting tid group then Duty.held else .mine
  match s.dir.get? (dirKey tid group) with
  | some ⟨3, n, d, _, _⟩ => if n = s.node ∧ d = e then .mine else .forward n d
  | some ⟨2, _, _, home, prior⟩ => if home = e then here else if prior.any (·.1 == 3) then .forward s.node home else .refuse
  | _ => if s.homeOf tid t group ≠ (s.node, e) then .refuse else here

/-- OP and WGT of a PART packet from the model's operation: 0 GATHER, 1 SUM, 2 MEAN, 3 RAW, 4 weighted SUM. -/
def partArg (inst n op : Nat) : Nat :=
  inst + 2 ^ 16 * n + 2 ^ 32 * (if op = 3 then 0 else if op = 4 then 1 else op) + 2 ^ 34 * bit (op == 4)

/-- A PART packet (R396). -/
def partPkt (node tid e inst op : Nat) (items : List (Nat × Word)) : Packet :=
  ⟨node, 0, 0, 0x03, false, 0, 0, tid + 2 ^ 10 * e, partArg inst items.length op,
    items.flatMap (fun i => leBytes 8 i.1) ++ (if op = 4 then items.flatMap fun i => leBytes 4 i.2.toNat else [])⟩

/-- The part that a PART packet carries. -/
def partOf (p : Packet) : RowPart :=
  let n := bitsOf p.arg 31 16
  let wgt := bitsOf p.arg 34 34 == 1
  let idx := fun (i : Nat) => leNat ((p.body.drop (8 * i)).take 8)
  let w := fun (i : Nat) => if wgt then BitVec.ofNat 32 (leNat ((p.body.drop (8 * n + 4 * i)).take 4)) else (0 : Word)
  ⟨.node p.src p.tag, bitsOf p.addr 9 0, bitsOf p.arg 15 0, bitsOf p.addr 15 10,
    if wgt then 4 else bitsOf p.arg 33 32, (List.range n).map fun i => (idx i, w i), [], 0, 0, p.pmask != 0, [], 0, false, false, [], []⟩

/-- The UPDATE packets of an add (R396). -/
def updatePkts (node tid inst row : Nat) (vec : List Word) (bad : Bool) : List Packet :=
  let mk := fun (v : List Word) (x : Nat) =>
    (⟨node, 0, 0, 0x04, false, 0, fullMask bad (4 * v.length), row, tid + 2 ^ 10 * inst + 2 ^ 26 * x, wordBytes v⟩ : Packet)
  if vec.length ≤ 512 then [mk vec 0] else [mk (vec.take (vec.length / 2)) 2, mk (vec.drop (vec.length / 2)) 3]

/-- Owner of the transaction of a part or add that goes on elsewhere. -/
def senderOwner (isAdd : Bool) : Sender → Owner
  | .core c job bag => if isAdd then .update c job else .part c job bag
  | .relay e n tag => .relay e n tag
  | .node .. => .other

/-- A part goes to another engine of this node. -/
def handPart (s : State) (p : RowPart) (engine : Nat) : State :=
  s.setParts engine (s.partsOf engine ++ [{ p with engine := engine, begun := false }])

/-- Forward a whole part (R219): a local sender's as a transaction of its own, another node's packet with its
source and tag, so that the answer goes straight back; none while it waits for a tag. -/
def forwardPart (s : State) (p : RowPart) (node engine : Nat) : Option State :=
  let s1 := s.bump .rpcFwd 0 1
  let pkt := partPkt node p.tid engine p.inst p.op p.items
  if node = s.node then some (s1.handPart p engine)
  else match p.sender with
    | .node n tag =>
      match s1.route node 0 with
      | some l => some (s1.sendOn l { pkt with src := n, tag := tag })
      | none => some ((s1.bump .tlkNoroute 0 1).answerPart p .link)
    | x => match s1.request (senderOwner false x) noCtx 0 pkt with
      | .sent _ s2 => some s2
      | .waits => none
      | .undeliverable s2 => some (s2.answerPart p .link)

/-- A bag of a core expects one partial sum more. -/
def expectMore (s : State) (c job bag : Nat) : State :=
  s.modCore c fun k => { k with bags := k.bags.map fun b => if b.job = job ∧ b.bag = bag then { b with left := b.left + 1 } else b }

/-- Forward the rows of one home out of a part that the engine pools otherwise (R219; log entry 26): a core's rows
as a part of their own, whose answer goes straight back; another node's rows answer to this engine, since their
packet has one answer. None while it waits for a tag. -/
def forwardSome (e : Nat) (acc : Option (State × RowPart)) (to_ : (Nat × Nat) × List (Nat × Word)) : Option (State × RowPart) :=
  match acc with
  | none => none
  | some (s, p) =>
    let (node, engine) := to_.1
    let sub := { p with items := to_.2, vec := [], count := 0 }
    let rest := p.items.filter fun i => !to_.2.contains i
    match p.sender with
    | .core c job bag => (s.forwardPart sub node engine).map fun s1 => (s1.expectMore c job bag, { p with items := rest })
    | .node n tag =>
      let p' := { p with items := rest, subs := p.subs + 1 }
      let s := s.setParts e ((s.partsOf e).map fun q => if q = p then p' else q)
      (s.forwardPart { sub with sender := .relay e n tag } node engine).map fun s1 => (s1, p')
    | .relay .. => (s.forwardPart sub node engine).map fun s1 => (s1, { p with items := rest })

/-- What an engine does with a part that it has not begun: none while it is held (R218) or waits for a tag. -/
def beginPart (s : State) (e : Nat) (p : RowPart) : Option (State × Option RowPart) :=
  match s.table p.tid with
  | none => some (s.answerPart p .state, none)
  | some t =>
    let ds := p.items.map fun i => s.duty e p.tid t (t.groupOf i.1)
    let start := fun (s : State) (p : RowPart) =>
      s.runPart e { p with begun := true, half := s.hotHalf e, all := p.items.map (·.1) } false none
    if ds.contains .refuse then some (s.answerPart p .state, none)
    else if ds.contains .held then none
    else
      let homes := (ds.filterMap fun d => match d with | .forward n g => some (n, g) | _ => none).eraseDups
      let rowsOf := fun (h : Nat × Nat) => p.items.filter fun i => s.duty e p.tid t (t.groupOf i.1) == .forward h.1 h.2
      match homes, ds.contains .mine with
      | [], _ => some (start s p)
      | [h], false => (s.forwardPart p h.1 h.2).map fun s1 => (s1, none)
      | _, _ => ((homes.map fun h => (h, rowsOf h)).foldl (forwardSome e) (some (s, p))).map fun (s1, p1) =>
        -- A forward that could not be sent has ended the part.
        if p.sender.isNode && !(s1.partsOf e).contains p1 then (s1, none)
        else start (s1.setParts e ((s1.partsOf e).map fun q => if q = p1 then p else q)) p1

/-- A packet of a core's lookup job waits for a transaction tag (R397). -/
def waitTag (s : State) (x : Sender) (isAdd : Bool) (p : Packet) : State :=
  match x with
  | .core c job bag => s.modCore c fun k => { k with lkWaits := k.lkWaits ++ [⟨job, bag, isAdd, p⟩] }
  | _ => s

/-- What an engine does with an add that it has not begun (R216, R218, R219). -/
def beginAdd (s : State) (e : Nat) (a : Add) : Option (State × Option Add) :=
  match s.table a.tid with
  | none => some (s.answerAdd a .state, none)
  | some t =>
    match s.duty e a.tid t (t.groupOf a.row) with
    | .refuse => some (s.answerAdd a .state, none)
    | .held => none
    | .mine =>
      some (s.stepAdd e { a with begun := true } none)
    | .forward n d =>
      let s1 := s.bump .rpcFwd 0 1
      if n = s.node then some (s1.setAdds d (s1.addsOf d ++ [{ a with engine := d, begun := false }]), none)
      else match a.sender with
        | .core .. =>
          let pkts := updatePkts n a.tid a.inst a.row a.vec a.bad
          -- Each packet of the add is answered by its own acknowledgement.
          let s1 := match a.sender with
            | .core c job _ => s1.modJob c job fun j => { j with done := j.done + pkts.length - 1 }
            | _ => s1
          some (pkts.foldl (fun s p => match s.request (senderOwner true a.sender) noCtx 0 p with
            | .sent _ s2 => s2
            | .waits => s.waitTag a.sender true p
            | .undeliverable s2 => s2.answerAdd a .link) s1, none)
        | .node m tag | .relay _ m tag =>
          match s1.route n 0 with
          | some l => some ((updatePkts n a.tid a.inst a.row a.vec a.bad).foldl
              (fun s p => s.sendOn l { p with src := m, tag := if bitsOf p.arg 27 26 = 2 then a.also.getD tag else tag }) s1, none)
          | none => some ((s1.bump .tlkNoroute 0 1).answerAdd a .link, none)

/-- The first part of an engine that it can begin. -/
def takePart (e : Nat) (s : State) : List RowPart → State
  | [] => s
  | p :: rest =>
    if p.begun || s.inReset 3 e then takePart e s rest
    else match s.beginPart e p with
      | none => takePart e s rest
      | some (s1, none) => s1.setParts e ((s1.partsOf e).erase p)
      | some (s1, some p') => s1.setParts e ((s1.partsOf e).map fun q => if q = p then p' else q)

/-- The first add of an engine that it can begin. -/
def takeAdd (e : Nat) (s : State) : List Add → State
  | [] => s
  | a :: rest =>
    if a.begun || s.inReset 3 e then takeAdd e s rest
    else match s.beginAdd e a with
      | none => takeAdd e s rest
      | some (s1, none) => s1.setAdds e ((s1.addsOf e).erase a)
      | some (s1, some a') => s1.setAdds e ((s1.addsOf e).map fun b => if b = a then a' else b)

/-- The other half of a split packet (R396). -/
def otherHalf (l : List Packet) (p : Packet) (bit_ : Nat) : Option Packet :=
  l.find? fun q => q.type == p.type && q.src == p.src && q.addr == p.addr && q.arg != p.arg &&
    q.arg == p.arg ^^^ 2 ^ bit_

end State

open State

/-- PART (R197): the engine takes the next part that waits, or one that a PART packet brings. -/
def execPart (e : Fin 64) (pkt : Option Packet) (s : State) : Outcome :=
  let s1 := match pkt with
    | some p => if p.type = 0x03 ∧ p.dst = s.node then
        let s := s.consume p
        s.setParts e.val (s.partsOf e.val ++ [{ partOf p with engine := e.val }]) else s
    | none => s
  .next (takePart e.val s1 (s1.partsOf e.val))

/-- The add of a whole UPDATE, or of its two halves in order. -/
def addOf (e : Nat) (p : Packet) (body : List Byte) (bad : Bool) (ticks : Nat) : Add :=
  ⟨.node p.src p.tag, bitsOf p.arg 9 0, bitsOf p.arg 25 10, e, bitsOf p.addr 41 0, wordsOf body, bad, false, ticks, none, none, none⟩

/-- UPDATE (R191, R231): the engine takes the next add that waits, or one that an UPDATE packet brings; both
halves of a split one are applied in one step, and each is acknowledged (R396). -/
def execUpdate (e : Fin 64) (pkt : Option Packet) (s : State) : Outcome :=
  let s1 := match pkt with
    | none => s
    | some p =>
      if p.type ≠ 0x04 ∨ p.dst ≠ s.node then s
      else
        let s := s.consume p
        let put := fun (s : State) (a : Add) => s.setAdds e.val (s.addsOf e.val ++ [a])
        if bitsOf p.arg 27 27 = 0 then put s (addOf e.val p p.body (p.pmask != 0) s.ticks)
        else match otherHalf s.halves p 26 with
          | none => { s with halves := s.halves ++ [p] }
          | some q =>
            let body := if bitsOf p.arg 26 26 = 1 then q.body ++ p.body else p.body ++ q.body
            let a := addOf e.val p body (p.pmask != 0 || q.pmask != 0) s.ticks
            put { s with halves := s.halves.erase q } { a with also := some q.tag }
  .next (takeAdd e.val s1 (s1.addsOf e.val))

/-- SHADOW_FOLD_TIMER (R230): the oldest shadow that is not yet due has existed for PERIOD; folds that are due and
adds that wait go on. -/
def execShadowFoldTimer (s : State) : Outcome :=
  match s.shadows.find? (!·.due) with
  | some x => .next ((s.tryFold x none).pumpDie (x.engine / 32) none)
  | none => .next (pumpDie 1 none (pumpDie 0 none s))

/-- PAGE_WRITE_BACK (R233, R234, R281): the first page in log order has reached GOV_LAG, and the tokens allow
it; nothing is written back while the well is shut. -/
def execPageWriteBack (s : State) : Outcome :=
  if s.wellShut || (!s.flag .govCfg 0 0 && decide (s.tokens ≤ 0)) then .next s
  else match s.dirtyFirst with
    | some (id, p) => .next (if s.lagged p then s.writeBack id false else s)
    | none => .next s

/-- An add has waited 10 ms for a shadow (R235). -/
def heldLong (s : State) : Bool := s.adds.any fun kv => kv.2.any fun a => a.held.any fun t => decide (t + 500000 ≤ s.ticks)

/-- GOVERNOR_OVERPACE (R235): an add has waited 10 ms for a shadow while folds wait for the dirty limit; a page
is written back above the pace, and the folds go on as pages become clean. -/
def execGovernorOverpace (s : State) : Outcome :=
  if s.wellShut || !s.dirtyFull || !heldLong s then .next s
  else match s.dirtyFirst with
    | some (id, _) => .next (s.writeBack id true)
    | none => .next s

end Sys2Proof.Machine
end

