-- ==== Sys2Proof/Machine/Lookup.lean ====
section
/-!
DEFINITION. The lookup unit and the bag combiner (R184 to R198): LKP, LKU, their start, and the answers
PSUM and UACK.
-/

namespace Sys2Proof.Machine

/-! ### Fields (R184, R190) -/

def lkTid (w : IWord) : Nat := bitsOf w.imm.toNat 9 0
/-- OP of LKP, MODE of LKU. -/
def lkOp (w : IWord) : Nat := bitsOf w.imm.toNat 11 10
def lkIw (w : IWord) : Bool := w.imm.getLsbD 12
def lkSkip (w : IWord) : Bool := w.imm.getLsbD 13

/-- The second word: registers of the flags tensor, weight list and update tensor, when named, and RAW. -/
structure LkExt where
  flg : Option Nat
  wgt : Option Nat
  upd : Option Nat
  raw : Bool

/-- The second word of LKP (`lku` false) or LKU. -/
def LkExt.of (lku : Bool) (w2 : DWord) : LkExt :=
  let f := bitsOf w2.toNat
  if lku then ⟨if w2.getLsbD 10 then some (f 9 5) else none, none, some (f 4 0), false⟩
  else ⟨if w2.getLsbD 5 then some (f 4 0) else none, if w2.getLsbD 11 then some (f 10 6) else none, none, w2.getLsbD 12⟩

/-- The offsets list is named. -/
def lkBags (w : IWord) : Bool := lkOp w == 1 || lkOp w == 2

/-- Reserved codes and unused fields. -/
def lkFields (lku : Bool) (w : IWord) (w2 : DWord) : Bool :=
  let x := LkExt.of lku w2
  decide (lkOp w ≠ 3) && decide (w.imm.toNat < 2 ^ 14) && IWord.isT w.src1
    && (if lkBags w then IWord.isT w.src2 else w.src2 == 0)
    && (if lku then w.dst == 0 && bitsOf w2.toNat 57 11 == 0 else IWord.isT w.dst && bitsOf w2.toNat 57 13 == 0)
    && (!x.raw || lkOp w == 0) && (x.wgt.isNone || lkOp w == 1)

/-- Registers of the tensors read, and of those written. -/
def lkReads (w : IWord) (x : LkExt) : List Nat :=
  [w.src1.toNat] ++ (if lkBags w then [w.src2.toNat] else []) ++ x.wgt.toList ++ x.upd.toList
def lkWrites (lku : Bool) (w : IWord) (x : LkExt) : List Nat := (if lku then [] else [w.dst.toNat]) ++ x.flg.toList

/-- A list of R185: rank 1, SCALING NONE, of a format. -/
def lkList (f : Nat) (d : Desc) : Bool := d.format == f && d.scaling == 0 && d.rank == 0

/-- Indices of a list. -/
def lkCount (w : IWord) (d : Desc) : Nat := if lkIw w then d.ext0 / 2 else d.ext0

open State

/-! ### Dispatch (R193) -/

/-- The instar that the launch of a core has pinned for a table (R221). -/
def pinned (s : State) (p tid : Nat) : Option Nat :=
  match s.launchOf p with
  | some (_, x) => (x.pins.find? fun y => y.1 == tid).map (·.2)
  | none => none

/-- The conditions of R193, on top of R69. Overlap is taken of the ranges from first to last byte (log entry
27). -/
def lkCode (s : State) (p : Nat) (lku : Bool) (w : IWord) (x : LkExt) : Code :=
  let t := (s.core p).getT
  let ix := t w.src1.toNat
  let off := t w.src2.toNat
  let out := t w.dst.toNat
  let n := lkCount w ix
  let count := if lkBags w then off.ext0 - 1 else n
  let rd := (lkReads w x).map t
  let wr := (lkWrites lku w x).map t
  let tab := s.table (lkTid w)
  -- Without a table only the extents that do not depend on one are tested.
  let shape := fun (d : Desc) (e : Option Nat) => d.rank == 1 && d.ext1 == count && e.all fun e => d.ext0 == e
  firstCode [
    ((rd ++ wr).any (fun d => d.space != 0) || !lkList 0x0C ix || (lkBags w && !lkList 0x0C off)
      || (x.wgt.any fun r => !lkList 0 (t r)) || (x.flg.any fun r => !lkList 8 (t r))
      || (!lku && !(out.scaling == 0 && (if x.raw then out.format == 8 else [0, 1, 2].contains out.format)))
      || (x.upd.any fun r => !((t r).scaling == 0 && [0, 1].contains (t r).format)), .badField),
    (true, firstCode (rd.map fun d => (true, checkDesc t d .read))),
    (true, firstCode (wr.map fun d => (true, checkDesc t d .written))),
    ((lkIw w && ix.ext0 % 2 == 1) || (lkBags w && decide (off.ext0 < 2))
      || (x.wgt.any fun r => (t r).ext0 != n) || (x.flg.any fun r => decide ((t r).ext0 < count))
      || (!lku && !shape out (tab.map fun y => if x.raw then y.rowSize else y.elems))
      || (x.upd.any fun r => !shape (t r) (tab.map Table.elems))
      || areasMeet (wr.map fun d => d.area.hull) (rd.map fun d => d.area.hull), .range),
    (tab.isNone || (pinned s p (lkTid w)).isNone || (lku && tab.any fun y => !y.upd), .state)]

/-- LKP and LKU take their place in the queue of the lookup unit. -/
def lkBody (lku : Bool) (w : IWord) (w2 : DWord) (p : Nat) (s : State) : Res :=
  let k := s.core p
  let x := LkExt.of lku w2
  let code := lkCode s p lku w x
  if code ≠ .ok then .bad s code
  else if 32 ≤ s.queued p 7 then .full (s.queuedIds p 7)
  else
    let areas := fun (l : List Nat) => l.map fun r => (k.getT r).area
    let ix := k.getT w.src1.toNat
    .ok (s.dispatch p { newJob 7 (bit lku) w w2 (takeDescs k (lkReads w x ++ lkWrites lku w x)) []
        (areas (lkReads w x)) (areas (lkWrites lku w x)) with
      cols := ((s.table (lkTid w)).map Table.elems).getD 0
      target := (pinned s p (lkTid w)).getD 0
      done := if lkBags w then (k.getT w.src2.toNat).ext0 - 1 else lkCount w ix })

/-- LKP (R184). -/
def execLkp (c : CoreId) (w : IWord) (w2 : DWord) (s : State) : Outcome :=
  issue 0x07 0x00 w (some w2) (lkFields false w w2)
    ((lkReads w (LkExt.of false w2) ++ lkWrites false w (LkExt.of false w2)).map .t) c.val (lkBody false w w2 c.val) s

/-- LKU (R190). -/
def execLku (c : CoreId) (w : IWord) (w2 : DWord) (s : State) : Outcome :=
  issue 0x07 0x01 w (some w2) (lkFields true w w2)
    ((lkReads w (LkExt.of true w2) ++ lkWrites true w (LkExt.of true w2)).map .t) c.val (lkBody true w w2 c.val) s

/-! ### Writing a bag (R187 to R189) -/

/-- The second word of a lookup job. -/
def lkExt (j : Job) : LkExt := LkExt.of (j.func == 1) j.w2

/-- The flags byte of a bag is written, when there is a flags tensor. -/
def writeFlags (s : State) (p : Nat) (j : Job) (bag : Nat) (flags : BitVec 8) (bad : Bool) : State :=
  match (lkExt j).flg with
  | some r => s.padWrite p ((j.desc r).base + bag) [flags] bad
  | none => s

/-- One bag or row fewer is to be written: the LKP completes with the last (R196). -/
def bagDone (s : State) (p : Nat) (j : Job) : State :=
  match s.job p j.id with
  | some x => if x.done ≤ 1 then s.dropJob p j.id else s.modJob p j.id fun y => { y with done := y.done - 1 }
  | none => s

/-- The elements of a bag in the output format, with whether a finite value overflowed it (R187). -/
def outCodes (f : Fmt) (k : Nat) (vs : List FVal) : List Nat × Bool :=
  let rs := vs.map fun v => roundIEEE f v
  (rs.zipIdx.map fun (v, i) => encodeElem f (pickNan f (Config.freeAt k i)) v,
    (vs.zip rs).any fun (v, r) => v.isFin && !r.isFin && !r.isNan)

/-- A bag is written (R187 to R189). -/
def writeBag (s : State) (p : Nat) (j : Job) (b : Bag) : State :=
  let x := lkExt j
  let d := j.desc j.w.dst.toNat
  let (k, s) := s.draw
  let s :=
    if x.raw then
      let bs := if b.raw.isEmpty then List.replicate d.ext0 0 else b.raw
      writeFlags (s.padWrite p (d.rowAddr b.bag) bs b.bad) p j b.bag b.flags b.bad
    else
      let vs := if b.vec.isEmpty then List.replicate d.ext0 FVal.zero else b.vec.map ofF32
      let vs := if lkOp j.w = 2 ∧ b.count ≠ 0 then vs.map fun v => rnd32 (v.div (.ofInt b.count)) else vs
      let (codes, sat) := outCodes (d.fmt.getD .fp32) k vs
      let flags := setBit (setBit b.flags 2 sat) 5 (vs.any FVal.isNan)
      writeFlags (s.padWrite p (d.rowAddr b.bag) (pack d.ebits codes) b.bad) p j b.bag flags b.bad
  bagDone s p j

/-- An LKP ends its launch with a code (R194): the output bytes of the bags not yet written are undefined, and
become free values (log entry 1). -/
def lkFault (s : State) (p : Nat) (j : Job) (bags : List Nat) (code : Code) : State :=
  let spoil := fun (s : State) (b : Nat) =>
    let (k, s) := s.draw
    let d := j.desc j.w.dst.toNat
    let byte := fun (i : Nat) => (Config.freeAt k i).setWidth 8
    let s := writeFlags s p j b (byte 0) false
    s.padWrite p (d.rowAddr b) ((List.range d.rowBytes).map fun i => byte (i + 1))
  (if j.func = 0 then bags.foldl spoil s else s).faultCore p 7 j.func j.pc code

/-- Bags of a job that are not yet written. -/
def openBags (s : State) (p job : Nat) : List Nat :=
  (((s.core p).bags.filter fun b => b.job == job).map (·.bag)) ++
    (((s.core p).bagWaits.filter fun b => b.job == job).map (·.bag))

/-! ### Sending parts and adds (R196 to R198) -/

/-- Pieces of a list, `n` at a time. -/
def pieces {α : Type} (n : Nat) (l : List α) : List (List α) :=
  (List.range ((l.length + n - 1) / n)).map fun i => (l.drop (n * i)).take n

/-- Send a packet of a lookup job: under R463, with a tag, or wait for one. -/
def sendLk (s : State) (p : Nat) (j : Job) (bag : Nat) (isAdd : Bool) (pkt : Packet) : State :=
  let ctx := (s.core p).ctx
  if !s.egressOk ctx 2 pkt.dst 1 then lkFault s.protEvt p j (openBags s p j.id) .protection
  else match s.request (if isAdd then .update p j.id else .part p j.id bag) noCtx 0 pkt with
    | .sent _ s1 => s1
    | .waits => s.waitTag (.core p j.id bag) isAdd pkt
    | .undeliverable s1 => lkFault s1 p j (openBags s1 p j.id) .link

/-- Send a part to its home engine. -/
def sendPart (p : Nat) (j : Job) (bag : Nat) (s : State) (x : Nat × Nat × List (Nat × Word)) : State :=
  let (node, e, items) := x
  let e1 := lkExt j
  let op := if e1.raw then 3 else if e1.wgt.isSome then 4 else lkOp j.w
  if (s.job p j.id).isNone then s
  else if node = s.node then
    s.setParts e (s.partsOf e ++ [⟨.core p j.id bag, lkTid j.w, j.target, e, op, items, [], 0, 0, false, [], 0, false, false, [], []⟩])
  else sendLk s p j bag false (partPkt node (lkTid j.w) e j.target op items)

/-- Room for one more bag in the combiner (R198). -/
def combinerRoom (s : State) (p : Nat) (j : Job) : Bool :=
  let bags := (s.core p).bags
  let used := bags.foldl (fun n b => n + 4 * ((s.job p b.job).map (·.cols)).getD 0) 0
  decide (bags.length < 256) && decide (used + 4 * j.cols ≤ 65536)

/-- A bag takes its space and its parts are sent. -/
def sendBag (p : Nat) (j : Job) (s : State) (b : BagWait) : State :=
  let s := s.modCore p fun k => { k with bags := k.bags ++ [⟨b.job, b.bag, b.parts.length, [], 0, b.flags, b.bad, []⟩] }
  b.parts.foldl (sendPart p j b.bag) s

/-- A bag without a row to pool is written at once: EMPTY under SUM and MEAN (R188), a zero row under GATHER
(R189). -/
def emptyBag (p : Nat) (s : State) (b : BagWait) : State :=
  match s.job p b.job with
  | none => s
  | some j =>
    writeBag (s.modCore p fun k => { k with bagWaits := k.bagWaits.erase b }) p j
      ⟨b.job, b.bag, 0, [], 0, setBit b.flags 0 (lkOp j.w != 0), b.bad, []⟩

/-- Bags that wait are sent as space is freed. -/
def nextBags (p : Nat) : Nat → State → State
  | 0, s => s
  | n + 1, s =>
    match (s.core p).bagWaits with
    | [] => s
    | b :: rest =>
      match s.job p b.job with
      | none => nextBags p n (s.modCore p fun k => { k with bagWaits := rest })
      | some j =>
        if combinerRoom s p j then nextBags p n (sendBag p j (s.modCore p fun k => { k with bagWaits := rest }) b)
        else s

/-- Packets that wait for a tag are sent when one is free (R397). -/
def drainLk (s : State) : State :=
  s.cores.foldl (fun s kv =>
    kv.2.lkWaits.foldl (fun s w =>
      let p := kv.1
      let s1 := s.modCore p fun k => { k with lkWaits := k.lkWaits.erase w }
      match s.job p w.job with
      | none => s1
      | some j => match s1.request (if w.isAdd then .update p j.id else .part p j.id w.bag) noCtx 0 w.pkt with
        | .sent _ s2 => s2
        | .waits => s
        | .undeliverable s2 => lkFault s2 p j (openBags s2 p j.id) .link) s) s

/-! ### The start of an instruction -/

/-- The parts of a bag, by home in the order in which its rows name them; remote ones in packets (R396). -/
def partsOfBag (s : State) (tid : Nat) (t : Table) (weighted : Bool) (items : List (Nat × Word)) :
    List (Nat × Nat × List (Nat × Word)) :=
  let home := fun (r : Nat) => s.homeOf tid t (t.groupOf r)
  let homes := (items.map fun i => home i.1).eraseDups
  homes.flatMap fun h =>
    let mine := items.filter fun i => home i.1 == h
    if h.1 = s.node then [(h.1, h.2, mine)]
    else (pieces (if weighted then 170 else 255) mine).map fun l => (h.1, h.2, l)

/-- The lists that a lookup reads. -/
structure LkLists where
  idx : List Nat
  spans : List (Nat × Nat)
  /-- Poison of the index, weight and offset elements. -/
  badIdx : Nat → Bool
  badBag : Nat → Bool
  wgt : Nat → Word

/-- Read the lists (R185). -/
def readLists (s : State) (p : Nat) (j : Job) : LkLists :=
  let ix := j.main
  let n := lkCount j.w ix
  let raw := s.rowCodes p ix 0
  let idx := (List.range n).map fun i =>
    if lkIw j.w then raw.getD (2 * i) 0 + 2 ^ 32 * raw.getD (2 * i + 1) 0 else raw.getD i 0
  let off := j.desc j.w.src2.toNat
  let offs := s.rowCodes p off 0
  let wd := (lkExt j).wgt.map j.desc
  let ws := match wd with | some d => s.rowCodes p d 0 | none => []
  let iw := if lkIw j.w then 8 else 4
  { idx
    spans := if lkBags j.w then offs.zip (offs.drop 1) else (List.range n).map fun i => (i, i + 1)
    badIdx := fun i => (s.padRead p (ix.base + iw * i) iw).2 ||
      (match wd with | some d => (s.padRead p (d.base + 4 * i) 4).2 | none => false)
    badBag := fun b => lkBags j.w && (s.padRead p (off.base + 4 * b) 8).2
    wgt := fun i => BitVec.ofNat 32 (ws.getD i 0) }

/-- The lists break R194. -/
def badLists (l : LkLists) (skip : Bool) (rows : Nat) : Bool :=
  l.spans.any fun (lo, hi) => decide (l.idx.length < hi) || decide (hi < lo) || decide (65535 < hi - lo)
    || (!skip && ((l.idx.drop lo).take (hi - lo)).any fun r => decide (rows ≤ r))

/-- Places of a span whose index is in range. -/
def inRange (l : LkLists) (rows : Nat) (sp : Nat × Nat) : List Nat :=
  ((List.range (sp.2 - sp.1)).map (· + sp.1)).filter fun k => decide (l.idx.getD k 0 < rows)

/-- Flags of a bag before anything is pooled, and whether its lists are poisoned (R189; log entry 27). -/
def bagFlags (l : LkLists) (rows b : Nat) (sp : Nat × Nat) : BitVec 8 × Bool :=
  (setBit 0 1 (decide ((inRange l rows sp).length < sp.2 - sp.1)),
    l.badBag b || ((List.range (sp.2 - sp.1)).any fun i => l.badIdx (sp.1 + i)))

/-- An LKP starts: its bags are split, those with nothing to pool written, and the parts of the others sent, or kept
until there is space (R198). -/
def startLkp (s : State) (p : Nat) (j : Job) (t : Table) (l : LkLists) : State :=
  let bags := l.spans.zipIdx.map fun (sp, b) =>
    let (flags, bad) := bagFlags l t.rows b sp
    let items := (inRange l t.rows sp).map fun k => (l.idx.getD k 0, l.wgt k)
    (⟨j.id, b, flags, bad, partsOfBag s (lkTid j.w) t (lkExt j).wgt.isSome items⟩ : BagWait)
  let s := s.modCore p fun k => { k with bagWaits := k.bagWaits ++ bags }
  let s := (bags.filter fun b => b.parts.isEmpty).foldl (emptyBag p) s
  nextBags p (s.core p).bagWaits.length s

/-- The update vector of place `k` of bag `b` with `c` rows (R190), and whether it is poisoned. -/
def updateVec (s : State) (p : Nat) (j : Job) (free b k c : Nat) : List Word × Bool :=
  let d := j.desc ((lkExt j).upd.getD 0)
  let row := if lkOp j.w = 0 then k else b
  let f := d.fmt.getD .fp32
  let vs := (s.rowCodes p d row).zipIdx.map fun (x, i) =>
    let v := decodeElem f x
    if lkOp j.w = 2 then f32Word (Config.freeAt free (2048 * row + i)) (v.div (.ofInt c))
    else if f = .fp32 then BitVec.ofNat 32 x else f32Word (Config.freeAt free (2048 * row + i)) v
  (vs, (s.padRead p (d.rowAddr row) d.rowBytes).2)

/-- An add of an LKU goes to its home. -/
def sendAdd (p : Nat) (j : Job) (t : Table) (s : State) (x : Nat × Nat × List Word × Bool) : State :=
  let (bag, row, vec, bad) := x
  let tid := lkTid j.w
  let (node, e) := s.homeOf tid t (t.groupOf row)
  if (s.job p j.id).isNone then s
  else if node = s.node then
    s.setAdds e (s.addsOf e ++ [⟨.core p j.id bag, tid, j.target, e, row, vec, bad, false, s.ticks, none, none, none⟩])
  else (updatePkts node tid j.target row vec bad).foldl (fun s pkt =>
    if (s.job p j.id).isNone then s else sendLk s p j bag true pkt) s

/-- An LKU starts: the flags of its bags are written and its adds sent. -/
def startLku (s : State) (p : Nat) (j : Job) (t : Table) (l : LkLists) : State :=
  let (free, s) := s.draw
  let adds := l.spans.zipIdx.flatMap fun (sp, b) =>
    let ks := inRange l t.rows sp
    let bad := (bagFlags l t.rows b sp).2
    ks.map fun k =>
      let (vec, vb) := updateVec s p j free b k ks.length
      (b, l.idx.getD k 0, vec, bad || vb)
  let s := l.spans.zipIdx.foldl (fun s (sp, b) =>
    let (flags, bad) := bagFlags l t.rows b sp
    let none_ := lkBags j.w && (inRange l t.rows sp).isEmpty
    let nan := adds.any fun a => a.1 == b && a.2.2.1.any fun v => (ofF32 v).isNan
    writeFlags s p j b (setBit (setBit flags 0 none_) 5 nan) bad) s
  let count := adds.foldl (fun n a =>
    n + if (s.homeOf (lkTid j.w) t (t.groupOf a.2.1)).1 = s.node ∨ t.elems ≤ 512 then 1 else 2) 0
  if count = 0 then s.dropJob p j.id
  else adds.foldl (sendAdd p j t) (s.modJob p j.id fun x => { x with done := count })

/-- LOOKUP_UNIT_START (R195): the first instruction of class 0x07 whose bytes are free of earlier ones starts:
it reads its lists and sends its parts or adds. -/
def execLookupUnitStart (c : CoreId) (s : State) : Outcome :=
  let p := c.val
  match (s.jobsOf p [7]).find? fun j => j.prog == .queued && padClear (s.before p j.id) j with
  | none => .next s
  | some j =>
    match s.table (lkTid j.w) with
    | none => .next (lkFault s p j [] .state)
    | some t =>
      let l := readLists s p j
      let s := s.modJob p j.id fun x => { x with prog := .running }
      if badLists l (lkSkip j.w) t.rows then .next (lkFault s p j (List.range l.spans.length) .range)
      else .next (if j.func = 1 then startLku s p j t l else startLkp s p j t l)

/-! ### Answers -/

/-- A partial sum reaches its bag (R197); that of a bag no longer awaited is discarded (R420). -/
def takePsum (s : State) (x : Psum) : State :=
  match s.job x.core x.job with
  | none => s
  | some j =>
    if x.code ≠ .ok then lkFault s x.core j (openBags s x.core j.id) x.code
    else match (s.core x.core).bags.find? fun b => b.job == x.job && b.bag == x.bag with
      | none => s
      | some b =>
        let (k, s) := s.draw
        let b' := { b with
          left := b.left - 1
          vec := addSums k b.vec x.vec
          count := b.count + x.count
          flags := b.flags ||| x.flags
          bad := b.bad || x.bad
          raw := if x.raw.isEmpty then b.raw else x.raw }
        if b'.left ≠ 0 then
          s.modCore x.core fun c => { c with bags := c.bags.map fun y => if y = b then b' else y }
        else
          let s := s.modCore x.core fun c => { c with bags := c.bags.erase b }
          let s := writeBag s x.core j b'
          nextBags x.core (s.core x.core).bagWaits.length s

/-- What an answer of another module does for a transaction of the lookup units: `x` with its core and bag
filled in. -/
def lkAnswer (s : State) (o : Owner) (x : Psum) : State :=
  match o with
  | .part c job bag => takePsum s { x with core := c, job := job, bag := bag }
  | .relay e n tag => relayPsum s e (.node n tag) x
  | .update c job => s.addDone c job x.code
  | _ => s

/-- A partial sum as a PSUM packet carries it. It is FP32 (R197, R396), so the stored bytes of another node's row
under RAW do not travel and are free (log entry 66). -/
def psumOf (s : State) (o : Owner) (arg : Nat) (body : List Byte) (bad : Bool) : Psum × State :=
  let (k, s) := s.draw
  let flags := BitVec.ofNat 8 (bitsOf arg 23 16) ||| 0x08
  let base : Psum := ⟨0, 0, 0, wordsOf body, bitsOf arg 15 0, flags, bad, [], .ok⟩
  match o with
  | .part c job _ =>
    (match s.job c job with
    | some j =>
      if (lkExt j).raw then
        ({ base with vec := [], raw := (List.range (j.desc j.w.dst.toNat).ext0).map fun i => (Config.freeAt k i).setWidth 8 }, s)
      else (base, s)
    | none => (base, s))
  | _ => (base, s)

/-- A PSUM packet (R396): a vector in two halves waits for the other. -/
def psumPacket (s : State) (p : Packet) : State :=
  if p.type ≠ 0x12 ∨ p.dst ≠ s.node then s
  else
    let other := s.halves.find? fun q => q.type == 0x12 && q.src == p.src && q.tag == p.tag && q.arg == p.arg ^^^ 2 ^ 24
    match bitsOf p.arg 25 25, other with
    | 1, none => { s.consume p with halves := s.halves ++ [p] }
    | _, _ =>
      let (body, bad, s) := match other with
        | some q => (if bitsOf p.arg 24 24 = 1 then q.body ++ p.body else p.body ++ q.body, p.pmask != 0 || q.pmask != 0,
            { s with halves := s.halves.erase q })
        | none => (p.body, p.pmask != 0, s)
      match s.takeTxn p with
      | (none, s) => s
      | (some t, s) =>
        let (x, s) := psumOf s t.owner p.arg body bad
        drainLk (lkAnswer s t.owner x)

/-- PSUM (R197): a partial sum of an engine of this module, or a packet, reaches a core's bag combiner. -/
def execPsum (c : CoreId) (pkt : Option Packet) (s : State) : Outcome :=
  match pkt with
  | some p => .next (psumPacket s p)
  | none =>
    match s.psums.find? fun x => x.core == c.val with
    | none => .next s
    | some x => .next (takePsum { s with psums := s.psums.erase x } x)

/-- UACK (R231): another module has applied an add. -/
def execUack (_ : Fin 36) (p : Packet) (s : State) : Outcome :=
  if p.type ≠ 0x13 ∨ p.dst ≠ s.node then .next s
  else match s.takeTxn p with
    | (none, s) => .next s
    | (some t, s) => .next (drainLk (lkAnswer s t.owner ⟨0, 0, 0, [], 0, 0, false, [], .ok⟩))

end Sys2Proof.Machine
end

