-- ==== Sys2Proof/Machine/Lifecycle.lean ====
section
/-!
DEFINITION. The life of tables (R177 to R181, R200 to R206, R209, R212, R213, R216 to R236): the registry, the
sketches, the hot-row store, the lifecycle commands, migrations, and row pages coming from the well.
-/

namespace Sys2Proof.Machine

namespace State

/-! ### The registry (R177 to R181) -/

/-- Byte string of the staged table descriptor. -/
def tstage (s : State) : List Byte := (List.range 16).flatMap fun k => leBytes 4 (s.reg .lkeTstage k).toNat

/-- Shard-map entry `i` at an address. -/
def shardWord (s : State) (map i : Nat) : Nat := leNat (s.cisRead (map + 4 * i) 4).1

/-- The table that a descriptor describes (R177). -/
def tableOf (s : State) (d : List Byte) : Table :=
  let w := leNat (d.take 8)
  let map := leNat ((d.drop 16).take 8)
  let n := (d.getD 13 0).toNat + 1
  { rows := bitsOf w 41 0
    elems := bitsOf w 51 42 + 1
    fmt := bitsOf w 56 52
    scaling := bitsOf w 58 57
    rsc := w.testBit 59
    rbi := w.testBit 60
    upd := w.testBit 61
    noshd := w.testBit 62
    tscale := BitVec.ofNat 32 (leNat ((d.drop 8).take 4))
    gshift := bitsOf (d.getD 12 0).toNat 4 0
    shards := (List.range n).map fun i => (bitsOf (s.shardWord map i) 11 0, bitsOf (s.shardWord map i) 17 12)
    cur := 0
    other := 0
    ostate := 0
    mirror := false
    clone := false
    packCur := false
    packOther := false
    touched := false }

/-- FORMAT and SCALING that a table may have (R36, R177). -/
def tableFormat (fmt scaling : Nat) : Bool :=
  [1, 2, 3, 4, 7, 8, 9].contains fmt &&
    (match scaling with | 0 => true | 1 => [3, 4, 7, 8].contains fmt | 2 => [3, 7, 9].contains fmt | _ => false)

/-- The checks of REGISTER (R180). -/
def registerCheck (s : State) (tid : Nat) : Code :=
  let d := s.tstage
  let t := s.tableOf d
  let map := leNat ((d.drop 16).take 8)
  let n := t.shards.length
  let fits := decide (map + 4 * n ≤ s.workSize)
  firstCode [
    (!tableFormat t.fmt t.scaling || (d.getD 7 0).getLsbD 7 || decide (32 ≤ (d.getD 12 0).toNat)
      || leNat ((d.drop 14).take 2) != 0 || decide (2 ^ 44 ≤ map) || leNat (d.drop 24) != 0
      || (fits && (List.range n).any fun i => decide (2 ^ 18 ≤ s.shardWord map i)), .badField),
    (decide (map % 64 ≠ 0), .align),
    (decide (t.rows = 0) || decide (t.elems < 16) || decide (24 < t.gshift) || decide (2048 < t.rowSize) || !fits, .range),
    ((s.table tid).isSome, .state)]

/-- Launches of this node that pin an instar (R221). -/
def pinCount (s : State) (tid inst : Nat) : Nat := (s.launches.filter fun kv => kv.2.pins.contains (tid, inst)).length

/-- The lifecycle command that runs names a table; FLUSH names them all. -/
def lcNames (s : State) (tid : Nat) : Bool :=
  match s.lcRun with
  | some (.write t ..) => t == tid
  | some (.fold t ..) => t == tid
  | some (.flush ..) => true
  | none => false

/-- The checks of RETIRE (R180, R181). -/
def retireCheck (s : State) (tid : Nat) : Code :=
  firstCode [
    ((s.table tid).isNone || s.launches.any (fun kv => kv.2.pins.any fun x => x.1 == tid), .state),
    (s.migs.any (fun kv => kv.2.tid == tid) || s.lcNames tid, .busy)]

/-- Hot copies that meet a condition are dropped. -/
def dropHot (s : State) (f : Nat → HotEntry → Bool) : State :=
  { s with hots := s.hots.mapV fun e h => { h with h0 := h.h0.filter fun x => !f e x, h1 := h.h1.filter fun x => !f e x } }

/-- An instar of a table goes: pages, shadows, hot copies (R181, R225, R228). -/
def dropInstar (s : State) (tid inst : Nat) : State :=
  let s := s.leavePages tid inst
  let s := s.dropHot fun _ x => x.tid == tid && x.inst == inst
  { s with
    shadows := s.shadows.filterMap fun x =>
      if x.tid = tid ∧ x.insts.contains inst then
        let left := x.insts.filter (· != inst)
        if left.isEmpty then none else some { x with insts := left }
      else some x
    tails := s.tails.filter fun x => !(x.1 == tid && x.2.1 == inst)
    repacks := s.repacks.filter fun x => !(x.tid == tid && x.inst == inst) }

/-- RETIRE's effect (R181). -/
def retireEff (s : State) (tid : Nat) : State :=
  match s.table tid with
  | none => s
  | some t =>
    let s := t.live.foldl (fun s i => s.dropInstar tid i) s
    { s with
      tables := s.tables.erase tid
      dir := s.dir.filter fun kv => kv.1 / 2 ^ 42 != tid }

/-- The checks of an LKE_TCMD write (R180). -/
def tcmdCheck (s : State) (v : Word) : Code :=
  let tid := bitsOf v.toNat 11 2
  match v.toNat % 4 with
  | 1 => s.registerCheck tid
  | 2 => s.retireCheck tid
  | _ => .badField

def tcmdEff (v : Word) (s : State) : State :=
  let tid := bitsOf v.toNat 11 2
  if v.toNat % 4 = 1 then s.setTable tid (s.tableOf s.tstage) else s.retireEff tid

/-! ### The sketches (R200 to R202) -/

/-- A sketch set is enabled. -/
def cmsOn (s : State) (i : Nat) : Bool := s.flag .cmsSet i 31

/-- The checks of a write of B_HI. -/
def hashCheck (s : State) (d : Nat) (v : Word) : Code :=
  let a := s.reg64 .cmsHashALo .cmsHashAHi d
  let b := (s.reg .cmsHashBLo d).toNat + 2 ^ 32 * v.toNat
  firstCode [
    (decide (a = 0 ∨ 2 ^ 61 - 1 ≤ a ∨ 2 ^ 61 - 1 ≤ b), .range),
    ((List.range 1024).any s.cmsOn, .busy)]

def hashEff (d : Nat) (v : Word) (s : State) : State :=
  let s := s.store .cmsHashBHi d v
  { s with cmsHash := s.cmsHash.set d (s.reg64 .cmsHashALo .cmsHashAHi d, s.reg64 .cmsHashBLo .cmsHashBHi d) }

/-- The checks of an LKE_CMS_SET write; `i` is 16 times the engine plus the set. -/
def cmsSetCheck (s : State) (i : Nat) (v : Word) : Code :=
  let others := ((List.range 16).map (· + i / 16 * 16)).filter (· != i)
  firstCode [
    (v.getLsbD 31 && others.any (fun k => s.cmsOn k && s.fld .cmsSet k 9 0 == bitsOf v.toNat 9 0), .state),
    (s.flag .cmsCtrl (i / 16) 2, .busy)]

def cmsSetEff (i : Nat) (v : Word) (s : State) : State :=
  let fresh := v.getLsbD 31 && (!s.cmsOn i || s.fld .cmsSet i 9 0 != bitsOf v.toNat 9 0)
  let s := s.store .cmsSet i v
  if fresh then { s with sketches := s.sketches.erase i } else s

/-- Enabled sets of an engine, in ascending order. -/
def cmsSets (s : State) (n : Nat) : List Nat := ((List.range 16).map (· + 16 * n)).filter s.cmsOn

/-- The checks of an LKE_CMS_CTRL write (R202). -/
def snapCheck (s : State) (n : Nat) (v : Word) : Code :=
  let a := s.addr .cmsBufHi n
  if v.getLsbD 0 then firstCode [
    (decide (a % 64 ≠ 0), .align),
    (decide (s.workSize < a + 69696 * (s.cmsSets n).length) || decide (s.workSize ≤ a), .range),
    (s.flag .cmsCtrl n 2, .state)] else .ok

def snapEff (n : Nat) (v : Word) (s : State) : State :=
  let s := s.store .cmsCtrl n v
  if v.getLsbD 0 then s.setFlag .cmsCtrl n 2 true else s

/-- Write a sketch set at its place in the buffer (R202). -/
def writeSketch (n : Nat) (s : State) (x : Nat × Nat) : State :=
  let (i, at_) := x
  let k := s.sketches.getD i ⟨[], []⟩
  let tid := s.fld .cmsSet i 9 0
  let head := leBytes 8 (s.snapSeq.getD n 0) ++ leBytes 2 tid ++ leBytes 2 k.cands.length ++ leBytes 52 0
  let counters := (List.range 16384).flatMap fun j => leBytes 4 (k.counters.getD j 0)
  let cands := k.cands.flatMap fun c => leBytes 8 (c.1 + 2 ^ 42 * tid) ++ leBytes 4 c.2 ++ leBytes 4 0
  s.cisWrite at_ (head ++ counters ++ cands)

/-- A sketch set after a snapshot: halved, or cleared. -/
def ageSketch (clr : Bool) (k : Sketch) : Sketch :=
  if clr then ⟨[], []⟩ else ⟨k.counters.mapV fun _ c => c / 2, k.cands.map fun c => (c.1, c.2 / 2)⟩

/-- A snapshot ends: sets written, then aged, then the accesses that waited counted. -/
def endSnap (s : State) (n : Nat) : State :=
  let sets := s.cmsSets n
  let base := s.addr .cmsBufHi n
  let s := (sets.zipIdx.map fun (i, k) => (i, base + 69696 * k)).foldl (writeSketch n) s
  let s := sets.foldl (fun s i =>
    { s with sketches := s.sketches.set i (ageSketch (s.flag .cmsCtrl n 1) (s.sketches.getD i ⟨[], []⟩)) }) s
  let s := (s.snapWait.getD n []).foldl (fun s w => s.cmsAdd w.1 (s.fld .cmsSet w.1 9 0) w.2) s
  ({ s with snapWait := s.snapWait.erase n, snapSeq := s.snapSeq.set n (s.snapSeq.getD n 0 + 1) }.setFlag .cmsCtrl n 2
    false).cmdEnd 3 n .ok

/-! ### The hot-row store (R203 to R206) -/

/-- LOAD_STATE of an engine: 0 IDLE, 1 LOADING, 2 READY. -/
def loadState (s : State) (n : Nat) : Nat := s.fld .lkeState n 2 1

def setHot (s : State) (n : Nat) (h : Hot) : State := { s with hots := s.hots.set n h }

/-- A half of an engine's slice, and its replacement. -/
def Hot.inactive (active1 : Bool) (h : Hot) : List HotEntry := if active1 then h.h0 else h.h1
def Hot.setInactive (active1 : Bool) (h : Hot) (l : List HotEntry) : Hot :=
  if active1 then { h with h0 := l } else { h with h1 := l }

/-- The checks of an LKE_HOT_CTRL write (R204 to R206). -/
def hotCheck (s : State) (n : Nat) (v : Word) : Code :=
  let load := v.getLsbD 31
  let switch := v.getLsbD 30
  let count := bitsOf v.toNat 19 0
  let a := s.addr .hotListHi n
  firstCode [
    (load && switch, .badField),
    (load && decide (a % 8 ≠ 0), .align),
    (load && (decide (count = 0) || decide (s.workSize < a + 8 * count)), .range),
    (load && s.loadState n == 1, .state),
    (switch && s.loadState n != 2, .state)]

def hotEff (n : Nat) (v : Word) (s : State) : State :=
  let h := s.hot n
  let active1 := s.flag .lkeState n 0
  if v.getLsbD 31 then
    let h' := { Hot.setInactive active1 h [] with load := some (s.addr .hotListHi n, bitsOf v.toNat 19 0, 0) }
    ((s.setHot n h').setFld .lkeState n 2 1 1).setReg .hotStatus n 0
  else if v.getLsbD 30 then
    -- The half that was active is emptied and becomes the inactive one.
    let h' := if active1 then { h with h1 := [] } else { h with h0 := [] }
    ((s.setHot n h').setFlag .lkeState n 0 (!active1)).setFld .lkeState n 2 1 0
  else s

/-- A load ends in READY. -/
def endLoad (s : State) (n : Nat) (full : Bool) : State :=
  ((s.setHot n { s.hot n with load := none }).setFld .lkeState n 2 1 2).setFlag .hotStatus n 31 full |>.cmdEnd 2 n .ok

/-- Go on with a load as far as its rows are at hand (R204). An entry that cannot be read counts as skipped. -/
def hotAdvance (n : Nat) (lost : Lost) : Nat → State → State
  | 0, s => s
  | fuel + 1, s =>
    match (s.hot n).load with
    | none => s
    | some (a, left, pos) =>
      if left = 0 then s.endLoad n false
      else
        let (bs, bad) := s.cisRead a 8
        let e := leNat bs
        let row := bitsOf e 41 0
        let tid := bitsOf e 51 42
        let next := fun (s : State) => hotAdvance n lost fuel (s.setHot n { s.hot n with load := some (a + 8, left - 1, pos + 1) })
        let skip := fun (s : State) => next (s.setFld .hotStatus n 30 20 (satAdd 0x7FF (s.fld .hotStatus n 30 20) 1))
        match s.table tid with
        | none => skip s
        | some t =>
          if bad || decide (2 ^ 52 ≤ e) || decide (t.rows ≤ row) || s.homeOf tid t (t.groupOf row) != (s.node, n) then skip s
          else
            let active1 := s.flag .lkeState n 0
            let half := Hot.inactive active1 (s.hot n)
            if 8388608 < half.foldl (fun k x => k + x.size) 0 + hotSize t then s.endLoad n true
            else match s.readRow n active1 tid t t.cur row lost with
              | .miss id =>
                let (s1, w) := s.await id (s.hot n).wait
                s1.setHot n { s1.hot n with wait := w }
              | .lost _ => skip s
              | .got s1 raw pb _ =>
                let h := s1.hot n
                let half := Hot.inactive active1 h
                next ((s1.setHot n (Hot.setInactive active1 h (half ++ [⟨tid, row, t.cur, raw, pb, hotSize t⟩]))).setFld
                  .hotStatus n 19 0 (satAdd 0xFFFFF (s1.fld .hotStatus n 19 0) 1))

/-- Every load of a die goes on. -/
def hotPump (die : Nat) (lost : Lost) (s : State) : State :=
  s.hots.foldl (fun s kv => match kv.2.load with
    | some (_, left, _) => if kv.1 / 32 = die then hotAdvance kv.1 lost (left + 1) s else s
    | none => s) s

/-! ### Lifecycle commands: checks -/

/-- ARG0 to ARG3. -/
def lcA (s : State) (k : Nat) : Nat := (s.reg .lcArg k).toNat

/-- Group of MIGRATE, DIRSET and DIRCLR. -/
def lcGroup (s : State) : Nat := s.lcA 1 + 2 ^ 32 * bitsOf (s.lcA 2) 9 0

/-- Address and entry size of a row batch (R223). -/
def batchAt (s : State) : Nat := s.lcA 1 + 2 ^ 32 * bitsOf (s.lcA 2) 11 0
def batchEntry (t : Table) : Nat := (16 + t.rowSize + 15) / 16 * 16

/-- Bits of ARG0, ARG2 and ARG3 that a command uses. -/
def lcUses : Nat → Nat × Nat × Nat
  | 1 => (1, 0, 0)
  | 2 => (1, 0xFFF, 0xFFFFFFFF)
  | 3 => (7, 0, 0)
  | 5 => (8, 0, 0)
  | 8 => (0xF0, 0x3FF, 0x3FFFF)
  | 9 => (0, 0x3FF, 0xFFFFF)
  | 10 => (0, 0x3FF, 0)
  | _ => (0, 0, 0)

/-- A WRITE_ROWS runs into the current or the other instar of a table. -/
def writing (s : State) (tid : Nat) (other : Bool) : Bool :=
  match s.lcRun with
  | some (.write t o ..) => t == tid && o == other
  | _ => false

/-- PACKED does not fit a table's row groups (R209). -/
def tooBig (t : Table) : Bool := decide (2 ^ 33 < 2 ^ t.gshift * t.rowSize)

/-- A command's own conditions; `full` says that the directory of a migration's destination is full. -/
def lcOwn (s : State) (op tid : Nat) (full : Bool) (t : Table) : List (Bool × Code) :=
  let a0 := s.lcA 0
  let g := s.lcGroup
  let newEntry := decide (65536 ≤ s.dir.length) && (s.dir.get? (dirKey tid g)).isNone
  match op with
  | 1 => [(a0.testBit 0 && tooBig t, .range), (t.touched, .state)]
  | 2 => [(decide (s.batchAt % 64 ≠ 0), .align),
      (decide (s.lcA 3 = 0) || decide (s.workSize < s.batchAt + s.lcA 3 * batchEntry t), .range),
      (a0.testBit 0 && t.ostate != 1, .state), (s.lcRun.isSome, .busy)]
  | 3 => [(a0.testBit 2 && tooBig t, .range), (t.ostate != 0, .state)]
  | 4 => [(t.ostate != 1, .state), (s.writing tid true, .busy)]
  | 5 => [(t.ostate != 2, .state), (s.writing tid false, .busy)]
  | 6 => [(t.ostate != 4, .state)]
  | 7 => [(t.ostate != 1 && t.ostate != 2, .state), (s.writing tid true, .busy)]
  | 8 =>
    let slot := bitsOf a0 7 4
    let home := s.homeOf tid t g
    let moved := match s.dir.get? (dirKey tid g) with | some d => d.kind == 2 | none => false
    -- A group that a FORWARD entry leads to an engine of this node is homed there (R219).
    [(decide (7 < slot) || home == (bitsOf (s.lcA 3) 11 0, bitsOf (s.lcA 3) 17 12), .range),
      (home.1 != s.node || moved, .state),
      (s.fld .migState slot 1 0 != 0 || full || newEntry, .noResource)]
  | 9 => [(decide (2 ≤ bitsOf (s.lcA 3) 19 18), .badField), (newEntry, .noResource)]
  | 11 => [(s.lcRun.isSome, .busy)]
  | _ => []

/-- The checks of an LKE_LC_CMD write. -/
def lcCheck (s : State) (full : Bool) (v : Word) : Code :=
  let op := v.toNat % 16
  let tid := bitsOf v.toNat 13 4
  let (m0, m2, m3) := lcUses op
  let extra := fun (k m : Nat) => decide (s.lcA k &&& (0xFFFFFFFF ^^^ m) ≠ 0)
  if op = 0 ∨ 12 < op then .badField
  else if op = 12 then firstCode [(extra 0 0 || extra 2 0 || extra 3 0, .badField), (s.lcRun.isSome, .busy)]
  else
    (extra 0 m0 || extra 2 m2 || extra 3 m3, .badField) ::
      (match s.table tid with
      | none => [(true, .state)]
      | some t => s.lcOwn op tid full t) |> firstCode

/-! ### WRITE_ROWS (R223) -/

/-- Granules of a page that receive bytes from poisoned granules of a batch. -/
def batchPoison (s : State) (a off n : Nat) : List Nat :=
  (granules off n).filter fun g => (List.range 64).any fun i =>
    let b := 64 * g + i
    decide (off ≤ b) && decide (b < off + n) && s.cisPoison.contains ((a + (b - off)) / 64)

/-- How an entry of a batch goes. -/
inductive EntryRun where
  | done (s : State) | skip | wait (s : State)

/-- A page lost in the well is installed with every granule poisoned (R223). -/
def installLost (s : State) (id : Nat) : Option State :=
  match s.page id with
  | none => none
  | some p => (s.makeRoom p).map fun s =>
    { s with pages := s.pages.set id { p with data := some (List.replicate 2048 0), poison := List.range 32, miss := false, fresh := [] } }

/-- Write one entry of a batch (R223); a page that must be read, or a full set, lets it wait. -/
def writeEntry (s : State) (tid : Nat) (t : Table) (inst a : Nat) (lost : Lost) : Nat → EntryRun
  | 0 => .wait s
  | fuel + 1 =>
    let (head, bad) := s.cisRead a 16
    let row := bitsOf (leNat head) 41 0
    let g := t.groupOf row
    let home := s.homeOf tid t g
    if bad || decide (t.rows ≤ row) || home.1 != s.node then .skip
    else if s.cutting tid g then .wait s
    else
      match s.prepare home.2 tid t [inst] row with
      | .full => .wait s
      | .miss id =>
        let need := fun (s : State) =>
          let (s1, w) := s.await id s.lcWait
          EntryRun.wait { s1 with lcWait := w }
        (match lost with
        | some (l, code) =>
          if l ≠ id then need s
          -- A page that the shut well does not give is waited for (R281).
          else if code ≠ .media then .wait s
          else match s.installLost id with
            | some s1 => s1.writeEntry tid t inst a none fuel
            | none => .wait s
        | none => need s)
      | .ready s1 id off =>
        let s1 := s1.useRow tid t inst row id
        let bs := (s1.cisRead (a + 16) t.rowSize).1
        let got := s1.batchPoison (a + 16) off t.rowSize
        let s2 := (s1.writePage id off bs).settlePoison id off t.rowSize t got
        let pb := (s2.page id).any fun p => rowPoison p off t.rowSize
        let s2 := (s2.hotWrite tid row [inst] bs pb).dropShadow tid row [inst]
        let s2 := if got.isEmpty then s2
          else s2.raise 0x03 home.2 .poison 0x02 none 0 (((s2.page id).map (·.page)).getD 0) tid
        .done (s2.setTable tid { t with touched := true })

/-! ### What runs -/

/-- A lifecycle command that runs ends. -/
def lcEnd (s : State) (code : Code) : State :=
  let v := (s.reg .lcState 0).toNat
  ({ s with lcRun := none }.setReg .lcState 0 (BitVec.ofNat 32 (setBits v 9 0 (2 + 4 * code.toNat)))).cmdEnd 0 0 code

/-- Folds of a list of rows, as far as they can go (R229, R230). A page that cannot be read leaves its code as the result:
MEDIA, or STATE from a well that is shut (R281). -/
def foldRows (lost : Lost) : List (Nat × Nat × Nat) → Code → State → State × List (Nat × Nat × Nat) × Code
  | [], code, s => (s, [], code)
  | r :: rest, code, s =>
    match s.shadowOf r.1 r.2.1 r.2.2, s.table r.1 with
    | some x, some t =>
      if s.foldHeld r.1 t x then (s, r :: rest, code)
      else (match s.fold1 x lost with
        | .done s1 => foldRows lost rest code s1
        | .skip s1 => foldRows lost rest code s1
        | .lost c =>
          if c = .poison then foldRows lost rest code s
          else foldRows lost rest c (if c = .media then s.skipFold else s)
        | .miss id =>
          let (s1, w) := s.await id x.wait
          (s1.setShadow x { x with wait := w }, r :: rest, code)
        | .wait _ => (s, r :: rest, code))
    | _, _ => foldRows lost rest code s

/-- Dirty pages that became dirty before a place in log order and can be written back. -/
def dirtyBefore (s : State) (mark : Nat) : List (Nat × Page) :=
  s.pages.filter fun kv => kv.2.poison.isEmpty && match kv.2.dirty with | some (o, _) => decide (o < mark) | none => false

/-- Write back what a FLUSH still needs. -/
def flushPages (s : State) (mark : Nat) : State :=
  if s.wellShut then s
  else (s.dirtyBefore mark).foldl (fun s kv => if kv.2.writing || kv.2.data.isNone then s else s.writeBack kv.1 false) s

/-- WRITE_ROWS goes on, entry by entry. -/
def writeAdvance (lost : Lost) : Nat → State → State
  | 0, s => s
  | fuel + 1, s =>
    match s.lcRun with
    | some (.write tid other a left) =>
      if left = 0 then s
      else match s.table tid with
        | none => { s with lcRun := some (.write tid other a 0) }
        | some t =>
          let inst := if other then t.other else t.cur
          let next := fun (s : State) => writeAdvance lost fuel { s with lcRun := some (.write tid other (a + batchEntry t) (left - 1)) }
          match s.writeEntry tid t inst a lost 2 with
          | .wait s1 => s1
          | .skip => next (s.setFld .lcState 0 31 10 (satAdd 0x3FFFFF (s.fld .lcState 0 31 10) 1))
          | .done s1 => next s1
    | _ => s

/-- Folds of the command that runs, and the adds that wait for the shadows that they free (R230). -/
def lcFolds (lost : Lost) (rows : List (Nat × Nat × Nat)) (code : Code) (s : State) : State × List (Nat × Nat × Nat) × Code :=
  let (s1, rest, c) := foldRows lost rows code s
  (if rest.length < rows.length then pumpPool 1 (pumpPool 0 s1) else s1, rest, c)

/-- The lifecycle command that runs goes on as far as it can. A FLUSH writes back while its folds go on, so that
the folds that wait for the dirty limit come about (R235, R236). -/
def lcAdvance (lost : Lost) (s : State) : State :=
  match s.lcRun with
  | some (.write _ _ _ left) => writeAdvance lost left s
  | some (.fold t rows code) =>
    let (s1, rest, c) := lcFolds lost rows code s
    { s1 with lcRun := some (.fold t rest c) }
  | some (.flush rows none code) =>
    let (s1, rest, c) := lcFolds lost rows code s
    if rest.isEmpty then { s1 with lcRun := some (.flush [] (some s1.order) c) }.flushPages s1.order
    else { s1 with lcRun := some (.flush rest none c) }.flushPages s1.order
  | some (.flush _ (some m) _) => s.flushPages m
  | none => s

/-- Rows that a fold of some tables begins with. -/
def shadowRows (s : State) (f : Nat → Bool) : List (Nat × Nat × Nat) :=
  (s.shadows.filter fun x => f x.tid).map fun x => (x.tid, x.row, x.insts.headD 0)

/-- A command that runs is accepted: BUSY, and DONE and RESULT clear. -/
def lcStart (s : State) (r : LcRun) : State :=
  let s := { s with lcRun := some r, lcWait := none }
  s.setFld .lcState 0 9 0 1

/-! ### Migrations (R217, R218) -/

/-- Pages of a row group, of every instar. -/
def groupPages (s : State) (tid g : Nat) : List Nat :=
  (s.pages.filter fun kv => kv.2.tid == tid && kv.2.group == g).map (·.1)

/-- MIGRATE's effect. -/
def migrateEff (s : State) (tid : Nat) (t : Table) : State :=
  let g := s.lcGroup
  let slot := bitsOf (s.lcA 0) 7 4
  let node := bitsOf (s.lcA 3) 11 0
  let e := bitsOf (s.lcA 3) 17 12
  let prior := (s.dir.get? (dirKey tid g)).map fun d => (d.kind, d.node, d.engine)
  let home := (s.homeOf tid t g).2
  let s := { s with
    dir := s.dir.set (dirKey tid g) ⟨2, node, e, home, prior⟩
    migs := s.migs.set slot ⟨tid, g, node, e, s.groupPages tid g, [], false⟩ }
  ((s.setReg .migState slot (BitVec.ofNat 32 (1 + 1024 * tid))).setReg .migPages slot 0).setReg .migPasses slot 0

/-- A migration ends in a slot with a state and a result. -/
def migEnd (s : State) (m : Nat) (state : Nat) (code : Code) : State :=
  let v := (s.reg .migState m).toNat
  { s with migs := s.migs.erase m }.setReg .migState m (BitVec.ofNat 32 (setBits v 9 0 (state + 4 * code.toNat) ||| 0x80000000)) |>.cmdEnd 4 m code

/-- A migration fails: the entry returns to what it was (R218). -/
def migFail (s : State) (m : Nat) (x : Mig) (code : Code) : State :=
  let key := dirKey x.tid x.group
  let dir := match s.dir.get? key with
    | some d => if d.kind = 2 then (match d.prior with
        | some (k, n, e) => s.dir.set key ⟨k, n, e, 0, none⟩
        | none => s.dir.erase key) else s.dir
    | none => s.dir
  { s with dir := dir }.migEnd m 3 code

/-- A page goes straight to the well: a WRITE with an LPN of its own (R217, R233). -/
def sendPage (s : State) (id : Nat) (p : Page) (bs : List Byte) : State :=
  let h := p.engine / 32
  let (l, w) := newLpn (s.well h)
  let s := s.setWell h { w with reqs := w.reqs ++ [WellReq.write l id bs] }
  let above := s.aboveBudget false
  ({ s with pages := s.pages.set id { p with lpn := some l, data := none, writing := true, above := above } }).spend 2048 above

/-- A page comes under another local engine (R217): into its set of the row-page cache when it is cached, and into
the well half of that engine when that changes. None while the set has no clean way (R213). -/
def movePage (e : Nat) (s : State) (id : Nat) : Option State :=
  match s.page id with
  | none => some s
  | some p =>
    let old := p.engine / 32
    let trim := fun (s : State) => match p.lpn with
      | some l => s.modWell old fun w => { w with reqs := w.reqs ++ [WellReq.trim l] }
      | none => s
    let same := decide (old = e / 32)
    match p.data with
    | some _ =>
      let p' := { p with engine := e, lpn := if same then p.lpn else none }
      (s.makeRoom p').map fun s1 =>
        let s1 := { s1 with pages := s1.pages.set id p' }
        if same then s1 else (trim s1).dirtyPage id
    | none =>
      if same then some { s with pages := s.pages.set id { p with engine := e } }
      else some ((trim s).sendPage id { p with engine := e } ((s.well old).bytes old (p.lpn.getD 0)))

/-- Pages on the move, one after the other. -/
def movePages (e : Nat) (ids : List Nat) (s : State) : Option State :=
  ids.foldl (fun o id => o.bind fun s => movePage e s id) (some s)

/-- Parts and adds that an engine has begun for a group, and its pages on the move, hold a cut-over (R218). -/
def cutReady (s : State) (m : Mig) (t : Table) (home : Nat) : Bool :=
  !((s.partsOf home).any fun p => p.begun && p.tid == m.tid && p.items.any fun i => t.groupOf i.1 == m.group) &&
    !((s.addsOf home).any fun a => a.begun && a.tid == m.tid && t.groupOf a.row == m.group) &&
    !((s.groupPages m.tid m.group).any fun id => (s.page id).any fun p => p.miss || p.writing)

/-- Parts and adds held at an engine for a group go to its new home. -/
def sendHeld (s : State) (e tid : Nat) (t : Table) (g : Nat) : State :=
  let s := (s.partsOf e).foldl (fun s p =>
    if p.begun || p.tid != tid || !p.items.any (fun i => t.groupOf i.1 == g) then s
    else match s.beginPart e p with
      | none => s
      | some (s1, none) => s1.setParts e ((s1.partsOf e).erase p)
      | some (s1, some p') => s1.setParts e ((s1.partsOf e).map fun q => if q = p then p' else q)) s
  (s.addsOf e).foldl (fun s a =>
    if a.begun || a.tid != tid || t.groupOf a.row != g then s
    else match s.beginAdd e a with
      | none => s
      | some (s1, none) => s1.setAdds e ((s1.addsOf e).erase a)
      | some (s1, some a') => s1.setAdds e ((s1.addsOf e).map fun b => if b = a then a' else b)) s

/-- A page of the present pass is only in the well, which has lost it. -/
def lostCopy (s : State) (x : Mig) : Bool :=
  x.copying.any fun id => (s.page id).any fun p => p.data.isNone && p.lpn.any fun l => (s.well (p.engine / 32)).lost.contains l

/-- The cut-over of a migration (R218); none while a page finds no way at its destination. -/
def cutOver (s : State) (m : Nat) (x : Mig) (t : Table) (home : Nat) : Option State :=
  let ids := s.groupPages x.tid x.group
  let mine := fun (y : Shadow) => y.tid == x.tid && t.groupOf y.row == x.group
  let s1 := s.setReg .migPages m (BitVec.ofNat 32 ((s.reg .migPages m).toNat + x.copying.length + x.delta.length))
  let moved :=
    if x.node = s.node then
      (movePages x.engine ids s1).map fun s1 =>
        { s1 with shadows := s1.shadows.map fun y => if mine y then { y with engine := x.engine } else y }
    else
      let s1 := ids.foldl dropPage s1
      some { s1 with
        shadows := s1.shadows.filter fun y => !mine y
        tails := s1.tails.filter fun y => !(y.1 == x.tid && y.2.2.1 == x.group) }
  moved.map fun s1 =>
    let s1 := { s1 with
      dir := s1.dir.set (dirKey x.tid x.group) ⟨3, x.node, x.engine, 0, none⟩
      repacks := s1.repacks.filter fun c => !(c.tid == x.tid && c.group == x.group) }
    let s1 := s1.migEnd m 2 .ok
    let s1 := s1.sendHeld home x.tid t x.group
    s1.dropHot fun e y => e == home && y.tid == x.tid && t.groupOf y.row == x.group

/-! ### Lifecycle commands: effects -/

/-- BEGIN (R224). -/
def beginEff (s : State) (tid : Nat) (t : Table) : State :=
  let a0 := s.lcA 0
  let new := (t.cur + 1) % 65536
  let clone := a0.testBit 0
  let s := s.setTable tid { t with
    other := new
    ostate := 1
    clone := clone
    mirror := a0.testBit 1
    packOther := a0.testBit 2
    touched := true }
  if !clone then s
  else { s with
    pages := s.pages.mapV fun _ p => if p.tid = tid ∧ p.insts.contains t.cur then { p with
      insts := p.insts ++ [new]
      rows := p.rows.map fun l => l ++ (l.filter (·.1 == t.cur)).map fun x => (new, x.2) } else p
    shadows := s.shadows.map fun x => if x.tid = tid ∧ x.insts.contains t.cur then { x with insts := x.insts ++ [new] } else x
    tails := s.tails ++ (s.tails.filter fun x => x.1 == tid && x.2.1 == t.cur).map fun x => (tid, new, x.2.2) }

/-- The other instar of a table is gone (R225, R228). -/
def endOther (s : State) (tid : Nat) (t : Table) : State :=
  (s.dropInstar tid t.other).setTable tid { t with ostate := 0, mirror := false, clone := false, packOther := false }

/-- The effect of an LKE_LC_CMD write. -/
def lcEff (v : Word) (s : State) : State :=
  let op := v.toNat % 16
  let tid := bitsOf v.toNat 13 4
  let a0 := s.lcA 0
  if op = 12 then s.lcStart (.flush (s.shadowRows fun _ => true) none .ok)
  else match s.table tid with
    | none => s
    | some t =>
      match op with
      | 1 => s.setTable tid { t with packCur := a0.testBit 0 }
      | 2 => (s.lcStart (.write tid (a0.testBit 0) s.batchAt (s.lcA 3))).setFld .lcState 0 31 10 0
      | 3 => s.beginEff tid t
      | 4 => s.setTable tid { t with ostate := 2 }
      | 5 => s.setTable tid { t with
          cur := t.other
          other := t.cur
          packCur := t.packOther
          packOther := t.packCur
          ostate := if a0.testBit 3 then 4 else 3 }
      | 6 => s.setTable tid { t with ostate := 3 }
      | 7 => s.endOther tid t
      | 8 => s.migrateEff tid t
      | 9 =>
        let e := s.lcA 3
        let kind := bitsOf e 19 18
        { s with dir := s.dir.set (dirKey tid s.lcGroup) ⟨kind, if kind = 0 then s.node else bitsOf e 11 0, bitsOf e 17 12, 0, none⟩ }
      | 10 => { s with dir := s.dir.erase (dirKey tid s.lcGroup) }
      | 11 => s.lcStart (.fold tid (s.shadowRows (· == tid)) .ok)
      | _ => s

/-- A write of LKE_LC_CMD with an OP. -/
def lcCmd (src : Src) (op : Nat) (v : Word) (full : Bool) (s : State) : State :=
  let v := BitVec.ofNat 32 (setBits v.toNat 3 0 op)
  s.busWrite src .lcCmd 0 v (s.lcCheck full v) (lcEff v)

/-- Writing 1 to ACK frees a slot that reads DONE or FAILED. -/
def migAckEff (m : Nat) (v : Word) (s : State) : State :=
  if v.getLsbD 31 && s.flag .migState m 31 then (s.setFld .migState m 1 0 0).setFlag .migState m 31 false else s

end State

open State

/-! ### Commands -/

/-- REGISTER (R177, R180). -/
def execRegister (src : Src) (v : Word) (s : State) : Outcome :=
  let v := BitVec.ofNat 32 (setBits v.toNat 1 0 1)
  .next (s.busWrite src .lkeTcmd 0 v (s.tcmdCheck v) (tcmdEff v))

/-- RETIRE (R181). -/
def execRetire (src : Src) (v : Word) (s : State) : Outcome :=
  let v := BitVec.ofNat 32 (setBits v.toNat 1 0 2)
  .next (s.busWrite src .lkeTcmd 0 v (s.tcmdCheck v) (tcmdEff v))

/-- CMS_HASH_COMMIT (R200). -/
def execCmsHashCommit (src : Src) (d : Fin 4) (v : Word) (s : State) : Outcome :=
  .next (s.busWrite src .cmsHashBHi d.val v (s.hashCheck d.val v) (hashEff d.val v))

/-- CMS_SET_ENABLE (R200). -/
def execCmsSetEnable (src : Src) (n : Fin 64) (i : Fin 16) (v : Word) (s : State) : Outcome :=
  let v := v ||| 0x80000000
  let k := 16 * n.val + i.val
  .next (s.busWrite src .cmsSet k v (s.cmsSetCheck k v) (cmsSetEff k v))

/-- CMS_SNAP (R202). -/
def execCmsSnap (src : Src) (n : Fin 64) (v : Word) (s : State) : Outcome :=
  let v := v ||| 1
  .next (s.busWrite src .cmsCtrl n.val v (s.snapCheck n.val v) (snapEff n.val v))

/-- CMS_SNAP_DONE (R202). -/
def execCmsSnapDone (n : Fin 64) (s : State) : Outcome :=
  .next (if s.flag .cmsCtrl n.val 2 then s.endSnap n.val else s)

/-- HOT_LOAD (R204, R206). -/
def execHotLoad (src : Src) (n : Fin 64) (v : Word) (s : State) : Outcome :=
  let v := v ||| 0x80000000
  .next (s.busWrite src .hotCtrl n.val v (s.hotCheck n.val v) (hotEff n.val v))

/-- HOT_LOAD_DONE (R204): the load goes on, and ends when its list is done or its half full. -/
def execHotLoadDone (n : Fin 64) (s : State) : Outcome :=
  match (s.hot n.val).load with
  | some (_, left, _) => .next (hotAdvance n.val none (left + 1) s)
  | none => .next s

/-- HOT_SWITCH (R205). A request that begins within the next 200 ns uses the new half too (log entry 81). -/
def execHotSwitch (src : Src) (n : Fin 64) (v : Word) (s : State) : Outcome :=
  let v := v ||| 0x40000000
  .next (s.busWrite src .hotCtrl n.val v (s.hotCheck n.val v) (hotEff n.val v))

/-- PLACE (R209). -/
def execPlace (src : Src) (v : Word) (s : State) : Outcome := .next (s.lcCmd src 1 v false)
/-- WRITE_ROWS (R223). -/
def execWriteRows (src : Src) (v : Word) (s : State) : Outcome := .next (s.lcCmd src 2 v false)
/-- BEGIN (R224). -/
def execBegin (src : Src) (v : Word) (s : State) : Outcome := .next (s.lcCmd src 3 v false)
/-- SEAL (R225). -/
def execSeal (src : Src) (v : Word) (s : State) : Outcome := .next (s.lcCmd src 4 v false)
/-- ADVANCE (R227). -/
def execAdvance (src : Src) (v : Word) (s : State) : Outcome := .next (s.lcCmd src 5 v false)
/-- RELEASE (R228). -/
def execRelease (src : Src) (v : Word) (s : State) : Outcome := .next (s.lcCmd src 6 v false)
/-- ABANDON (R225). -/
def execAbandon (src : Src) (v : Word) (s : State) : Outcome := .next (s.lcCmd src 7 v false)
/-- MIGRATE (R217): `full` says that the destination node's directory is full. -/
def execMigrate (src : Src) (v : Word) (full : Bool) (s : State) : Outcome := .next (s.lcCmd src 8 v full)
/-- DIRSET (R216). -/
def execDirset (src : Src) (v : Word) (s : State) : Outcome := .next (s.lcCmd src 9 v false)
/-- DIRCLR (R216). -/
def execDirclr (src : Src) (v : Word) (s : State) : Outcome := .next (s.lcCmd src 10 v false)
/-- FOLD (R230). -/
def execFold (src : Src) (v : Word) (s : State) : Outcome := .next (s.lcCmd src 11 v false)
/-- FLUSH (R236). -/
def execFlush (src : Src) (v : Word) (s : State) : Outcome := .next (s.lcCmd src 12 v false)

/-- WRITE_ROWS_DONE (R223): the batch goes on, and the command ends when every entry is written or skipped. -/
def execWriteRowsDone (s : State) : Outcome :=
  match s.lcRun with
  | some (.write ..) =>
    let s1 := lcAdvance none s
    match s1.lcRun with
    | some (.write _ _ _ 0) => .next (s1.lcEnd .ok)
    | _ => .next s1
  | _ => .next s

/-- FOLD_DONE (R229, R230): the folds go on, and the command ends when none is left. -/
def execFoldDone (s : State) : Outcome :=
  match s.lcRun with
  | some (.fold ..) =>
    let s1 := lcAdvance none s
    match s1.lcRun with
    | some (.fold _ [] c) => .next (s1.lcEnd c)
    | _ => .next s1
  | _ => .next s

/-- FLUSH_DONE (R236): folds and write-backs go on, and the command ends when the well holds every change. -/
def execFlushDone (s : State) : Outcome :=
  match s.lcRun with
  | some (.flush ..) =>
    let s1 := lcAdvance none s
    match s1.lcRun with
    | some (.flush _ (some m) c) => .next (if (s1.dirtyBefore m).isEmpty then s1.lcEnd c else s1)
    | _ => .next s1
  | _ => .next s

/-- INSTAR_RETIRE (R228): a RETIRING instar whose pin count is zero is retired. -/
def execInstarRetire (tid : Fin 1024) (s : State) : Outcome :=
  match s.table tid.val with
  | some t => .next (if t.ostate = 3 ∧ s.pinCount tid.val t.other = 0 then s.endOther tid.val t else s)
  | none => .next s

/-- MIGRATION_PASS_END (R218): a copy pass ends, with the code of a copy that failed. -/
def execMigrationPassEnd (m : Fin 8) (code : Code) (s : State) : Outcome :=
  match s.migs.get? m.val with
  | none => .next s
  | some x =>
    if x.cutting then .next s
    else if code ≠ .ok then .next (s.migFail m.val x code)
    else if s.lostCopy x then .next (s.migFail m.val x .media)
    -- The shut well gives no page (R281).
    else if s.wellShut && x.copying.any fun id => (s.page id).any fun p => p.data.isNone && p.lpn.isSome then
      .next (s.migFail m.val x .state)
    else
      let passes := s.fld .migPasses m.val 6 0 + 1
      let s1 := (s.setReg .migPages m.val (BitVec.ofNat 32 ((s.reg .migPages m.val).toNat + x.copying.length))).setReg
        .migPasses m.val (BitVec.ofNat 32 passes)
      let x' := { x with copying := x.delta, delta := [] }
      if x.delta.length ≤ 128 then .next { s1 with migs := s1.migs.set m.val { x' with cutting := true } }
      else if 64 ≤ passes then .next (s1.migFail m.val x .timeout)
      else .next { s1 with migs := s1.migs.set m.val x' }

/-- MIGRATION_CUTOVER_DONE (R218): what was begun for the group has finished, and the group moves. -/
def execMigrationCutoverDone (m : Fin 8) (s : State) : Outcome :=
  match s.migs.get? m.val with
  | none => .next s
  | some x =>
    match s.table x.tid with
    | none => .next s
    | some t =>
      let home := (s.homeOf x.tid t x.group).2
      .next (if x.cutting && s.cutReady x t home then (s.cutOver m.val x t home).getD s else s)

/-- MIG_SLOT_ACK: writing 1 to ACK frees the slot. -/
def execMigSlotAck (src : Src) (m : Fin 8) (v : Word) (s : State) : Outcome :=
  let v := v ||| 0x80000000
  .next (s.busWrite src .migState m.val v .ok (migAckEff m.val v))

/-- A page that a migration brings in: into the row-page cache, over one of its place if there is one; without a
clean way straight into the well, which takes no poisoned page, and then none. -/
def bringPage (tid group e : Nat) (s : State) (m : MovedPage) : Option State :=
  let data := (m.data ++ List.replicate 2048 0).take 2048
  let fill := fun (q : Page) => { q with data := some data, poison := m.poison, miss := false, rows := if m.packed then none else some [] }
  match s.findPage tid m.inst group m.page m.loc m.packed with
  | some id => match s.page id with
    | some q =>
      let room := if q.data.isSome then some s else s.makeRoom q
      room.map fun s => ({ s with pages := s.pages.set id (fill q) }).dirtyPage id
    | none => some s
  | none =>
    let q := fill (blank tid group m.page e m.inst m.loc m.packed)
    match s.newPage q with
    | some (id, s) => some (s.dirtyPage id)
    | none => if m.poison.isEmpty then some ({ s with nextPage := s.nextPage + 1 }.sendPage s.nextPage q data) else none

/-- DESTINATION_RESERVE (R217, R218): this node is the destination of a migration: a HOME entry is made, and the
group's pages and shadows come in. A full directory turns it away, and so does a set without a clean way for a
poisoned page (log entry 65). -/
def execDestinationReserve (tid : Fin 1024) (group : Nat) (e : Fin 64) (pages : List MovedPage)
    (shadows : List MovedShadow) (s : State) : Outcome :=
  let key := dirKey tid.val group
  match s.table tid.val with
  | none => .next s
  | some _ =>
    if 65536 ≤ s.dir.length ∧ (s.dir.get? key).isNone then .next s
    else
      let s1 := { s with dir := s.dir.set key ⟨0, s.node, e.val, 0, none⟩ }
      match pages.foldl (fun o m => o.bind fun s => bringPage tid.val group e.val s m) (some s1) with
      | none => .next s
      | some s1 => .next { s1 with
          shadows := s1.shadows ++ shadows.map fun x => ⟨tid.val, x.row, [x.inst], e.val, x.vec, s.ticks, false, false, none⟩ }

/-- An answer of a well half is installed, and everything that waits for it goes on; none while its set has no clean
way (R213). One that could not be read ends what needs it (R194, R223, R229). -/
def installAnswer (s : State) (h : Nat) (a : Nat × Code × List Byte) : Option State :=
  let (lpn, code, data) := a
  let s := s.modWell h fun w => { w with arrived := w.arrived.erase a }
  let hit := s.pages.find? fun kv => kv.2.lpn == some lpn && kv.2.engine / 32 == h && kv.2.miss
  let go := fun (lost : Lost) (s : State) => lcAdvance lost (hotPump h lost (pumpDie h lost s))
  match hit with
  | none => some s
  | some (id, p) =>
    if code ≠ .ok then some (go (some (id, code)) { s with pages := s.pages.set id { p with miss := false } })
    else (s.makeRoom p).map fun s1 =>
      go none (({ s1 with pages := s1.pages.set id { p with miss := false, data := some data, fresh := [] } }).touch id)

/-- ROW_PAGE_INSTALL (R212, R213): the first answer of a well half that finds a way is installed. -/
def execRowPageInstall (h : Fin 2) (s : State) : Outcome :=
  match (s.well h.val).arrived.findSome? (installAnswer s h.val) with
  | some s1 => .next s1
  | none => .next s

end Sys2Proof.Machine
end

