-- ==== Sys2Proof/Machine/Media.lean ====
section
/-!
DEFINITION. The well engine at work (R261 to R281): requests, the retry ladder, programs and erases, reclaim, wear
levelling, scrub, die loss, mount, and the commands of WEL_CMD.
-/

namespace Sys2Proof.Machine

open State

/-- WRITEs of pages are acknowledged, and what waited for them at a half goes on (R213, R235, R263). -/
def acked (h : Nat) (ids : List Nat) (s : State) : State :=
  if ids.isEmpty then s else lcAdvance none (pumpDie h none (ids.foldl ackPage s))

/-! ### Requests -/

/-- A request for an LPN that is first in line at a half (R263): `f` picks the kind. -/
def nextReq (reqs : List WellReq) (f : WellReq → Bool) : Option WellReq :=
  let lpnOf := fun (r : WellReq) => match r with | .read l => l | .write l _ _ => l | .trim l => l
  (reqs.zipIdx.find? fun ri => f ri.1 && (reqs.take ri.2).all fun r => lpnOf r != lpnOf ri.1).map (·.1)

/-- A READ of the flash (R271, R274): with the block's read levels, or by reconstruction when its die has failed. -/
def Well.readOf (w : Well) (lpn pca : Nat) : NandRead :=
  if (w.dead (pcaGroup pca)).contains (pcaChan pca) then ⟨lpn, pca, 3, []⟩
  else ⟨lpn, pca, 0, [(w.blk (pcaBid pca)).offsets]⟩

/-- WELL_READ (R262, R263, R275, R281). -/
def execWellRead (h : Fin 2) (s : State) : Outcome :=
  let w := s.well h.val
  match nextReq w.reqs (fun r => match r with | .read _ => true | _ => false) with
  | some (.read lpn) =>
    let s1 := s.dropReq h.val (.read lpn)
    if s.wellShut then .next (s1.answer h.val lpn .state [])
    else if !s.wellUp then .next s
    else if w.lost.contains lpn then .next (s1.answer h.val lpn .media [])
    else match w.quick lpn with
      | some d => .next (s1.answer h.val lpn .ok d)
      | none =>
        -- Whether the map page was cached is a free value (log entry 1).
        let (k, s1) := s1.draw
        let s1 := if (Config.freeAt k 0).getLsbD 0 then s1.bump .whMapHit h.val 1 else s1.bump .whMapMiss h.val 1
        .next (s1.modWell h.val fun w => { w with reads := w.reads ++ [w.readOf lpn (w.map.getD lpn 0)] })
  | _ => .next s

/-- WELL_WRITE (R263, R265, R269). A half whose NAND is hot defers programs (R446). -/
def execWellWrite (h : Fin 2) (s : State) : Outcome :=
  let w := s.well h.val
  match nextReq w.reqs (fun r => match r with | .write .. => true | _ => false) with
  | some (.write lpn page data) =>
    let s1 := s.dropReq h.val (.write lpn page data)
    if !s.wellUp || s.wellShut || 12288 ≤ w.buf.length || s.nandHot.contains h.val then .next s
    else if s.wellMode h.val = 2 then .next (s1.refusePage page)
    else if (w.map.get? lpn).isNone && 5859375000 ≤ w.map.length then
      .next (((s1.refusePage page).setFlag .whState h.val 2 true).raise 0x07 (16 * h.val) .noResource 0x01 none 0 0 lpn)
    else
      let s1 := s1.modWell h.val fun w => { w with
        buf := w.buf ++ [⟨lpn, page, data, s.holdupOk⟩]
        lost := setErase w.lost lpn }
      .next (acked h.val (if s.holdupOk then [page] else []) s1)
  | _ => .next s

/-- WELL_TRIM (R262). -/
def execWellTrim (h : Fin 2) (s : State) : Outcome :=
  let w := s.well h.val
  match nextReq w.reqs (fun r => match r with | .trim _ => true | _ => false) with
  | some (.trim lpn) =>
    if !s.wellUp || s.wellShut then .next s
    else
      let s1 := (s.dropReq h.val (.trim lpn)).modWell h.val fun w => { w with
        map := w.map.erase lpn
        pend := w.pend ++ [(lpn, none)]
        touched := setInsert w.touched (lpn / 256)
        buf := w.buf.filter (·.lpn != lpn)
        lost := setErase w.lost lpn
        lpnFree := w.lpnFree ++ [lpn] }
      .next (if (w.map.get? lpn).isSome then s1.setFlag .whState h.val 2 false else s1)
  | _ => .next s

/-! ### Reads, programs and erases of the dies -/

/-- The blocks that a step of a READ has read: the codeword's, as often as the step says, or at step 3 those of the
other dies (R261, R272). -/
def Well.countReads (w : Well) (r : NandRead) : Well :=
  let add := fun (n : Nat) (w : Well) (b : Nat) => w.setBlk b { w.blk b with reads := (w.blk b).reads + n }
  if r.step < 3 then add r.levels.length w (pcaBid r.pca)
  else match (w.blk (pcaBid r.pca)).stripe with
    | none => w
    | some n => ((Well.bidsOf (w.stripe n)).filter (· != pcaBid r.pca)).foldl (add 1) w

/-- The next step of a READ (R275): read levels estimated from the neighbouring blocks, then one step either side of
them, then reconstruction. How the levels are estimated the spec leaves open (log entry 1). -/
def nextStep (k : Nat) (r : NandRead) : NandRead :=
  match r.step with
  | 0 => { r with step := 1, levels := [(List.range 7).map fun i => ((Config.freeAt k i).setWidth 8).toInt] }
  | 1 => { r with step := 2, levels := r.levels.flatMap fun l => [l.map (· - 1), l.map (· + 1)] }
  | _ => { r with step := 3, levels := [] }

/-- The stripe block of a READ that ended is relocated when the READ needed step 2, or a block of it was read as often
as DISTURB says (R272). -/
def afterRead (h : Nat) (r : NandRead) (s : State) : State :=
  let w := s.well h
  match (w.blk (pcaBid r.pca)).stripe with
  | none => s
  | some n =>
    let often := (Well.bidsOf (w.stripe n)).any fun b => decide (1000 * s.fld .whScrubCfg h 31 16 ≤ (w.blk b).reads)
    if (decide (2 ≤ r.step) && (w.readOf r.lpn r.pca).step == 0) || often then s.relocate h n else s

/-- A READ ends with data (R261, R263): a reconstructed codeword is also written again elsewhere. -/
def readGood (h : Nat) (r : NandRead) (c : Cell) (s : State) : State :=
  let data := c.plain h (s.well h).key
  let s := s.answer h r.lpn .ok data
  if r.step = 3 ∧ (s.well h).map.get? r.lpn = some r.pca then s.tryLog h fun w => w.log h [(0, r.lpn, data)] else s

/-- A READ ends without data (R275): the LPN is lost, unless a later WRITE or a move has given it another place. -/
def readLost (h : Nat) (r : NandRead) (s : State) : State :=
  let w := s.well h
  let gone := w.map.get? r.lpn == some r.pca && !w.buf.any (·.lpn == r.lpn)
  let s := s.modWell h fun w => { w with lost := if gone then setInsert w.lost r.lpn else w.lost }
  ((s.bump .whMedia h 1).raise 0x07 (16 * h + pcaChan r.pca) .media 0x01 none 0 r.pca r.lpn).answer h r.lpn .media []

/-- NAND_READ_DONE (R259, R261, R271, R272, R275, R412): the reads of a step for an LPN have been decoded, or have not. The
start of step 3 is recorded in the sump. -/
def execNandReadDone (h : Fin 2) (lpn : Nat) (ok : Bool) (s : State) : Outcome :=
  let w := s.well h.val
  match w.reads.find? (·.lpn == lpn) with
  | none => .next s
  | some r =>
    let s1 := s.setWell h.val (w.countReads r)
    let found := if !ok then none else if r.step < 3 then w.cells.get? r.pca else w.rebuilt h.val r.pca
    let ends := fun (s : State) =>
      let s := s.modWell h.val fun w => { w with reads := w.reads.erase r }
      if r.step = 0 then s else s.bump .whRetry (3 * h.val + (r.step - 1)) 1
    match found with
    | some c => .next (afterRead h.val r (readGood h.val r c (ends s1)))
    | none =>
      if 3 ≤ r.step then .next (afterRead h.val r (readLost h.val r (ends s1)))
      else
        let (k, s1) := s1.draw
        let s1 := s1.modWell h.val fun w => { w with reads := w.reads.map fun x => if x = r then nextStep k r else x }
        .next (if r.step = 2 then s1.raiseFree 0x07 (16 * h.val + pcaChan r.pca) 0x01 none 0 r.pca r.lpn else s1)

/-- NAND_PROGRAM_DONE (R257, R260, R263, R273): one program of the oldest buffered writes is done on every die of the open
set, or has failed in the block of a channel and plane. -/
def execNandProgramDone (h : Fin 2) (fail : Option (Fin 16 × Fin 4)) (s : State) : Outcome :=
  let w := (s.well h.val).mark s.serviceDays
  if w.buf.isEmpty || s.defers h.val then .next s
  else match (if w.opened.isEmpty then w.openSet false else some w) with
    | none => .next s
    | some w =>
      match fail with
      | some (chan, plane) =>
        let bad := (w.opened.flatMap fun n => Well.bidsOf (w.stripe n)).find? fun b => b / 2 ^ 16 == chan.val && b / 2 ^ 11 % 4 == plane.val
        match bad with
        | none => .next s
        | some b => .next ((s.setWell h.val { w with opened := [] }).growBad h.val b)
      | none =>
        let now := w.buf.take w.room
        let w1 := w.program h.val (now.map fun b => (0, b.lpn, b.data))
        let late := (now.filter fun b => !b.acked).map fun b => (b.lpn, b.page)
        .next ((s.setWell h.val { w1 with
          buf := w.buf.drop w.room
          written := w1.written + now.length
          unacked := w1.unacked ++ late }).checkFree h.val)

/-- RECLAIM ends when enough stripe blocks are free (R266). -/
def reclaimed (h : Nat) (s : State) : State :=
  if stripeCount ≤ (s.well h).freeStripes * 50 then s.setFlag .whState h 3 false else s

/-- NAND_ERASE_DONE (R264, R273): not before every read that started from the stripe block has completed. -/
def execNandEraseDone (h : Fin 2) (fail : Option (Fin 16)) (s : State) : Outcome :=
  let w := s.well h.val
  match w.erasing with
  | [] => .next s
  | n :: _ =>
    if w.reads.any fun r => w.inStripe n r.pca then .next s
    else
      let s1 := s.setWell h.val (w.erase n)
      let bad := fail.bind fun chan => (Well.bidsOf (w.stripe n)).find? fun b => b / 2 ^ 16 == chan.val
      .next (reclaimed h.val (match bad with
        | some b => s1.growBad h.val b
        | none => s1.checkFree h.val))

/-! ### Moves -/

namespace Well

/-- A stripe block that holds data and takes no more programs. -/
def full (w : Well) (n : Nat) : Bool := !w.opened.contains n && !(w.stripe n).gone

/-- The full stripe block with the fewest valid codewords (R266). -/
def emptiest (w : Well) : Option Nat :=
  (w.stripes.foldl (fun (acc : Option (Nat × Nat)) kv =>
    if !w.full kv.1 then acc
    else
      let n := (w.validOf kv.1).length
      match acc with
      | some a => if n < a.1 then some (n, kv.1) else acc
      | none => some (n, kv.1)) none).map (·.2)

/-- The full stripe block that holds the least recently written valid codeword (R267). -/
def coldest (w : Well) : Option Nat :=
  (w.cells.foldl (fun (acc : Option (Nat × Nat)) kv =>
    match (w.blk (pcaBid kv.1)).stripe with
    | none => acc
    | some n =>
      if !(w.full n && w.current kv.1 kv.2) then acc
      else match acc with
        | some a => if kv.2.seq < a.1 then some (kv.2.seq, n) else acc
        | none => some (kv.2.seq, n)) none).map (·.2)

/-- Valid codewords on failed dies that cannot be reconstructed. -/
def stuck (w : Well) (h n : Nat) : Bool :=
  (w.validOf n).any fun kv => (w.dead (w.stripe n).group).contains (pcaChan kv.1) && (w.rebuilt h kv.1).isNone

/-- Stripe blocks that hold a failed die's codewords are moved, one after the other (R274). -/
def rebuild (w : Well) (h : Nat) : List Nat → Option Well
  | [] => some w
  | n :: ns => if w.stuck h n then none else (w.vacate h n false).bind fun w1 => w1.rebuild h ns

end Well

/-- RECLAIM (R266): it runs while free stripe blocks are below 2 %. -/
def execReclaim (h : Fin 2) (s : State) : Outcome :=
  let w := s.well h.val
  if stripeCount ≤ w.freeStripes * 50 then .next s
  else
    let s1 := s.setFlag .whState h.val 3 true
    match w.emptiest with
    | none => .next s1
    | some n => .next (s1.tryLog h.val fun w => w.vacate h.val n false)

/-- WEAR_LEVEL (R267): when erase counts differ by more than 300. -/
def execWearLevel (h : Fin 2) (s : State) : Outcome :=
  let w := s.well h.val
  if w.eraseMax ≤ w.eraseMin + 300 then .next s
  else match w.coldest with
    | some n => .next (s.tryLog h.val fun w => w.vacate h.val n true)
    | none => .next s

/-- The journal or a checkpoint of a half is written, and the writes that waited for it are acknowledged (R263, R266). -/
def writeTables (h : Nat) (f : Well → Option Well) (s : State) : State :=
  match s.logged h f with
  | some s1 => acked h ((s.well h).unacked.map (·.2)) s1
  | none => s

/-- JOURNAL_WRITE (R266). -/
def execJournalWrite (h : Fin 2) (s : State) : Outcome :=
  .next (if s.wellUp && !s.defers h.val then writeTables h.val (fun w => w.journal h.val 0) s else s)

/-- CHECKPOINT_TIMER (R266). -/
def execCheckpointTimer (h : Fin 2) (s : State) : Outcome :=
  .next (if s.wellUp && !s.defers h.val then writeTables h.val (fun w => w.checkpoint h.val) s else s)

/-- BLOCK_SCRUB (R270 to R272): one codeword of each programmed page of a block has been read, in rotation, with a bit
error rate in units of 10^-4; `offsets` minimise it. -/
def execBlockScrub (h : Fin 2) (blk ber : Nat) (offsets : List Int) (s : State) : Outcome :=
  let w := s.well h.val
  let x := w.blk blk
  match x.stripe with
  | none => .next s
  | some n =>
    if !s.wellUp || !s.flag .whScrubCfg h.val 0 || (w.stripe n).pos == 0 || (w.stripe n).gone || offsets.length != 7 then .next s
    else
      let s1 := s.setWell h.val (w.setBlk blk { x with
        offsets := offsets
        hot := w.tempOf (blk / 2 ^ 16)
        reads := x.reads + (w.stripe n).pos
        rot := (x.rot + 1) % 8 })
      let often := decide (1000 * s.fld .whScrubCfg h.val 31 16 ≤ x.reads + (w.stripe n).pos)
      .next (if s.fld .whScrubCfg h.val 15 8 ≤ ber ∨ often then s1.relocate h.val n else s1)

/-- DIE_POLL_TIMEOUT (R274). -/
def execDiePollTimeout (h : Fin 2) (chan : Fin 16) (die : Fin 8) (s : State) : Outcome :=
  .next (s.failDie h.val (8 * chan.val + die.val))

/-- DIE_REBUILD_END (R261, R274): the codewords of the failed dies of a group lie elsewhere, with those of the other dies
of their stripe blocks, so that the group has its redundancy again. The half is READ_ONLY when one cannot be
reconstructed, or finds no room (R269). -/
def execDieRebuildEnd (h : Fin 2) (s : State) : Outcome :=
  let w := s.well h.val
  match w.rebuilding with
  | [] => .next s
  | g :: rest =>
    if s.defers h.val then .next s else
    let dead := w.dead g
    let ns := (w.stripes.filter fun kv => kv.2.group == g && !kv.2.gone && kv.2.blks.any fun cb => dead.contains cb.1).map (·.1)
    match s.logged h.val fun w => w.rebuild h.val ns with
    | none => .next (s.readOnly h.val)
    | some s1 =>
      let s1 := s1.modWell h.val fun w => { w with rebuilding := rest }
      .next (if rest.isEmpty ∧ s1.wellMode h.val = 1 then s1.setFld .whState h.val 1 0 0 else s1)

/-! ### Mount and commands -/

/-- WELL_MOUNT (R277, R279, R281): the keeper releases the well engine after the cistern reads READY; the hold-up test
passes or fails. -/
def execWellMount (holdup : Bool) (s : State) : Outcome :=
  if s.wellUp || s.welMount.isSome || !s.cisReady || !s.mountDue then .next s
  else
    let kind := if (s.well 0).marker != 0 && (s.well 1).marker != 0 then 1 else 2
    let s1 := ((s.modWell 0 Well.mount).modWell 1 Well.mount).setFlag .welState 0 3 holdup
    .next { s1 with welMount := some kind, mountDue := false }

/-- WELL_MOUNT_DONE (R268, R279, R281). -/
def execWellMountDone (s : State) : Outcome :=
  match s.welMount with
  | none => .next s
  | some kind =>
    let s1 := { s with welMount := none }
    let s1 := s1.setFld .welState 0 2 0 (1 + 2 * kind)
    let s1 := s1.setFlag .welState 0 5 false
    let s1 := (s1.modWell 0 fun w => { w with marker := 0 }).modWell 1 fun w => { w with marker := 0 }
    let s1 := (s1.reportBudget 0).reportBudget 1
    let s1 := s1.setFld .govBudget 0 15 0 s1.moduleBudget
    .next (if s.welRun = some 4 then endWelCmd .ok s1 else s1)

/-- The checks of a WEL_CMD write. -/
def welCheck (s : State) (v : Word) : Code :=
  let op := v.toNat % 16
  let confirm := bitsOf v.toNat 31 16
  firstCode [
    (op == 0 || decide (4 < op) || confirm != (if op = 3 then 0x5A17 else 0), .badField),
    (op == 3 && !s.tables.isEmpty, .state),
    (op == 4 && !s.wellShut, .state),
    (s.welRun.isSome, .busy)]

/-- SANITIZE's effect (R280): a new media key, wrapped in the system area, empty maps, erasure of every block under way,
and READ_ONLY ended (R269). -/
def sanitizeHalf (s : State) (h : Nat) : State :=
  let s := s.modWell h fun w => { w with
    key := w.wrapped + 1
    wrapped := w.wrapped + 1
    map := []
    mapAt := []
    jourAt := []
    sysAt := []
    pend := []
    touched := []
    jmap := []
    jseq := w.seq
    ckpt := { w.tables with mapAt := [] }
    buf := []
    unacked := []
    lost := []
    lpnNext := 0
    lpnFree := []
    opened := []
    erasing := []
    sanit := w.stripes.map (·.1)
    stripes := w.stripes.mapV fun _ x => { x with gone := true } }
  let s := s.setFlag .whState h 2 false
  if s.wellMode h = 2 then s.setFld .whState h 1 0 (if (s.well h).rebuilding.isEmpty then 0 else 1) else s

/-- The effect of an accepted WEL_CMD; after a MOUNT the keeper releases the well engine, and tests the hold-up
(R277). -/
def welEffect (v : Word) (s : State) : State :=
  let op := v.toNat % 16
  let s := { s with welRun := some op }.setReg .welCmdState 0 1
  match op with
  | 3 => ((sanitizeHalf (sanitizeHalf s 0) 1).setFlag .welState 0 4 true)
  | 4 => { s with mountDue := true }
  | _ => s

/-- A write of WEL_CMD with an OP. -/
def welCmd (src : Src) (op : Nat) (v : Word) (s : State) : Outcome :=
  let v := BitVec.ofNat 32 (setBits v.toNat 3 0 op)
  .next (s.busWrite src .welCmd 0 v (welCheck s v) (welEffect v))

/-- CHECKPOINT (R266). -/
def execCheckpoint (src : Src) (v : Word) (s : State) : Outcome := welCmd src 1 v s
/-- SHUTDOWN (R281). -/
def execShutdown (src : Src) (v : Word) (s : State) : Outcome := welCmd src 2 v s
/-- SANITIZE (R280). -/
def execSanitize (src : Src) (v : Word) (s : State) : Outcome := welCmd src 3 v s
/-- MOUNT (R281): WELL_MOUNT_DONE ends it. -/
def execMount (src : Src) (v : Word) (s : State) : Outcome := welCmd src 4 v s

/-- The well stops cleanly (R266, R281): a checkpoint is written, requests that wait are kept at the well, the buffer and
journal are in flash with a clean marker. -/
def shutWell (s : State) : State :=
  let stop := fun (s : State) (h : Nat) =>
    ((writeTables h (fun w => w.checkpoint h) s).drainWell h 1).modWell h fun w =>
      -- A read in flight is answered with STATE.
      { w with reads := [], arrived := w.arrived ++ w.reads.map fun r => (r.lpn, .state, []) }
  ((stop (stop s 0) 1).setFlag .welState 0 0 false).setFlag .welState 0 5 true

/-- WEL_CMD_DONE (R281): a CHECKPOINT, SHUTDOWN or SANITIZE ends; while a half defers programs, one that has to program
flash goes on (R446). -/
def execWelCmdDone (code : Code) (s : State) : Outcome :=
  let table := fun (h : Nat) (s : State) => writeTables h (fun w => w.checkpoint h) s
  let waits := code == Code.ok && (s.defers 0 || s.defers 1)
  if waits && decide (s.welRun = some 1 ∨ s.welRun = some 2) then .next s
  else match s.welRun with
  | some 1 => .next (endWelCmd code (if s.wellUp && code == Code.ok then table 1 (table 0 s) else s))
  | some 2 => .next (endWelCmd code (if code = .ok then shutWell s else s))
  | some 3 => .next (endWelCmd code s)
  | _ => .next s

/-- SANITIZE_ERASE_DONE (R264, R280): the blocks that held data before the SANITIZE are erased, once the reads that
started from them have completed. -/
def execSanitizeEraseDone (s : State) : Outcome :=
  let busy := fun (w : Well) => w.reads.any fun r => w.sanit.any fun n => w.inStripe n r.pca
  if !s.flag .welState 0 4 || busy (s.well 0) || busy (s.well 1) then .next s
  else
    let clear := fun (s : State) (h : Nat) => reclaimed h (s.modWell h fun w => w.sanit.foldl Well.erase w)
    .next ((clear (clear s 0) 1).setFlag .welState 0 4 false)

end Sys2Proof.Machine
end

