-- ==== Sys2Proof/Machine/FrontEnd.lean ====
section
/-!
DEFINITION. The front end (R327 to R354): doorbells, fetchers, launches from their entry to their record, and
the tasks of class 0x09.
-/

namespace Sys2Proof.Machine

namespace State

/-! ### Reads and writes by a fetcher -/

/-- Bytes that a fetcher's stream reads at a VA, and whether they are poisoned (R328, R341). The bytes of
another node's memory are free values (log entry 1). -/
def engineRead (s : State) (st : Stream) (ctx va n : Nat) : Except Code (List Byte × Bool) × State :=
  match s.xlateEngine st ctx va false with
  | (.error c, s) => (.error c, s)
  | (.ok l, s) =>
    match s.place l va with
    | .bad => (.error .range, s)
    | .cis a => if s.mayTouch ctx a n then (.ok (s.cisRead a n), s) else (.error .protection, s.protEvt)
    | .host h =>
      if !s.hostOpen ctx then (.error .timeout, s)
      else let (bs, s) := s.hostRead ctx h n; (.ok (bs, false), s)
    | .remote node _ =>
      if (s.route node 0).isNone then (.error .link, s)
      else
        let (k, s) := s.draw
        (.ok ((List.range n).map fun i => (Config.freeAt k i).setWidth 8, false), s)

/-- A write by a fetcher's stream; none when it cannot be made. -/
def engineWrite (s : State) (st : Stream) (ctx va : Nat) (bs : List Byte) (poison : Bool := false) : Option State :=
  match s.xlateEngine st ctx va true with
  | (.error _, _) => none
  | (.ok l, s) =>
    match s.place l va with
    | .bad => none
    | .cis a => if s.mayTouch ctx a bs.length then some (s.cisWrite a bs poison) else none
    | .host h =>
      if s.egressOk ctx 0 h bs.length && s.leaves (s.homePort ctx) ctx then some (s.hostSend (s.homePort ctx) ctx h bs poison)
      else none
    | .remote node a =>
      if !s.egressOk ctx 1 (node * 2 ^ 44 + a) bs.length then none
      else match s.request .other ctx va (State.writePkt node a bs) with
        | .sent _ s => some s
        | _ => none

/-! ### Clusters and spans -/

/-- A cluster that takes no part (R360): RETIRED, or PENDING_SPARE with FAILED set. -/
def skipped (s : State) (n : Nat) : Bool :=
  s.fld .glbClmap n 9 8 == 3 || (s.fld .glbClmap n 9 8 == 2 && s.flag .glbClmap n 10)

/-- Cores of a cluster that are not fenced. -/
def clCores (s : State) (n : Nat) : List Nat :=
  ((List.range 16).filter fun c => !s.flag .glbClmap n (16 + c)).map (s.physCore n)

/-- The launch that holds a cluster. -/
def clLaunch (s : State) (n : Nat) : Option Nat := (List.range 16).findSome? fun c => (s.core (s.physCore n c)).launch

/-- Clusters of a launch's span that are not skipped. -/
def spanOf (s : State) (x : Launch) : List Nat :=
  ((List.range x.clusters).map (· + x.first)).filter fun n => !s.skipped n

/-- Cores of a launch in ascending logical cluster and core (R342). -/
def spanCores (s : State) (x : Launch) : List Nat := (s.spanOf x).flatMap s.clCores

/-- Two launches share a cluster of their spans. -/
def spansMeet (a b : Nat × Nat) : Bool := decide (a.1 < b.1 + b.2) && decide (b.1 < a.1 + a.2)

/-- A cluster executes instructions (R441). -/
def inRun (s : State) (n : Nat) : Bool := s.fld .kpcClst n 1 0 == 0 && !s.flag .kpcClst n 2

/-- A wake of a cluster begins; one that comes during an entry waits for its end (R443). -/
def wake (s : State) (n : Nat) : State :=
  if s.inRun n then s
  else if s.flag .kpcClst n 2 then
    (if s.moving.get? n = some 0 then s else { s with wakeWait := setInsert s.wakeWait n })
  else { s.setFlag .kpcClst n 2 true with moving := s.moving.set n 0 }

/-! ### Doorbells -/

/-- A write of a queue's doorbell (R330, R380): a VF that does not own the queue's context is turned away. -/
def doorbell (s : State) (src : Src) (q : Nat) (v : Word) (size : Nat) (bad : Bool) (eff : State → State) : State :=
  let foreign := match src with
    | .host _ fn => fn.val != 0 && fn.val != s.ctxFn (s.qCtx q)
    | _ => false
  let code := if foreign then .protection else firstCode [
    (decide (2 ^ 16 ≤ v.toNat), .badField),
    (!s.qEn q, .state),
    (decide (size ≤ v.toNat) || bad, .range)]
  if !s.arrives src then s else if code = .ok then (eff s).recordFe q .ok else s.recordFe q code

/-! ### Fetch -/

/-- A queue whose submission ring cannot be read stalls (R334): WHERE of the entry is the ring's address. -/
def stallQueue (s : State) (q : Nat) (code : Code) : State :=
  let s := s.modQueue q fun x => { x with fetch := .stalled }
  ({ s with fetched := s.fetched.erase q }.raise 0x0A (s.feInst q) code 0x01 (some (s.qCtx q)) 0 (s.addr .feQSqHi q) q).spillMsg

/-- VA of an entry of the submission ring. -/
def entryVa (s : State) (q idx : Nat) : Nat := s.addr .feQSqHi q + 64 * idx

/-- Entries fetched and not taken. -/
def fetchedOf (s : State) (q : Nat) : List Entry := s.fetched.getD q []

/-- Published entries of a queue that are not taken. -/
def published (s : State) (q : Nat) : Nat := ((s.queue q).sqTail + s.sqSize q - (s.queue q).sqHead) % s.sqSize q

/-- Entries that the next read of a fetcher takes: consecutive in the ring, and at most 8 held (R333, R353). -/
def fetchNext (s : State) (q : Nat) : Nat × Nat :=
  let have_ := (s.fetchedOf q).length
  let idx := ((s.queue q).sqHead + have_) % s.sqSize q
  (idx, min (min (8 - have_) (s.published q - have_)) (s.sqSize q - idx))

/-- Entries read into a fetcher. -/
def hold (s : State) (q idx : Nat) (bs : List Byte) (bad : Nat → Bool) (n : Nat) : State :=
  { s with fetched := s.fetched.set q (s.fetchedOf q ++ (List.range n).map fun i =>
      ⟨q, idx + i, (bs.drop (64 * i)).take 64, bad i⟩) }

/-- The owner takes the next entry of a queue (R333): SQ_HEAD advances, and with nothing left the queue goes
IDLE (R332). None while nothing is fetched, the queue takes no entry, or 16 records wait (R345). -/
def takeEntry (s : State) (q : Nat) : Option (Entry × State) :=
  match s.fetchedOf q with
  | [] => none
  | e :: rest =>
    if !s.serving ∨ (s.queue q).fetch ≠ .active ∨ 16 ≤ (s.queue q).buf.length then none
    else
      let head := (e.idx + 1) % s.sqSize q
      let s := { s with fetched := if rest.isEmpty then s.fetched.erase q else s.fetched.set q rest }
      some (e, s.modQueue q fun x => { x with
        sqHead := head
        running := x.running + 1
        fetch := if head = x.sqTail then .idle else .active })

/-! ### LAUNCH entries (R335 to R341) -/

/-- Waiting launches that a dispatcher holds (R361). -/
def heldBy (s : State) (cl : Nat) : Nat :=
  (s.launches.filter fun kv => kv.2.phase == .waiting && kv.2.first == cl).length

/-- LAUNCH queues of a dispatcher with an entry to take, in turn (R361). -/
def nextLaunchQueue (s : State) (cl : Nat) : Option Nat :=
  let qs := (s.fetched.map (·.1)).filter fun q => s.qKind q == 0 && s.qOwner q == cl && (s.takeEntry q).isSome
  let last := s.turn.getD cl 4096
  match qs.find? (last < ·) with
  | some q => some q
  | none => qs.head?

/-- Checks of an entry's own fields (R341). -/
def entryCode (cl : Nat) (bs : List Byte) : Code :=
  let clusters := fieldAt bs 2 1
  let image := fieldAt bs 8 8
  let param := fieldAt bs 16 8
  firstCode [
    (decide (fieldAt bs 0 1 ≠ 1), .badOpcode),
    (decide (2 ≤ fieldAt bs 1 1) || decide (8 ≤ fieldAt bs 3 1) || decide (2 ^ 57 ≤ image) || decide (2 ^ 57 ≤ param)
      || nonzeroAt bs 24 40, .badField),
    (decide (image % 256 ≠ 0) || decide (param % 64 ≠ 0), .align),
    (decide (clusters = 0) || decide (36 < cl % 36 + clusters), .range)]

/-- A window of the list of an image (R337). -/
def imageWindow (h : List Byte) (w : Nat) : Nat := fieldAt h (128 + 8 * w) 8

/-- Checks of an image header that was read (R337, R341). -/
def imageChecks (s : State) (h : List Byte) : List (Bool × Code) :=
  let nt := fieldAt h 18 1
  let nw := fieldAt h 19 1
  let tids := (List.range (min nt 32)).map fun i => fieldAt h (64 + 2 * i) 2
  let wins := (List.range (min nw 4)).map (imageWindow h)
  [(decide (fieldAt h 0 2 ≠ 1), .version),
   (decide (2 ≤ fieldAt h 2 1) || decide (16 ≤ fieldAt h 3 1) || nonzeroAt h 6 2 || nonzeroAt h 20 44
     || tids.any (fun t => decide (1024 ≤ t)) || wins.any (fun w => decide (2 ^ 29 ≤ w)) || nonzeroAt h 160 96, .badField),
   (decide (fieldAt h 8 4 % 8 ≠ 0) || decide (fieldAt h 12 4 % 8 ≠ 0), .align),
   (decide (fieldAt h 8 4 = 0) || decide (fieldAt h 8 4 ≤ fieldAt h 12 4) || decide (fieldAt h 4 2 = 0)
     || decide (576 < fieldAt h 4 2) || decide (256 < fieldAt h 16 2) || decide (32 < nt) || decide (4 < nw)
     || wins.any (fun w => decide (256 < bitsOf w 7 0 + bitsOf w 15 8 + 1)), .range),
   (tids.any (fun t => (s.table (t % 1024)).isNone), .state)]

/-- Checks of a parameter block header (R339, R341). -/
def paramChecks (slots : Nat) (h : List Byte) : List (Bool × Code) :=
  [(nonzeroAt h 2 30, .badField),
   (decide (fieldAt h 0 2 = 0) || decide (256 < fieldAt h 0 2) || decide (fieldAt h 0 2 < slots), .range)]

/-- What a header read adds to the checks; the fields of a header that could not be read, or that is poisoned,
are not checked. -/
def headCode : Except Code (List Byte × Bool) → (List Byte → List (Bool × Code)) → List (Bool × Code)
  | .error c, _ => [(true, c)]
  | .ok (_, true), _ => [(true, .poison)]
  | .ok (bs, false), f => f bs

/-- The bytes of a header. -/
def headBytes : Except Code (List Byte × Bool) → List Byte
  | .ok (bs, _) => bs
  | .error _ => []

/-- A launch as its entry and headers give it, waiting at its dispatcher. -/
def newLaunch (s : State) (q cl ctx : Nat) (e : Entry) (h ph : List Byte) : Launch where
  seq := 0
  phase := .waiting
  queue := q
  sqHead := (s.queue q).sqHead
  tag := fieldAt e.bytes 4 4
  irqNow := fieldAt e.bytes 1 1 == 1
  first := cl
  clusters := fieldAt e.bytes 2 1
  cls := fieldAt e.bytes 3 1
  ctx := ctx
  image := fieldAt e.bytes 8 8
  param := fieldAt e.bytes 16 8
  restartable := fieldAt h 2 1 == 1
  retries := fieldAt h 3 1
  minCores := fieldAt h 4 2
  codeSize := fieldAt h 8 4
  entry := fieldAt h 12 4
  count := fieldAt ph 0 2
  ind := fieldAt ph 32 32
  tids := (List.range (fieldAt h 18 1)).map fun i => fieldAt h (64 + 2 * i) 2
  windows := (List.range (fieldAt h 19 1)).map fun w => BitVec.ofNat 64 (imageWindow h w)
  cores := []
  pins := []
  code := .ok
  unit := 0xFFF
  info := 0
  tries := 0
  since := s.ticks
  started := s.ticks
  startedNow := s.ticks
  asked := false
  askedSince := 0
  reserved := false
  barriers := []
  passed := []
  tasks := []
  halts := []
  issued := []

/-- A dispatcher takes a LAUNCH entry and checks it (R341). -/
def takeLaunch (s : State) (q cl : Nat) (e : Entry) : State :=
  let ctx := s.qCtx q
  let st := s.fetcherOf q
  let s := s.bump64 .jobLaunchedLo .jobLaunchedHi ctx 1
  let reject := fun (s : State) (c : Code) => s.post q
    (plainRec q (fieldAt e.bytes 4 4) (s.queue q).sqHead c (fieldAt e.bytes 1 1 % 2 == 1))
  let c0 := entryCode cl e.bytes
  if c0 ≠ .ok then reject s c0
  else if !s.ctxOn ctx then reject s .state
  else
    let (hr, s) := s.engineRead st ctx (fieldAt e.bytes 8 8) 256
    let (pr, s) := s.engineRead st ctx (fieldAt e.bytes 16 8) 64
    let h := headBytes hr
    let x := s.newLaunch q cl ctx e h (headBytes pr)
    let few := match hr with
      | .ok (_, false) => decide ((s.spanCores x).length < x.minCores)
      | _ => false
    let code := firstCode (headCode hr s.imageChecks ++ headCode pr (paramChecks (fieldAt h 16 2)) ++
      [(few, .noResource), (e.poison, .poison)])
    if code ≠ .ok then reject s code
    else { s with launches := s.launches.set s.nextLaunch x, nextLaunch := s.nextLaunch + 1 }

/-! ### Starting a launch (R342, R360, R361) -/

/-- A launch has waited longer than another (R361). -/
def longer (a b : Nat × Launch) : Bool :=
  decide (a.2.since < b.2.since) || (a.2.since == b.2.since && decide (a.1 < b.1))

/-- Every cluster that takes part serves the class, is in no make-way window and holds no launch (R360), and
no other launch reserves a cluster of the span (R361); of two that reserve one cluster, the one that has waited longer does
(log entry 73). -/
def spanFree (s : State) (l : Nat) (x : Launch) : Bool :=
  s.serving && (s.spanOf x).all (fun n => !s.inReset 2 n && s.fld .schCl n 2 0 == x.cls && !s.wayWin.any (·.2 == n) && (s.clLaunch n).isNone) &&
    !s.launches.any fun kv => kv.1 != l && kv.2.reserved && (!x.reserved || longer kv (l, x)) &&
      spansMeet (kv.2.first, kv.2.clusters) (x.first, x.clusters)

/-- A launch waits to start or to resume. -/
def waits (x : Launch) : Bool := x.phase == .waiting || x.phase == .suspended

/-- The launch may start or resume: it meets R360, and no launch that has waited longer and could start needs a
cluster of it (R361). -/
def mayStart (s : State) (l : Nat) (x : Launch) : Bool :=
  s.spanFree l x && !s.launches.any fun kv =>
    kv.1 != l && waits kv.2 && longer kv (l, x) &&
      spansMeet (kv.2.first, kv.2.clusters) (x.first, x.clusters) && s.spanFree kv.1 kv.2

/-- Parked clusters of a span; a launch that finds one wakes it (R359). -/
def parked (s : State) (x : Launch) : List Nat := (s.spanOf x).filter fun n => !s.inRun n

/-- The remote windows of a launch open on a core with their counters at zero (R168). -/
def openWindows (s : State) (p : Nat) (ws : List (BitVec 64)) : State :=
  ws.zipIdx.foldl (fun s (w, i) =>
    (s.setReg .dmaWinCfg (4 * p + i) (BitVec.ofNat 32 (bitsOf w.toNat 28 0 + 2 ^ 31))).setReg64 .dmaWinLo .dmaWinHi (4 * p + i) 0) s

/-- A core at launch start (R67, R101, R342): its generator and the numbering of its jobs go on. -/
def startCore (l : Nat) (x : Launch) (n : Nat) (s : State) (pi : Nat × Nat) : State :=
  let (p, i) := pi
  let old := s.core p
  let c := { Core.reset with
    run := .running
    launch := some l
    ctx := x.ctx
    pc := BitVec.ofNat 57 (x.image + 256 + x.entry)
    tlb := old.tlb
    nextJob := old.nextJob
    srSeed := old.srSeed
    srPos := old.srPos
    srec := old.srec
    waddr := old.waddr }
  let c := ((c.setS 1 (BitVec.ofNat 64 i)).setS 2 (BitVec.ofNat 64 n)).setS 3 (BitVec.ofNat 64 x.ctx)
  (((s.setCore p c).setReg .numSticky p 0).setReg .numSatTotal p 0).openWindows p x.windows

/-- A launch starts, or starts again (R342). -/
def startLaunch (s : State) (l : Nat) (x : Launch) : State :=
  let cores := s.spanCores x
  let pins := x.tids.filterMap fun t => (s.table t).map fun tb => (t, tb.cur)
  let s := { s with seq := s.seq + 1 }
  let s := s.setLaunch l { x with
    seq := s.seq
    phase := .running
    cores := cores
    pins := pins
    code := .ok
    unit := 0xFFF
    info := 0
    tries := x.tries + 1
    started := if x.tries = 0 then s.ticks else x.started
    startedNow := s.ticks
    asked := false
    reserved := false
    barriers := []
    passed := []
    tasks := [] }
  cores.zipIdx.foldl (startCore l x cores.length) s

/-- A launch leaves with its record (R343, R344). -/
def dropLaunch (s : State) (l : Nat) (x : Launch) (r : Rec) : State :=
  { s with launches := s.launches.erase l }.post x.queue r

/-- The record of a launch that has run. -/
def endRec (s : State) (x : Launch) (code : Code) : Rec :=
  ⟨x.tag, x.queue, x.sqHead, x.seq, code, x.tries, x.unit, (s.ticks - x.started) / 50, x.info, x.irqNow⟩

/-! ### Ending a launch (R343, R350, R354) -/

/-- The core that a transaction or a host write serves. -/
def ownerCore : Owner → Option Nat
  | .store c => some c
  | .load c => some c
  | .acq c => some c
  | .dma c _ _ => some c
  | .part c _ _ => some c
  | .update c _ => some c
  | _ => none

/-- An add that a core has sent to an engine of this node and that is not acknowledged (R191). -/
def addOf (p : Nat) (a : Add) : Bool :=
  match a.sender with
  | .core c _ _ => c == p
  | _ => false

/-- Nothing that a core began is unfinished, adds at the engines of this node included (R283, R343). -/
def coreDone (s : State) (p : Nat) : Bool :=
  (s.core p).jobs.isEmpty && (s.core p).lkWaits.isEmpty && !(s.adds.any fun kv => kv.2.any (addOf p)) && !(s.txns.any fun kv => ownerCore kv.2.owner == some p) &&
    !(s.hostWaits.any fun w => ownerCore w.owner == some p)

/-- A launch can end: its cores have all completed END, or it has failed, and nothing is unfinished. -/
def launchOver (s : State) (l : Nat) (x : Launch) : Bool :=
  (x.phase == .ending || (x.phase == .running && x.cores.all fun p => (s.core p).ended)) &&
    x.cores.all fun p => (s.core p).launch != some l || s.coreDone p

/-- A core of a launch that is over: its windows close (R168), and it is free unless the launch runs again. -/
def freeCore (l : Nat) (keep : Bool) (s : State) (p : Nat) : State :=
  if (s.core p).launch ≠ some l then s
  else
    let s := (List.range 4).foldl (fun s w => s.setFlag .dmaWinCfg (4 * p + w) 31 false) s
    s.modCore p fun c => { c with launch := if keep then some l else none, ended := false }

/-- A cluster whose launch has ended takes the class that it was to take (R365). -/
def takeClasses (s : State) : State :=
  s.reassign.foldl (fun s kv =>
    if (s.clLaunch kv.1).isSome then s
    else { s.setFld .schCl kv.1 2 0 kv.2 with reassign := s.reassign.erase kv.1 }) s

/-- Records of the tasks that a launch took and did not post (R354), naming the core that faulted first (R344). -/
def postTasks (s : State) (x : Launch) : State :=
  let code := if x.code = .ok then .aborted else x.code
  x.tasks.foldl (fun s (q, _, tag, head) =>
    s.post q ⟨tag, q, head, x.seq, code, x.tries, x.unit, (s.ticks - x.started) / 50, 0, false⟩) s

/-- A launch is over: its tasks end, its pins and windows go, and it starts again or leaves its record. -/
def closeLaunch (s : State) (l : Nat) (x : Launch) : State :=
  let again := x.code != .ok && x.restartable && decide (x.tries < x.retries + 1)
  let s := x.cores.foldl (freeCore l again) (s.postTasks x)
  if again then s.setLaunch l { x with phase := .restart, pins := [], tasks := [], barriers := [], passed := [], asked := false, reserved := false }
  else s.takeClasses.dropLaunch l x (s.endRec x x.code)

/-! ### Tasks (R352 to R354) -/

/-- Cores that wait in a QWT on a queue, with the order in which they began. -/
def qwtWaiters (s : State) (q : Nat) : List (Nat × Nat) :=
  s.cores.filterMap fun kv => match kv.2.wait with
    | some (.qwt queue _ _ _ order) => if queue = q ∧ kv.2.stop.isNone then some (kv.1, order) else none
    | _ => none

/-- The core that has waited longest. -/
def firstWaiter (l : List (Nat × Nat)) : Option Nat :=
  (l.find? fun x => l.all fun y => decide (x.2 ≤ y.2)).map (·.1)

/-- A core takes a task entry: its launch owes the entry's record (R354). -/
def oweTask (s : State) (p q : Nat) (e : Entry) : State :=
  match s.launchOf p with
  | some (l, x) => s.setLaunch l { x with tasks := x.tasks ++ [(q, e.idx, fieldAt e.bytes 0 4, (s.queue q).sqHead)] }
  | none => s

/-- The handle of a task entry (R352). -/
def taskHandle (q : Nat) (e : Entry) : DWord := BitVec.ofNat 64 (q + 2 ^ 12 * e.idx)

/-- Checks of QWT (R353). -/
def qwtCode (s : State) (p q off : Nat) : Code :=
  let inSpan := match s.launchOf p with
    | some (_, x) => (s.spanOf x).contains (s.qOwner q)
    | none => false
  firstCode [
    (decide (off % 64 ≠ 0), .align),
    (decide (4096 ≤ q) || decide (2 ^ 20 < off + 64), .range),
    (decide (q < 4096) && s.qCtx q != (s.core p).ctx, .protection),
    (decide (q < 4096) && (s.qKind q != 1 || !s.qEn q || !inSpan), .state)]

/-- A QPT's handle names an entry that the launch took and has not posted (R354). -/
def taskOf (s : State) (p h : Nat) : Option (Nat × Nat × Nat × Nat) :=
  match s.launchOf p with
  | some (_, x) => if h < 2 ^ 28 then x.tasks.find? fun t => t.1 == h % 4096 && t.2.1 == h / 4096 else none
  | none => none

/-- The record of a task is written, and the launch owes it no more. -/
def postTask (s : State) (p q idx status info : Nat) (irq : Bool) : State :=
  match s.launchOf p with
  | none => s
  | some (l, x) =>
    match x.tasks.find? fun t => t.1 == q && t.2.1 == idx with
    | none => s
    | some (_, _, tag, head) =>
      let s := s.setLaunch l { x with tasks := x.tasks.filter fun t => !(t.1 == q && t.2.1 == idx) }
      s.post q ⟨tag, q, head, x.seq, (Code.ofByte status).getD .ok, x.tries, 0xFFF, (s.ticks - x.started) / 50, info, irq⟩

end State

open State

/-! ### QWT, QPT and releases -/

/-- QWT (R353): it takes an entry that the dispatcher holds when no core waits before it, and otherwise waits. -/
def execQwt (c : CoreId) (w : IWord) (s : State) : Outcome :=
  issue 0x09 0x00 w none (bitsOf w.imm.toNat 15 0 == 0) (.p 7 :: sRegs [w.dst, w.src1, w.src2]) c.val
    (fun s =>
      let k := s.core c.val
      let q := (k.getS w.src1).toNat
      let off := (k.getS w.src2).toNat
      let code := s.qwtCode c.val q off
      if code ≠ .ok then .bad s code
      else match (if (s.qwtWaiters q).isEmpty then s.takeEntry q else none) with
        | some (e, s) =>
          let s := s.oweTask c.val q e
          if e.poison then .bad s .poison (some (s.entryVa q e.idx))
          else .ok (((s.padWrite c.val off e.bytes).modCore c.val fun k => k.setS w.dst (taskHandle q e)).returned c.val .ok)
        | none =>
          if s.askedWay c.val then .keep (s.stopCore c.val .qwt)
          else
            let s' := { s with nextWatch := s.nextWatch + 1 }
            .keep (s'.beginWait c.val (.qwt q off (bitsOf w.imm.toNat 31 16) w.dst.toNat s.nextWatch))) s

/-- QWT_WAKE (R353): an entry goes to the core that has waited longest. -/
def execQwtWake (q : Fin 4096) (s : State) : Outcome :=
  match firstWaiter (s.qwtWaiters q.val) with
  | none => .next s
  | some p =>
    match (s.core p).wait, s.takeEntry q.val with
    | some (.qwt _ off _ dst _), some (e, s) =>
      let s := s.oweTask p q.val e
      if e.poison then .next (s.failWait p 0x09 0x00 .poison (some (s.entryVa q.val e.idx)))
      else .next ((((s.padWrite p off e.bytes).modCore p fun k =>
        k.setS (BitVec.ofNat 6 dst) (taskHandle q.val e)).returned p .ok).endWait p)
    | _, _ => .next s

/-- QPT (R354): rejected before it waits; a release, then the record. -/
def execQpt (c : CoreId) (w : IWord) (s : State) : Outcome :=
  issue 0x09 0x01 w none (w.dst == 0 && decide (w.imm.toNat < 2)) (sRegs [w.src1, w.src2]) c.val
    (fun s =>
      let k := s.core c.val
      let v := (k.getS w.src2).toNat
      let status := v % 256
      match s.taskOf c.val (k.getS w.src1).toNat, Code.ofByte status with
      | _, none => .bad s .range
      | none, _ => .bad s .state
      | some (q, idx, _, _), some _ =>
        let info := v / 2 ^ 32
        if s.releaseReady c.val then .ok (s.postTask c.val q idx status info (w.imm.getLsbD 0))
        else if s.askedWay c.val && s.allHalted c.val (s.releaseJobs c.val) then .held (s.releaseJobs c.val)
        else .keep (s.beginWait c.val (.release (.qpt q idx status info (w.imm.getLsbD 0))))) s

/-- RELEASE_PERFORM (R296): every earlier access is complete, and the release performs its write. -/
def execReleasePerform (c : CoreId) (s : State) : Outcome :=
  let p := c.val
  if !s.releaseReady p then .next s
  else
    let go := fun (func : Nat) (r : Res) => match r with
      | .ok s => Host.Outcome.next (s.endWait p)
      | .bad s e a => .next (s.failWait p 0x08 func e a)
      | _ => .next s
    match (s.core p).wait with
    | some (.release (.sig va v)) => go 0x00 (signalBody p va false v s)
    | some (.release (.rel va v)) => go 0x02 (signalBody p va true v s)
    | some (.release (.qpt q idx status info irq)) => .next ((s.postTask p q idx status info irq).endWait p)
    | _ => .next s

/-! ### Doorbells and fetch -/

/-- SQ_DOORBELL (R330, R332). -/
def execSqDoorbell (src : Src) (q : Fin 4096) (v : Word) (s : State) : Outcome :=
  let n := s.sqSize q.val
  let x := s.queue q.val
  let less := decide ((v.toNat + n - x.sqHead) % n < (x.sqTail + n - x.sqHead) % n)
  .next (s.doorbell src q.val v n less fun s => s.modQueue q.val fun x => { x with
    sqTail := v.toNat
    fetch := if x.fetch = .idle ∧ v.toNat ≠ x.sqHead then .active else x.fetch })

/-- ENTRY_FETCH (R333, R334). Both host ports down leaves the read waiting (R378). -/
def execEntryFetch (q : Fin 4096) (s : State) : Outcome :=
  if !s.serving || !s.qEn q.val || (s.queue q.val).fetch ≠ .active then .next s
  else if s.published q.val = 0 then .next (s.modQueue q.val fun x => { x with fetch := .idle })
  else
    let (idx, n) := s.fetchNext q.val
    let va := s.entryVa q.val idx
    let ctx := s.qCtx q.val
    if n = 0 then .next s
    else match s.xlateEngine (s.fetcherOf q.val) ctx va false with
    | (.error _, s) => .next (s.stallQueue q.val .notMapped)
    | (.ok l, s1) =>
      match s1.place l va with
      | .cis a =>
        if !s1.mayTouch ctx a (64 * n) then .next (s1.protEvt.stallQueue q.val .notMapped)
        else .next (s1.hold q.val idx (s1.cisRead a (64 * n)).1 (fun i => s1.cisBad (a + 64 * i) 64) n)
      | .host h =>
        if !s1.hostOpen ctx then .next s
        else
          let (bs, s1) := s1.hostRead ctx h (64 * n)
          .next (s1.hold q.val idx bs (fun _ => false) n)
      | _ => .next (s1.stallQueue q.val .notMapped)

/-! ### Launches -/

/-- IRQ_TIMER (R347). -/
def execIrqTimer (q : Fin 4096) (s : State) : Outcome :=
  if s.flag .feQIrq q.val 11 && decide (s.fld .feQIrq q.val 31 20 ≠ 0) && decide ((s.queue q.val).unsig ≠ 0) then
    .next (s.signalQueue q.val)
  else .next s

/-- LAUNCH_START (R342, R359 to R361): a launch that may start wakes the parked clusters of its span, or starts;
one left with too few cores ends (R360). -/
def execLaunchStart (l : Nat) (s : State) : Outcome :=
  match s.launch l with
  | none => .next s
  | some x =>
    if x.phase ≠ .waiting || !s.mayStart l x then .next s
    else if (s.spanCores x).length < x.minCores then
      .next (s.dropLaunch l x { plainRec x.queue x.tag x.sqHead .noResource with irqNow := x.irqNow })
    else match s.parked x with
      | [] => .next (s.startLaunch l x)
      | ns => .next (ns.foldl State.wake s)

/-- LAUNCH_RESTART (R350, R373): a new attempt, on clusters that hold no other launch. -/
def execLaunchRestart (l : Nat) (s : State) : Outcome :=
  match s.launch l with
  | none => .next s
  | some x =>
    if !s.serving || x.phase ≠ .restart || (s.spanOf x).any (fun n => (s.clLaunch n).any (· != l)) then .next s
    else if (s.spanCores x).length < x.minCores then
      .next ((x.cores.foldl (freeCore l false) s).takeClasses.dropLaunch l x (s.endRec { x with unit := 0xFFF, info := 0 } .noResource))
    else match s.parked x with
      | [] =>
        let s := x.cores.foldl (freeCore l false) s
        .next ((s.bump64 .jobRestartedLo .jobRestartedHi x.ctx 1).startLaunch l x)
      | ns => .next (ns.foldl State.wake s)

end Sys2Proof.Machine
end

