-- ==== Sys2Proof/Machine/Composer.lean ====
section
/-!
DEFINITION. The batch composers (R370 to R372), and the events of queues and launches that free what a composer
waits for.
-/

namespace Sys2Proof.Machine

namespace State

/-- Sizes of a composer's rings: chunks, steps. -/
def chSize (s : State) (k : Nat) : Nat := 2 ^ s.fld .cmpCtl k 17 13
def stSize (s : State) (k : Nat) : Nat := 2 ^ s.fld .cmpCtl k 22 18

/-- Items that wait in a ring of `n`, from head to tail. -/
def ringItems (head tail n : Nat) : List Nat := (List.range ((tail + n - head) % n)).map fun i => (head + i) % n

/-- Ring indices of the waiting chunks and steps. -/
def chunksOf (s : State) (k : Nat) : List Nat := ringItems (s.fld .cmpHeads k 15 0) (s.fld .cmpTails k 15 0) (s.chSize k)
def stepsOf (s : State) (k : Nat) : List Nat := ringItems (s.fld .cmpHeads k 31 16) (s.fld .cmpTails k 31 16) (s.stSize k)

end State

/-- An item of a batch (R370, R372): its 64 bytes, a chunk or a step, and whether it is poisoned. -/
structure Item where
  bytes : List Byte
  chunk : Bool
  bad : Bool
deriving DecidableEq, Repr

/-- ROWS of a well-formed item; none for any other (R370). -/
def Item.rows (i : Item) : Option Nat :=
  let r := fieldAt i.bytes 4 2
  if nonzeroAt i.bytes 6 2 then none
  else if i.chunk then (if 1 ≤ r ∧ r ≤ 512 then some r else none)
  else if r = 1 then some 1 else none

/-- An item as the list of its batch shows it (R372). -/
def Item.listed (i : Item) : List Byte :=
  i.bytes.take 6 ++ [BitVec.ofNat 8 (if i.rows.isSome then 0 else Code.range.toNat), BitVec.ofNat 8 (bit i.chunk)] ++ i.bytes.drop 8

/-- Rows of items. -/
def itemRows (l : List Item) : Nat := (l.map fun i => i.rows.getD 0).sum

/-- Chunks that follow the steps of a batch: in ring order, up to the first that would pass ROWS_MAX (R371). -/
def takeChunks (max : Nat) : List Item → List Item → List Item
  | got, [] => got
  | got, i :: rest =>
    if 255 ≤ got.length ∨ max < itemRows got + i.rows.getD 0 then got else takeChunks max (got ++ [i]) rest

namespace State

/-- Read the items of a ring; none when one cannot be read (log entry 29). -/
def readItems (s : State) (st : Stream) (ctx base : Nat) (chunk : Bool) : List Nat → Option (List Item × State)
  | [] => some ([], s)
  | i :: rest =>
    match s.engineRead st ctx (base + 64 * i) 64 with
    | (.ok (bs, bad), s) => (s.readItems st ctx base chunk rest).map fun (l, s) => (⟨bs, chunk, bad⟩ :: l, s)
    | (.error _, _) => none

/-- A batch buffer of a composer that no batch uses. -/
def freeBuf (s : State) (k : Nat) : Option Nat :=
  (List.range (2 ^ s.fld .cmpCtl k 26 23)).find? fun i => !(s.batches.getD k []).any (·.buf == i)

/-- The items that a batch would take (R371). -/
def batchOf (s : State) (k : Nat) : Option (List Item × State) :=
  let q := s.fld .cmpCtl k 12 1
  let st := s.fetcherOf q
  let ctx := s.qCtx q
  match s.readItems st ctx (s.addr .cmpStRingHi k) false ((s.stepsOf k).take (min 255 (s.fld .cmpSteps k 15 0))) with
  | none => none
  | some (steps, s) =>
    match s.readItems st ctx (s.addr .cmpChRingHi k) true ((s.chunksOf k).take 255) with
    | none => none
    | some (chunks, s) => some (takeChunks (s.fld .cmpFill k 31 16) steps chunks, s)

/-- A write of consecutive items. -/
def writeItems (st : Stream) (ctx : Nat) : Nat → List Item → State → Option State
  | _, [], s => some s
  | va, i :: rest, s => (s.engineWrite st ctx va i.listed i.bad).bind (writeItems st ctx (va + 64) rest)

/-- Bytes of a parameter slot that the composer overwrites. -/
def batchSlots (items : List Item) (listVa : Nat) : List Byte :=
  let chunks := (items.filter (·.chunk)).length
  leBytes 8 (items.length - chunks) ++ leBytes 8 chunks ++ leBytes 8 (itemRows items) ++ leBytes 8 listVa

/-- The batch's LAUNCH entry (R335, R372). -/
def batchEntryBytes (s : State) (k paramVa : Nat) : List Byte :=
  [1, 0, BitVec.ofNat 8 (s.fld .cmpLaunch k 5 0), BitVec.ofNat 8 (s.fld .cmpLaunch k 8 6)] ++
    leBytes 4 (s.reg .cmpBatches k).toNat ++ leBytes 8 (s.addr .cmpImageHi k) ++ leBytes 8 paramVa ++ leBytes 40 0

/-- Fill a buffer and emit the batch (R372); none when something cannot be read or written, or the output
queue's ring is full. -/
def emitBatch (s : State) (k buf : Nat) (items : List Item) : Option State := do
  let q := s.fld .cmpCtl k 12 1
  let st := s.fetcherOf q
  let ctx := s.qCtx q
  let at_ := s.addr .cmpBatchHi k + 32768 * buf
  let idx := (s.queue q).sqTail
  let tail := (idx + 1) % s.sqSize q
  if !s.qEn q || tail == (s.queue q).sqHead then none
  let (head, s) ← match s.engineRead st ctx (s.addr .cmpTemplateHi k) 64 with
    | (.ok (bs, bad), s) => some ((bs, bad), s)
    | _ => none
  let n := 8 * min 256 (fieldAt head.1 0 2)
  let (slots, s) ← match s.engineRead st ctx (s.addr .cmpTemplateHi k + 64) n with
    | (.ok (bs, bad), s) => some ((bs, bad), s)
    | _ => none
  let s ← s.engineWrite st ctx at_ (head.1 ++ slots.1) (head.2 || slots.2)
  let s ← s.engineWrite st ctx (at_ + 64) (batchSlots items (at_ + 4096))
  let s ← writeItems st ctx (at_ + 4096) items s
  let s ← s.engineWrite st ctx (s.entryVa q idx) (s.batchEntryBytes k at_)
  let chunks := (items.filter (·.chunk)).length
  let badItems := (items.filter fun i => i.rows.isNone).length
  let s := s.setFld .cmpHeads k 15 0 ((s.fld .cmpHeads k 15 0 + chunks) % s.chSize k)
  let s := s.setFld .cmpHeads k 31 16 ((s.fld .cmpHeads k 31 16 + (items.length - chunks)) % s.stSize k)
  let s := s.setFld .cmpBad k 15 0 (satAdd 0xFFFF (s.fld .cmpBad k 15 0) badItems)
  let tag := (s.reg .cmpBatches k).toNat
  let s := s.setReg .cmpBatches k (BitVec.ofNat 32 (tag + 1))
  let s := s.modQueue q fun x => { x with sqTail := tail, fetch := if x.fetch = .idle then .active else x.fetch }
  some { s with batches := s.batches.set k (s.batches.getD k [] ++ [⟨buf, q, idx, tag⟩]) }

/-- A composer closes a batch when a buffer is free and its rows reach FILL, 255 items wait, or the oldest item
has waited WAIT_US (R371). -/
def closeBatch (s : State) (k : Nat) (waited : Bool) : Option State :=
  let waiting := (s.chunksOf k).length + (s.stepsOf k).length
  if !s.flag .cmpCtl k 0 || waiting == 0 then none
  else match s.freeBuf k, s.batchOf k with
    | some buf, some (items, s) =>
      if decide (s.fld .cmpFill k 15 0 ≤ itemRows items) || decide (255 ≤ waiting) || waited then s.emitBatch k buf items
      else none
    | _, _ => none

/-- Close batches as long as one can be closed. -/
def compose (k : Nat) : Nat → State → State
  | 0, s => s
  | n + 1, s => match s.closeBatch k false with
    | some s => compose k n s
    | none => s

/-- Every composer goes on (R371, R372). -/
def composeAll (s : State) : State := (List.range 16).foldl (fun s k => compose k 256 s) s

/-- A tail is an index of its ring (log entry 30). -/
def tailsCheck (s : State) (k : Nat) (v : Word) : Code :=
  if s.chSize k ≤ v.toNat % 2 ^ 16 ∨ s.stSize k ≤ v.toNat / 2 ^ 16 then .range else .ok

def tailsEff (k : Nat) (v : Word) (s : State) : State := compose k 256 (s.store .cmpTails k v)

/-! ### Queue control -/

/-- Checks of FE_Q_n_CTRL. -/
def qCtrlCheck (s : State) (q : Nat) (v : Word) : Code :=
  let x := s.queue q
  firstCode [
    (v.getLsbD 0 && !(x.fetch == .blocked || x.fetch == .stalled), .state),
    (v.getLsbD 1 && s.qEn q, .state),
    (v.getLsbD 1 && (decide (x.running ≠ 0) || !x.buf.isEmpty), .busy)]

/-- UNBLOCK returns a queue to fetching, and its records to its own ring (R334, R348). -/
def unblockQueue (s : State) (q : Nat) : State := (s.modQueue q fun x => { x with fetch := .active }).flush q

/-- RESET of a queue's indices. -/
def resetQueue (s : State) (q : Nat) : State :=
  { s with fetched := s.fetched.erase q }.modQueue q fun x =>
    { x with sqHead := 0, sqTail := 0, cqHead := 0, cqTail := 0, phase := true, fetch := .idle }

def qCtrlEff (q : Nat) (v : Word) (s : State) : State :=
  let s := if v.getLsbD 0 then s.unblockQueue q else s
  (if v.getLsbD 1 then s.resetQueue q else s).composeAll

/-- A HEAD beyond the spill ring (FE_SPILL). -/
def spillHeadCheck (s : State) (v : Word) : Code := if s.spillSize ≤ v.toNat then .range else .ok

/-- Room in the spill ring: the records that wait for it are spilled (R349). -/
def spillPump (s : State) : State :=
  (s.queues.map (·.1)).foldl (fun s q => if (s.queue q).fetch = .blocked then s.flush q else s) s

def spillHeadEff (v : Word) (s : State) : State := (s.store .feSpillHead 0 v).spillPump.composeAll

end State

open State

/-- COMPOSER_TAIL_WRITE (R370). -/
def execComposerTailWrite (src : Src) (k : Fin 16) (v : Word) (s : State) : Outcome :=
  .next (s.busWrite src .cmpTails k.val v (s.tailsCheck k.val v) (State.tailsEff k.val v))

/-- BATCH_WAIT_EXPIRE (R371). -/
def execBatchWaitExpire (k : Fin 16) (s : State) : Outcome :=
  match s.closeBatch k.val true with
  | some s => .next (compose k.val 256 s)
  | none => .next s

/-- LAUNCH_ENTRY (R341, R361): the dispatcher takes the entry of its next LAUNCH queue. -/
def execLaunchEntry (cl : Fin 144) (s : State) : Outcome :=
  if 8 ≤ s.heldBy cl.val then .next s
  else match s.nextLaunchQueue cl.val with
    | none => .next s
    | some q =>
      match s.takeEntry q with
      | none => .next s
      | some (e, s) => .next ((({ s with turn := s.turn.set cl.val q }).takeLaunch q cl.val e).composeAll)

/-- LAUNCH_END (R343, R350, R354). -/
def execLaunchEnd (l : Nat) (s : State) : Outcome :=
  match s.launch l with
  | none => .next s
  | some x => if s.launchOver l x then .next (s.closeLaunch l x).composeAll else .next s

/-- CQ_DOORBELL (R330, R345). -/
def execCqDoorbell (src : Src) (q : Fin 4096) (v : Word) (s : State) : Outcome :=
  let n := s.cqSize q.val
  let x := s.queue q.val
  let past := decide ((x.cqTail + n - x.cqHead) % n < (v.toNat + n - x.cqHead) % n)
  .next (s.doorbell src q.val v n past fun s =>
    ((s.modQueue q.val fun x => { x with cqHead := v.toNat }).flush q.val).composeAll)

/-- UNBLOCK (R348). -/
def execUnblock (src : Src) (q : Fin 4096) (s : State) : Outcome :=
  .next (s.busWrite src .feQCtrl q.val 1 (s.qCtrlCheck q.val 1) (State.qCtrlEff q.val 1))

/-- QUEUE_RESET (R329). -/
def execQueueReset (src : Src) (q : Fin 4096) (s : State) : Outcome :=
  .next (s.busWrite src .feQCtrl q.val 2 (s.qCtrlCheck q.val 2) (State.qCtrlEff q.val 2))

/-- SPILL_HEAD_WRITE (R349). -/
def execSpillHeadWrite (src : Src) (v : Word) (s : State) : Outcome :=
  .next (s.busWrite src .feSpillHead 0 v (s.spillHeadCheck v) (State.spillHeadEff v))

end Sys2Proof.Machine
end

