-- ==== Sys2Proof/Machine/Dma.lean ====
section
/-!
DEFINITION. The DMA agent, class 0x06 (R153 to R176, R495), and what it sends to other modules (R403, R405,
R406).
-/

namespace Sys2Proof.Machine

/-! ### Descriptors -/

/-- A DMA between two tensors moves towards scratchpad. -/
def Job.toPad (j : Job) : Bool := (j.desc j.w.dst.toNat).space == 0

/-- The device side and the scratchpad side of a DMA. -/
def Job.dev (j : Job) : Desc := if j.toPad then j.desc j.w.src1.toNat else j.desc j.w.dst.toNat
def Job.padSide (j : Job) : Desc := if j.toPad then j.desc j.w.dst.toNat else j.desc j.w.src1.toNat

/-- Total of the element bytes (R165). -/
def dmaSize (d : Desc) : Nat := d.rows * d.rowBytes

/-- A run of bytes in flat order: place in that order, scratchpad offset, device address and length. -/
structure Piece where
  off : Nat
  pad : Nat
  dev : Nat
  n : Nat
deriving DecidableEq, Repr

/-- A row cut at every multiple of `step` of the device address. -/
def cutRow (step off pad dev n : Nat) : List Piece :=
  (List.range ((dev + n - 1) / step - dev / step + 1)).map fun i =>
    let lo := max dev (step * (dev / step + i))
    let hi := min (dev + n) (step * (dev / step + i + 1))
    ⟨off + (lo - dev), pad + (lo - dev), lo, hi - lo⟩

/-- The pieces of a DMA: granules of the device address (R290), or for another module packets cut at every 2,048 bytes
(R403). -/
def dmaPieces (j : Job) : List Piece :=
  (List.range j.padSide.rows).flatMap fun r =>
    cutRow (if j.target = 2 then 2048 else 64) (r * j.padSide.rowBytes) (j.padSide.rowAddr r) (j.dev.rowAddr r) j.padSide.rowBytes

/-! ### Dispatch (R157 to R160) -/

/-- Two tensors of one instruction agree in FORMAT and RANK, and in their extents (R160). -/
def sameForm (a b : Desc) : Bool := a.format == b.format && a.rank == b.rank
def sameExtents (a b : Desc) : Bool := a.ext0 == b.ext0 && a.e1 == b.e1 && a.e2 == b.e2 && a.e3 == b.e3

/-- Pattern width of FIL. -/
def filWidth (w : IWord) : Nat := 2 ^ bitsOf w.imm.toNat 1 0

/-- A stride within the rank is no multiple of a width. -/
def strideOff (d : Desc) (n : Nat) : Bool :=
  decide (1 ≤ d.rank ∧ d.str1 % n ≠ 0) || decide (2 ≤ d.rank ∧ d.str2 % n ≠ 0) || decide (3 ≤ d.rank ∧ d.str3 % n ≠ 0)

open State

/-- The lowest free descriptor slot (R157). -/
def freeSlot (s : State) (p : Nat) : Nat :=
  ((List.range 16).find? fun i => !((s.jobsOf p [6]).any fun j => j.slot == i)).getD 0

/-- The checks of R160. -/
def dmaCode (s : State) (p func : Nat) (w : IWord) : Code :=
  let t := (s.core p).getT
  let a := t w.src1.toNat
  let b := t w.dst.toNat
  if func = 1 then
    firstCode [(b.space != 0, .badField), (true, checkDesc t b .written),
      (decide (b.base % filWidth w ≠ 0) || strideOff b (filWidth w), .align)]
  else
    firstCode [
      ((if func = 0 then (a.space == 0) == (b.space == 0) else a.space != 0 || b.space != 0) || !sameForm a b, .badField),
      (true, checkDesc t a .read), (true, checkDesc t b .written),
      (!sameExtents a b || (func == 2 && areasMeet [a.area.hull] [b.area.hull]), .range)]

/-- DMA, FIL and SCP. -/
def dmaBody (func : Nat) (w : IWord) (p : Nat) (s : State) : Res :=
  let k := s.core p
  let t := k.getT
  let a := t w.src1.toNat
  let b := t w.dst.toNat
  let ds := if func = 1 then [b] else [a, b]
  let comps := (ds.filter fun d => d.scaling != 0).map Desc.scaleT
  let code := dmaCode s p func w
  let depth := s.fld .dmaCtrl p 4 0
  if k.isBusy (comps.map .t) then .held []
  else if code ≠ .ok then .bad s code
  else if depth ≤ (s.dmaJobs p).length then .full (s.dmaJobs p)
  else
    let slot := freeSlot s p
    let pads := fun d : Desc => if d.space = 0 then [d.area] else []
    let regs := (if func = 1 then [] else [w.src1.toNat]) ++ [w.dst.toNat]
    let j := { newJob 6 func w 0 (takeDescs k regs) [k.getS w.src1] (if func = 1 then [] else pads a) (pads b) with
      slot := slot
      target := 3 }
    .ok ((s.dispatch p j).modCore p fun k => { k with srec := k.srec.erase slot })

/-- DMA (R158). -/
def execDma (c : CoreId) (w : IWord) (s : State) : Outcome :=
  issue 0x06 0x00 w none (IWord.isT w.dst && IWord.isT w.src1 && w.src2 == 0 && w.imm == 0)
    [.t w.dst.toNat, .t w.src1.toNat] c.val (dmaBody 0 w c.val) s

/-- FIL (R159). -/
def execFil (c : CoreId) (w : IWord) (s : State) : Outcome :=
  issue 0x06 0x01 w none (IWord.isT w.dst && w.src2 == 0 && decide (w.imm.toNat < 4))
    [.t w.dst.toNat, .s w.src1.toNat] c.val (dmaBody 1 w c.val) s

/-- SCP (R159). -/
def execScp (c : CoreId) (w : IWord) (s : State) : Outcome :=
  issue 0x06 0x02 w none (IWord.isT w.dst && IWord.isT w.src1 && w.src2 == 0 && w.imm == 0)
    [.t w.dst.toNat, .t w.src1.toNat] c.val (dmaBody 2 w c.val) s

/-! ### Digest streams (R405, R406) -/

/-- p of R405. -/
def digestP : Nat := 2 ^ 61 - 1

/-- b^e mod p, by squaring; `fuel` bounds the bits of e. -/
def powMod : Nat → Nat → Nat → Nat
  | 0, _, _ => 1
  | fuel + 1, b, e =>
    if e = 0 then 1
    else
      let h := powMod fuel (b * b % digestP) (e / 2)
      if e % 2 = 1 then h * b % digestP else h

/-- Σ (x_k mod p) r^(k+1) mod p over whole words from word `k` of a chunk on. -/
def digestWords (r : Nat) : Nat → List Byte → Nat
  | k, b0 :: b1 :: b2 :: b3 :: b4 :: b5 :: b6 :: b7 :: bs =>
    ((leNat [b0, b1, b2, b3, b4, b5, b6, b7] % digestP) * powMod 64 r (k + 1) + digestWords r (k + 1) bs) % digestP
  | _, _ => 0

namespace State

/-- Key of a digest stream, and its core. -/
def dsKey (s : State) (i : Nat) : Nat := s.reg64 .dsKeyLo .dsKeyHi i
def dsCore (s : State) (i : Nat) : Nat := s.physCore (s.fld .dsCfg i 14 7) (s.fld .dsCfg i 18 15)

/-- Destination range of a digest stream. -/
def dsRange (s : State) (i : Nat) : Nat × Nat :=
  (s.fld .dsBase i 27 0 * 65536, s.fld .dsGeom i 4 0 * 65536)

/-- The enabled stream of a core and context whose destination range a write meets. -/
def dsOf (s : State) (p ctx node a n : Nat) : Option Nat :=
  (List.range 256).find? fun i =>
    s.flag .dsCfg i 0 && s.fld .dsCfg i 6 1 == ctx && s.dsCore i == p && s.fld .dsCfg i 30 19 == node &&
      rangesMeet (a, n) (s.dsRange i)

def noChunk : Chunk := ⟨0, 0, none, none, none, 0⟩

def dsChunk (s : State) (i c : Nat) : Chunk := (s.dsChunks.getD i []).getD c noChunk
def setDsChunk (s : State) (i c : Nat) (x : Chunk) : State :=
  { s with dsChunks := s.dsChunks.set i ((s.dsChunks.getD i []).set c x) }

/-- Send a control packet; an undeliverable one is dropped and counted (R400). -/
def sendCtl (s : State) (p : Packet) : State :=
  let p := { p with src := s.node }
  match s.route p.dst 0 with
  | some l => s.sendOn l p
  | none => s.bump .tlkNoroute 0 1

/-- A DIGEST packet of a chunk (R396). -/
def digestPkt (node a d : Nat) (resent : Bool) : Packet := ⟨node, 0, 0, 0x21, false, 0, 0, a + 2 ^ 44 * bit resent, d, []⟩

/-- Words sent into a stream: they enter the chunk's digest, and a full chunk sends its DIGEST (R406). -/
def dsAdd (s : State) (i a : Nat) (bs : List Byte) : State :=
  let off := a - (s.dsRange i).1
  let c := off / 65536
  let x := s.dsChunk i c
  let sum := (x.sum + digestWords (s.dsKey i) (off % 65536 / 8) bs) % digestP
  let n := x.bytes + bs.length
  if n < 65536 then s.setDsChunk i c { x with bytes := n, sum := sum }
  else
    let s := s.setDsChunk i c { x with bytes := 0, sum := 0, digest := some sum }
    (s.sendCtl (digestPkt (s.fld .dsCfg i 30 19) ((s.dsRange i).1 + 65536 * c) sum false)).setReg .dsChunks i
      (s.reg .dsChunks i + 1)

/-- What R406 and R409 say of a digested write before it is sent. -/
def dsCheck (s : State) (i pad a n : Nat) : Code :=
  firstOf [(s.flag .dsCfg i 31, .digest),
    (decide (pad ≠ s.fld .dsGeom i 8 5 * 65536 + (a - (s.dsRange i).1)), .range),
    (decide (a % 8 ≠ 0 ∨ n % 8 ≠ 0), .align)]

end State

/-! ### Moving the elements -/

/-- PMASK of a body read from scratchpad (R403). -/
def pmaskOf (s : State) (p pad n : Nat) : Nat :=
  ((List.range ((n + 63) / 64)).map fun g =>
    if (s.padRead p (pad + 64 * g) (min 64 (n - 64 * g))).2 then 2 ^ g else 0).sum

/-- Copy within the module, one device or destination granule at a time, the mark going with the data. -/
def copyCut (f : State → Piece → State) (s : State) (x : Piece) : State :=
  (cutRow 64 x.off x.pad x.dev x.n).foldl f s

/-- How one piece goes. -/
inductive Moved where
  | ok (s : State)
  /-- Its page is not in the TLB. -/
  | walk (s : State)
  /-- No tag, no port: the agent waits. -/
  | wait
  /-- The descriptor ends; for consumed poison, with the address read. -/
  | fail (s : State) (c : Code) (at_ : Option Nat)

/-- Move one piece of a running descriptor. -/
def movePiece (s : State) (p : Nat) (j : Job) (x : Piece) : Moved :=
  let ctx := (s.core p).ctx
  let va := x.dev % 2 ^ 57
  let own : Owner := .dma p j.id x.pad
  if !s.ctxOn ctx then .fail s .notMapped none
  else match s.tlbHit p ctx va with
  | none => .walk s
  | some l =>
    if !j.toPad && !l.wr then .walk s
    else
      let s := s.tlbTouch p ctx va
      match s.place l va, j.toPad with
      | .bad, _ => .fail s .range none
      | .cis a, true =>
        if !s.mayTouch ctx a x.n then .fail s.protEvt .protection none
        else .ok (copyCut (fun s y =>
          let (bs, bad) := s.cisRead (a + (y.dev - x.dev)) y.n
          s.padWrite p y.pad bs bad) s x)
      | .cis a, false =>
        if !s.mayTouch ctx a x.n then .fail s.protEvt .protection none
        else .ok (copyCut (fun s y =>
          let (bs, bad) := s.padRead p y.pad y.n
          s.cisWrite (a + (y.dev - x.dev)) bs bad) s x)
      | .host h, true =>
        if !s.hostOpen ctx then .wait
        else
          let (bs, s) := s.hostRead ctx h x.n
          .ok (s.padWrite p x.pad bs)
      | .host h, false =>
        if !s.egressOk ctx 0 h x.n then .fail s.protEvt .protection none
        else
          let (bs, bad) := s.padRead p x.pad x.n
          let s := s.hostWrite (s.homePort ctx) own ctx va h bs bad
          if bad then .fail s .poison (some x.pad) else .ok s
      | .remote node a, true =>
        match s.request own ctx va (State.readPkt node a x.n) with
        | .sent _ s => .ok s
        | .waits => .wait
        | .undeliverable s => .fail s .link none
      | .remote node a, false =>
        if !s.egressOk ctx 1 (node * 2 ^ 44 + a) x.n then .fail s.protEvt .protection none
        else
          let bs := (s.padRead p x.pad x.n).1
          let ds := s.dsOf p ctx node a x.n
          let code := match ds with | some i => s.dsCheck i x.pad a x.n | none => .ok
          if code ≠ .ok then .fail s code none
          else match s.request own ctx va (State.writePkt node a bs (pmaskOf s p x.pad x.n)) with
          | .sent _ s => .ok (match ds with | some i => s.dsAdd i a bs | none => s)
          | .waits => .wait
          | .undeliverable s => .fail s .link none

/-- A descriptor ends with a code, and its launch with it (R174, R176): requests already issued complete. -/
def dmaFail (s : State) (p : Nat) (j : Job) (c : Code) (at_ : Option Nat) : State :=
  ((s.modJob p j.id fun x => { x with prog := .issued }).modCore p fun k => endRecord k j.slot c).endLaunchOf p c at_

/-- A unit may move so many pieces less. -/
def lessQuota (q : Option Nat) (n : Nat) : Option Nat := q.map (· - n)

/-- Issue the pieces left, up to one that must wait or to those that move before other agents act (R291). -/
def dmaRun (p : Nat) (id : Nat) : List Piece → State → State
  | [], s => s.modJob p id fun j => { j with prog := .issued }
  | x :: xs, s =>
    match s.job p id with
    | none => s
    | some j =>
      if j.quota = some 0 then s.modJob p id fun j => { j with prog := .running }
      else match movePiece s p j x with
      | .ok s => dmaRun p id xs (s.modJob p id fun j => { j with
          prog := .running
          done := x.off + x.n
          quota := lessQuota j.quota 1 })
      | .walk s => (s.modJob p id fun j => { j with prog := .walking (x.dev % 2 ^ 57) (s.epoch (s.core p).ctx) }).missed
          (.dma p j.slot)
      | .wait => s.modJob p id fun j => { j with prog := .running }
      | .fail s c at_ => dmaFail s p j c at_

/-- The pieces that a descriptor has not issued. -/
def dmaLeft (j : Job) : List Piece := (dmaPieces j).filter fun x => decide (j.done ≤ x.off)

/-- Minimum efficient size by target (R165). -/
def minEfficient (target : Nat) : Nat := if target = 0 then 4096 else if target = 1 then 8192 else 16384

/-- Hazards of a start: R161 among descriptors by their whole ranges, R162, R116 and R150 against the other
units. -/
def dmaReady (s : State) (p : Nat) (j : Job) : Bool :=
  let js := s.before p j.id
  let hull := fun x : Job => { x with reads := x.reads.map Area.hull, writes := x.writes.map Area.hull }
  padClear ((js.filter fun x => x.cls == 6).map hull) (hull j) && padClear (js.filter fun x => x.cls != 6) j

/-- A descriptor waits at the issue stage: its start is allowed, or its first page is being translated. -/
def atStage (s : State) (p : Nat) (x : Job) : Bool :=
  match x.prog with
  | .queued => dmaReady s p x
  | .walking .. => x.target == 3
  | _ => false

/-- The issue stage can take a descriptor: it is in the hold of none, and no older one waits there (R165). One that a hazard
holds or that is halted lets younger ones pass (R162, R175). -/
def stageFree (s : State) (p : Nat) (j : Job) : Bool :=
  !((s.jobsOf p [6]).any fun x => x.prog == .short) &&
    !((s.before p j.id).any fun x => x.cls == 6 && atStage s p x)

/-- A started DMA goes on: its target comes from its first page (R160), it waits for the issue stage, a short one is held
there (R165), and otherwise its requests issue. -/
def dmaGo (s : State) (p : Nat) (j : Job) : State :=
  if j.target ≠ 3 then dmaRun p j.id (dmaLeft j) s
  else
    let ctx := (s.core p).ctx
    let va := j.dev.rowAddr 0 % 2 ^ 57
    if !s.ctxOn ctx then dmaFail s p j .notMapped none
    else match (s.tlbHit p ctx va).filter fun l => j.toPad || l.wr with
    | none => (s.modJob p j.id fun j => { j with prog := .walking va (s.epoch ctx) }).missed (.dma p j.slot)
    | some l =>
      match (match s.place l va with | .cis _ => some 0 | .host _ => some 1 | .remote .. => some 2 | .bad => none) with
      | none => dmaFail s p j .range none
      | some target =>
        if !stageFree s p j then s.modJob p j.id fun j => { j with prog := .queued }
        else if dmaSize j.padSide < minEfficient target then
          (s.bump .dmaShort p 1).modJob p j.id fun j => { j with prog := .short, target := target }
        else dmaRun p j.id (dmaLeft { j with target := target }) (s.modJob p j.id fun j => { j with prog := .running, target := target })

/-- The granules of the destination of a FIL or SCP, in order: offset, source and destination. -/
def padPieces (j : Job) : List Piece :=
  let d := j.desc j.w.dst.toNat
  let src := if j.func = 1 then d else j.desc j.w.src1.toNat
  (List.range d.rows).flatMap fun r => cutRow 64 (r * d.rowBytes) (src.rowAddr r) (d.rowAddr r) d.rowBytes

/-- FIL and SCP go on (R159): granule by granule, as many as move before other agents act (R291). -/
def padMove (s : State) (p : Nat) (j : Job) : State :=
  let base := (j.desc j.w.dst.toNat).base
  let left := (padPieces j).filter fun x => decide (j.done ≤ x.off)
  let now := match j.quota with | some n => left.take n | none => left
  let s := now.foldl (fun s x =>
    if j.func = 1 then
      let w := filWidth j.w
      let v := (j.scal.headD 0).toNat
      s.padWrite p x.dev ((List.range x.n).map fun i => BitVec.ofNat 8 (v / 2 ^ (8 * ((x.dev + i - base) % w))))
    else
      let (bs, bad) := s.padRead p x.pad x.n
      s.padWrite p x.dev bs bad) s
  s.modJob p j.id fun k => match now.getLast? with
    | some x => { k with prog := if now.length = left.length then .issued else .running, done := x.off + x.n }
    | none => { k with prog := if left.isEmpty then .issued else .running }

/-- The descriptor in a slot. -/
def slotJob (s : State) (p : Nat) (slot : Nat) : Option Job := (s.jobsOf p [6]).find? fun j => j.slot == slot

/-- DMA_DESC_START (R161, R162, R291): a queued descriptor starts, and one that has begun goes on, by so many granules
before other agents act. The issue stage takes one descriptor at a time (R165). -/
def execDmaDescStart (c : CoreId) (start : DescStart) (s : State) : Outcome :=
  let p := c.val
  match slotJob s p start.slot.val with
  | none => .next s
  | some j =>
    let j := { j with quota := start.quota }
    let go := fun (_ : Unit) =>
      let s := s.modJob p j.id fun k => { k with quota := start.quota }
      if j.func ≠ 0 then padMove s p j else dmaGo s p j
    match j.prog with
    | .queued => .next (if dmaReady s p j && stageFree s p j then go () else s)
    | .running => .next (go ())
    | _ => .next s

/-- DMA_SHORT_HOLD_EXPIRE (R165). -/
def execDmaShortHoldExpire (c : CoreId) (slot : Fin 16) (s : State) : Outcome :=
  match slotJob s c.val slot.val with
  | none => .next s
  | some j => if j.prog = .short then .next (dmaGo s c.val j) else .next s

/-- DMA_DESC_COMPLETE (R283): every request is issued and complete for its target. -/
def execDmaDescComplete (c : CoreId) (slot : Fin 16) (s : State) : Outcome :=
  let p := c.val
  let mine := fun o : Owner => match o with | .dma q id _ => some (q, id) | _ => none
  match slotJob s p slot.val with
  | none => .next s
  | some j =>
    if j.prog ≠ .issued ∨ (s.txns.any fun kv => mine kv.2.owner == some (p, j.id)) ∨
        (s.hostWaits.any fun x => mine x.owner == some (p, j.id)) then .next s
    else
      let halted := match (s.core p).srec.get? j.slot with | some r => r.getD 88 0 == 0x0C | none => false
      .next ((s.dropJob p j.id).modCore p fun k => if halted then endRecord k j.slot .ok else k)

/-! ### Faults in mid-stream (R173 to R176) -/

/-- The stream record of a descriptor that halts. -/
def streamRecord (s : State) (p : Nat) (j : Job) (va : Nat) : List Byte :=
  leBytes 32 (j.desc j.w.src1.toNat).toNat ++ leBytes 32 (j.desc j.w.dst.toNat).toNat ++ leBytes 8 va ++
  leBytes 8 j.done ++ leBytes 8 j.pc.toNat ++ [0x0C, BitVec.ofNat 8 j.slot, BitVec.ofNat 8 (s.core p).ctx,
    BitVec.ofNat 8 j.target] ++ leBytes 4 (s.epoch (s.core p).ctx) ++ leBytes 8 s.cycle ++ leBytes 24 0

/-- A descriptor's walk ends with a fault (R173). -/
def dmaFault (s : State) (p : Nat) (j : Job) (va : Nat) (cause : Cause) : State :=
  let ctx := (s.core p).ctx
  if !s.ctxHalt ctx then dmaFail s p j .notMapped none
  else match s.faultStream (.dma p j.slot) ctx va (!j.toPad) cause with
    | (none, s) => dmaFail s p j .notMapped none
    | (some r, s) =>
      (s.modCore p fun k => { k with srec := k.srec.set j.slot (streamRecord s p j va) }).modJob p j.id fun x =>
        { x with prog := .halted r va s.ticks false }

/-- A descriptor's walk ends (R173, R418): with a translation it goes on, with a fault it ends or halts. -/
def dmaWalked (s : State) (p : Nat) (j : Job) (va : Nat) : State :=
  let ctx := (s.core p).ctx
  match s.walk (.dma p j.slot) ctx va (!j.toPad) with
  | (.leaf l, s) => dmaGo (s.tlbInstall p ctx va l) p j
  | (.poisoned, s) => dmaFail s p j .poison (some va)
  | (.fault cause, s) => dmaFault s p j va cause

/-- The stream of a descriptor leaves the records that it waits on. -/
def leaveRec (s : State) (p slot : Nat) : State :=
  { s with recs := s.recs.mapV fun _ r => { r with waiters := r.waiters.filter fun w => w != .dma p slot } }

/-- DMA_RESUME (R176): a halted descriptor whose record was completed with OK translates its page again. -/
def execDmaResume (c : CoreId) (slot : Fin 16) (s : State) : Outcome :=
  match slotJob s c.val slot.val with
  | none => .next s
  | some j =>
    match j.prog with
    | .halted _ va _ true =>
      .next ((s.modJob c.val j.id fun x => { x with prog := .walking va (s.epoch (s.core c.val).ctx) }).missed (.dma c.val slot.val))
    | _ => .next s

end Sys2Proof.Machine
end

