-- ==== Sys2Proof/Machine/Schedule.lean ====
section
/-!
DEFINITION. Scheduling (R355 to R369): the cycle table, making way, suspension and resumption, YLD, and the
parking and waking of clusters (R441 to R443).
-/

namespace Sys2Proof.Machine

namespace State

/-! ### The cycle table (R355 to R357) -/

/-- Frames are running; the active bank; a switch is pending. -/
def schRunning (s : State) : Bool := s.flag .schState 0 0
def schBankNo (s : State) : Nat := s.fld .schState 0 1 1
def schPending (s : State) : Bool := s.flag .schState 0 2

/-- N and DEFCLASS of a bank. -/
def bankN (s : State) (b : Nat) : Nat := s.fld .schBank b 23 14
def bankDef (s : State) (b : Nat) : Nat := s.fld .schBank b 26 24

/-- The 32 bytes of an entry of a bank (R356). -/
def cycleEntry (s : State) (b e : Nat) : List Byte :=
  (List.range 8).flatMap fun w => leBytes 4 (s.reg .cycleWord (4096 * b + 8 * e + w)).toNat

/-- Clusters that an entry's MASK names, RETIRED ones left out (R355). -/
def namedBy (s : State) (bs : List Byte) : List Nat :=
  (List.range 144).filter fun n => (fieldAt bs 0 18).testBit n && s.fld .glbClmap n 9 8 != 3

/-- Checks on SWITCH (R357), in the order of its table. -/
def switchCode (s : State) : Code :=
  let b := 1 - s.schBankNo
  let n := s.bankN b
  let es := (List.range (min n 512)).map (s.cycleEntry b)
  let starts := es.map fun bs => fieldAt bs 18 2 % 2 ^ 14
  let frame := s.fld .schBank b 13 0
  firstOf [
    (es.any fun bs => decide (2 ^ 14 ≤ fieldAt bs 18 2) || decide (8 ≤ fieldAt bs 20 1) || nonzeroAt bs 22 10, .badField),
    (decide (n = 0) || decide (512 < n) || decide (frame < 100) || decide (10000 < frame)
      || starts.any (fun x => decide (frame ≤ x)) || (starts.zip (starts.drop 1)).any (fun (a, b) => decide (b < a)), .range),
    (s.schPending, .busy)]

/-- Assign a class to a cluster; while no save area is set, one that runs a launch takes it when the launch ends (R365). -/
def setClass (c : Nat) (s : State) (n : Nat) : State :=
  if !s.flag .schSaveHi 0 31 && (s.clLaunch n).isSome then { s with reassign := s.reassign.set n c }
  else { s.setFld .schCl n 2 0 c with reassign := s.reassign.erase n }

/-- Every cluster takes the active bank's DEFCLASS. -/
def allDefault (s : State) : State := (List.range 144).foldl (setClass (s.bankDef s.schBankNo)) s

/-- The banks exchange. -/
def exchange (s : State) : State :=
  { s.setFld .schState 0 2 1 (1 - s.schBankNo) with wayWin := [] }

/-- Clusters that no entry of the active bank names take DEFCLASS; the others keep their class until an entry
of the new frame names them (R355). -/
def defaultUnnamed (s : State) : State :=
  let b := s.schBankNo
  let named := (List.range (min (s.bankN b) 512)).flatMap fun e => s.namedBy (s.cycleEntry b e)
  ((List.range 144).filter fun n => !named.contains n).foldl (setClass (s.bankDef b)) s

/-- A frame begins. -/
def beginFrame (s : State) : State :=
  let frames := (s.fld .schPos 0 31 14 + 1) % 2 ^ 18
  { s.setReg .schPos 0 (BitVec.ofNat 32 (frames * 2 ^ 14)) with schNext := 0, frameTick := s.ticks }

/-- Checks of FE_SCH_CMD. -/
def schCheck (s : State) (v : Word) : Code :=
  let n := bit (v.getLsbD 0) + bit (v.getLsbD 1) + bit (v.getLsbD 2)
  if 2 ≤ n then .badField
  else if v.getLsbD 1 && s.schRunning then .state
  else if v.getLsbD 2 && !s.schRunning then .state
  else if v.getLsbD 0 then s.switchCode else .ok

/-- Effect of FE_SCH_CMD: a switch takes effect at once while the table is stopped. -/
def schEff (v : Word) (s : State) : State :=
  if v.getLsbD 0 then (if s.schRunning then s.setFlag .schState 0 2 true else s.exchange.allDefault)
  else if v.getLsbD 1 then
    ((s.setReg .schPos 0 0).setFlag .schState 0 0 true).beginFrame.defaultUnnamed
  else if v.getLsbD 2 then { s with schStop := true }
  else s

/-! ### Making way (R358, R362, R363) -/

/-- A save area is set (R365). -/
def saveOn (s : State) : Bool := s.flag .schSaveHi 0 31

/-- A core stops where it waits, when it waits where a launch makes way (R363). -/
def stopWaiting (s : State) (p : Nat) : State :=
  let c := s.core p
  let stop := fun (how : Stop) => s.modCore p fun c => { c with wait := none, stall := none, stop := some how }
  match c.stall with
  | some x => if x.record.isSome then stop .halted else s
  | none =>
    match c.wait with
    | some (.wat ..) => stop .wat
    | some (.cwt ..) => stop .cwt
    | some (.qwt ..) => stop .qwt
    | some (.bar _ _ _ true) => stop .bar
    | some (.release _) => if s.allHalted p (s.releaseJobs p) then stop .halted else s
    | _ => s

/-- A control core that halts in a launch that makes way: its stall is kept with the launch. -/
def keepStall (s : State) (l p : Nat) : State :=
  match (s.core p).stall with
  | some ⟨_, _, _, _, _, _, some r, ready, _⟩ =>
    s.modLaunch l fun x => { x with halts := x.halts ++ [⟨p, none, r, if ready then some .ok else none⟩] }
  | _ => s

/-- A running launch is asked to make way; without a save area nothing happens (R365). -/
def askWay (s : State) (l : Nat) : State :=
  match s.launch l with
  | none => s
  | some x =>
    if x.phase ≠ .running || x.asked || !s.saveOn then s
    else
      let s := s.setLaunch l { x with asked := true, askedSince := s.ticks }
      x.cores.foldl (fun s p => if (s.core p).launch = some l then (s.keepStall l p).stopWaiting p else s) s

/-- Launches that run on clusters and are not in a class are asked to make way (R358). -/
def askClusters (s : State) (cls : Nat) (ns : List Nat) : State :=
  let ls := (ns.filter fun n => s.fld .schCl n 2 0 != cls).filterMap s.clLaunch
  ls.eraseDups.foldl askWay s

/-- Another launch of the class waits for a cluster of a launch (R362, R368). -/
def wanted (s : State) (l : Nat) (x : Launch) : Bool :=
  s.launches.any fun kv => kv.1 != l && waits kv.2 && kv.2.cls == x.cls &&
    spansMeet (kv.2.first, kv.2.clusters) (x.first, x.clusters)

/-! ### Suspension and resumption (R364 to R366) -/

/-- Local address of the save slot of a physical core for a class (R365). -/
def saveSlot (s : State) (cls p : Nat) : Nat :=
  s.addr .schSaveHi 0 % 2 ^ 44 + (2304 * cls + 16 * s.logicalOf p + p % 16) * 1028 * 1024

/-- Byte 0x611 of the save slot. -/
def stopCode : Option Stop → Nat
  | some .yieldPoint => 0 | some .wat => 1 | some .cwt => 2 | some .bar => 3 | some .qwt => 4 | some .halted => 5
  | some .ended => 6 | none => 6

/-- Stream records of the save slot: those of halted descriptors, zero for the others. -/
def slotRecords (c : Core) : List Byte :=
  (List.range 16).flatMap fun i =>
    if c.jobs.any fun j => j.cls == 6 && j.slot == i && (match j.prog with | .halted .. => true | _ => false)
    then ((c.srec.getD i []) ++ List.replicate 128 0).take 128
    else List.replicate 128 0

/-- Barrier state of the save slot of a launch's core 0. -/
def slotBarriers (x : Launch) : List Byte :=
  (List.range 16).flatMap fun i => match x.barriers.get? i with
    | some e => leBytes 2 e.count ++ leBytes 2 e.arrived.length ++ leBytes 4 0
    | none => leBytes 8 0

/-- The 4 KiB header of a save slot (R365). -/
def saveHeader (s : State) (x : Launch) (p : Nat) : List Byte :=
  let c := s.core p
  ((List.range 64).flatMap fun i => leBytes 8 (c.getS (BitVec.ofNat 6 i)).toNat) ++
  ((List.range 32).flatMap fun i => leBytes 32 (c.getT i).toNat) ++
  leBytes 8 c.pc.toNat ++ leBytes 8 c.cst.toNat ++
  [BitVec.ofNat 8 (setBits c.p.toNat 0 0 1), BitVec.ofNat 8 (stopCode c.stop)] ++ leBytes 2 c.keep ++ leBytes 12 0 ++
  leBytes 8 x.seq ++ ((List.range 4).flatMap fun w => leBytes 8 (s.reg64 .dmaWinLo .dmaWinHi (4 * p + w))) ++
  leBytes 4 (s.reg .numSticky p).toNat ++ leBytes 4 (s.reg .numSatTotal p).toNat ++ leBytes 48 0 ++
  slotRecords c ++ (if x.cores.head? = some p then slotBarriers x else leBytes 128 0) ++ leBytes 256 0

/-- Scratchpad bytes 0 to KEEP − 1 go to the save area, granule by granule with their poison. -/
def savePad (s : State) (p at_ : Nat) : State :=
  (List.range (64 * (s.core p).keep)).foldl (fun s g =>
    let (bs, bad) := s.padRead p (64 * g) 64
    s.cisWrite (at_ + 64 * g) bs bad) s

/-- Halted descriptors of a core, as a suspended launch keeps them. -/
def haltsOf (c : Core) (p : Nat) : List Halt :=
  c.jobs.filterMap fun j => match j.prog with
    | .halted r _ _ ready => some ⟨p, some j, r, if ready then some .ok else none⟩
    | _ => none

/-- A core saves its save set and is free. -/
def saveCore (l : Nat) (s : State) (p : Nat) : State :=
  match s.launch l with
  | none => s
  | some x =>
    let c := s.core p
    let at_ := s.saveSlot x.cls p
    let s := (s.cisWrite at_ (s.saveHeader x p)).savePad p (at_ + 4096)
    let s := s.setLaunch l { x with halts := x.halts ++ haltsOf c p, issued := x.issued.set p c.retired }
    let s := (List.range 4).foldl (fun s w => s.setFlag .dmaWinCfg (4 * p + w) 31 false) s
    s.modCore p fun c => { c with
      run := .idle, launch := none, stop := none, ended := false, jobs := [], busy := [], arrs := [], arrds := [] }

/-- A core has stopped, and every instruction that it dispatched is complete but for halted descriptors. -/
def coreSaved (s : State) (p : Nat) : Bool :=
  let c := s.core p
  (c.stop.isSome || c.ended) && c.loads.isEmpty && c.stall.isNone &&
    c.jobs.all (fun j => match j.prog with | .halted .. => true | _ => false) &&
    !(s.txns.any fun kv => ownerCore kv.2.owner == some p) && !(s.hostWaits.any fun w => ownerCore w.owner == some p)

/-- A 64-bit field of a save slot. -/
def slotWord (bs : List Byte) (off : Nat) : Nat := fieldAt bs off 8

/-- A core restores its save set and goes on (R366). -/
def restoreCore (l : Nat) (x : Launch) (s : State) (p : Nat) : State :=
  let at_ := s.saveSlot x.cls p
  let h := (s.cisRead at_ 4096).1
  let old := s.core p
  let ended := fieldAt h 0x611 1 == 6
  let c := { Core.reset with
    run := if ended then .idle else .running
    ended := ended
    launch := some l
    ctx := x.ctx
    pc := BitVec.ofNat 57 (slotWord h 0x600)
    cst := BitVec.ofNat 64 (slotWord h 0x608)
    p := BitVec.ofNat 8 (setBits (fieldAt h 0x610 1) 0 0 0)
    keep := fieldAt h 0x612 2
    retired := x.issued.getD p 0
    tlb := old.tlb
    nextJob := old.nextJob
    srSeed := old.srSeed
    srPos := old.srPos
    waddr := old.waddr }
  let c := (List.range 64).foldl (fun c i => c.setS (BitVec.ofNat 6 i) (BitVec.ofNat 64 (slotWord h (8 * i)))) c
  let c := (List.range 32).foldl (fun c i => c.setT i (BitVec.ofNat 256 (fieldAt h (0x200 + 32 * i) 32))) c
  let jobs := x.halts.filterMap fun k => if k.core = p then k.job.map fun j =>
    match j.prog with
    | .halted r va since _ => { j with prog := .halted r va since (k.code == some .ok) }
    | _ => j else none
  let c := { c with
    jobs := jobs
    srec := jobs.foldl (fun m j => m.set j.slot ((h.drop (0x680 + 128 * j.slot)).take 128)) old.srec }
  let s := s.setCore p c
  let s := s.openWindows p x.windows
  let s := (List.range x.windows.length).foldl (fun s w =>
    s.setReg64 .dmaWinLo .dmaWinHi (4 * p + w) (slotWord h (0x628 + 8 * w))) s
  let s := (s.setReg .numSticky p (BitVec.ofNat 32 (fieldAt h 0x648 4))).setReg .numSatTotal p
    (BitVec.ofNat 32 (fieldAt h 0x64C 4))
  (List.range (64 * c.keep)).foldl (fun s g =>
    let (bs, bad) := s.cisRead (at_ + 4096 + 64 * g) 64
    s.padWrite p (64 * g) bs bad) s

/-- The code of a fault record that ended a halt while its launch was suspended takes effect (R366). -/
def haltEnds (l : Nat) (s : State) (k : Halt) : State :=
  match k.code, k.job with
  | none, _ => s
  | some .ok, _ => s
  | some c, some j => dmaFail s k.core j c none
  | some c, none => s.endLaunch l c (some k.core)

/-- A suspended launch resumes on its cores. -/
def resume (s : State) (l : Nat) (x : Launch) : State :=
  let s := s.setLaunch l { x with phase := .running, asked := false, reserved := false, startedNow := s.ticks, halts := [], issued := [] }
  x.halts.foldl (haltEnds l) (x.cores.foldl (restoreCore l x) s)

/-! ### Parking (R441 to R443) -/

/-- What DEEP loses of a core: caches, TLB, banks, tiles and queues. -/
def deepCore (c : Core) : Core :=
  { c with dcache := [], icache := [], tlb := [], arrs := [], arrds := [], jobs := [] }

/-- A cluster reaches the state it moves to. -/
def arriveState (s : State) (n target : Nat) : State :=
  let s := (s.setFld .kpcClst n 1 0 target).setFlag .kpcClst n 2 false
  let s := { s with moving := s.moving.erase n }
  if target = 3 then (List.range 16).foldl (fun s c => s.modCore (s.physCore n c) deepCore) s else s

/-- A launch runs on a cluster or waits for it in its class (R359). -/
def clusterBusy (s : State) (n : Nat) : Bool :=
  (s.clLaunch n).isSome || s.launches.any fun kv =>
    waits kv.2 && kv.2.cls == s.fld .schCl n 2 0 && decide (kv.2.first ≤ n) && decide (n < kv.2.first + kv.2.clusters)

/-- The state that a cluster parks in: its class's PARK, or DEEP when it is RETIRED (R442). -/
def parkState (s : State) (n : Nat) : Nat :=
  if s.fld .glbClmap n 9 8 = 3 then 3 else s.fld .schPolicy (s.fld .schCl n 2 0) 1 0

end State

open State

/-! ### Commands and events of the cycle table -/

/-- SCH_SWITCH (R357). -/
def execSchSwitch (src : Src) (s : State) : Outcome := .next (s.busWrite src .schCmd 0 1 (s.schCheck 1) (State.schEff 1))

/-- SCH_GO (R357). -/
def execSchGo (src : Src) (s : State) : Outcome := .next (s.busWrite src .schCmd 0 2 (s.schCheck 2) (State.schEff 2))

/-- SCH_STOP (R357). -/
def execSchStop (src : Src) (s : State) : Outcome := .next (s.busWrite src .schCmd 0 4 (s.schCheck 4) (State.schEff 4))

/-- CYCLE_ENTRY_START (R355, R358): the next entry of the frame reaches its START. -/
def execCycleEntryStart (e : Fin 512) (s : State) : Outcome :=
  let b := s.schBankNo
  if !s.schRunning || s.schNext ≠ e.val || s.bankN b ≤ e.val then .next s
  else
    let bs := s.cycleEntry b e.val
    let cls := fieldAt bs 20 1 % 8
    let ns := s.namedBy bs
    let s := s.askClusters cls ns
    let s := ns.foldl (setClass cls) s
    .next { s with schNext := e.val + 1, wayWin := s.wayWin.filter fun x => x.1 != e.val }

/-- MAKE_WAY_WINDOW (R358): the window of an entry opens EARLY before its START. -/
def execMakeWayWindow (e : Fin 512) (s : State) : Outcome :=
  let b := s.schBankNo
  let bs := s.cycleEntry b e.val
  if !s.schRunning || s.bankN b ≤ e.val || fieldAt bs 21 1 = 0 then .next s
  else
    let cls := fieldAt bs 20 1 % 8
    let ns := (s.namedBy bs).filter fun n => s.fld .schCl n 2 0 != cls
    let s := s.askClusters cls ns
    .next { s with wayWin := (s.wayWin.filter fun x => x.1 != e.val) ++ ns.map fun n => (e.val, n) }

/-- FRAME_END (R357): an accepted switch and an accepted stop take effect; otherwise the next frame begins. -/
def execFrameEnd (s : State) : Outcome :=
  if !s.schRunning || s.schNext < s.bankN s.schBankNo then .next s
  else
    let s := if s.schPending then s.exchange.setFlag .schState 0 2 false else s
    if s.schStop then
      let s := s.setFlag .schState 0 0 false
      .next { s.allDefault with schStop := false, wayWin := [] }
    else .next s.beginFrame.defaultUnnamed

/-! ### Clusters -/

/-- PREWAKE (R359): the keeper wakes a cluster that an entry names. -/
def execPrewake (e : Fin 512) (cl : Fin 144) (s : State) : Outcome :=
  if s.schRunning && decide (e.val < s.bankN s.schBankNo) && (s.namedBy (s.cycleEntry s.schBankNo e.val)).contains cl.val then
    .next (s.wake cl.val)
  else .next s

/-- CLUSTER_PARK (R359, R442, R443): LIGHT is entered at once, DOZE and DEEP take their entry time. -/
def execClusterPark (cl : Fin 144) (s : State) : Outcome :=
  let n := cl.val
  let target := s.parkState n
  if !s.inRun n || s.clusterBusy n || target = 0 then .next s
  else if target = 1 then .next (s.arriveState n 1)
  else .next { s.setFlag .kpcClst n 2 true with moving := s.moving.set n target }

/-- CLUSTER_PARK_DONE (R443): the entry completes, and a wake that came during it is served. -/
def execClusterParkDone (cl : Fin 144) (s : State) : Outcome :=
  let n := cl.val
  match s.moving.get? n with
  | some (t + 1) =>
    let s := s.arriveState n (t + 1)
    if s.wakeWait.contains n then .next ({ s with wakeWait := setErase s.wakeWait n }.wake n) else .next s
  | _ => .next s

/-- CLUSTER_WAKE (R443): a trigger wakes a cluster; one in RETIRED is held in DEEP (R442). -/
def execClusterWake (cl : Fin 144) (s : State) : Outcome :=
  if s.fld .glbClmap cl.val 9 8 = 3 || s.power ≠ .on then .next s else .next (s.wake cl.val)

/-- CLUSTER_WAKE_DONE (R441). -/
def execClusterWakeDone (cl : Fin 144) (s : State) : Outcome :=
  let n := cl.val
  match s.moving.get? n with
  | some 0 => .next ((s.arriveState n 0).setFld .kpcClst n 31 16 (satAdd 0xFFFF (s.fld .kpcClst n 31 16) 1))
  | _ => .next s

/-! ### Launches that give and take clusters -/

/-- AGE_RESERVE (R361). -/
def execAgeReserve (l : Nat) (s : State) : Outcome :=
  match s.launch l with
  | some x =>
    if waits x && s.fld .schPolicy x.cls 31 16 != 0 then .next (s.setLaunch l { x with reserved := true }) else .next s
  | none => .next s

/-- QUANTUM_EXPIRE (R362). -/
def execQuantumExpire (l : Nat) (s : State) : Outcome :=
  match s.launch l with
  | some x =>
    if x.phase == .running && s.fld .schTimes x.cls 15 0 != 0 && s.wanted l x then .next (s.askWay l) else .next s
  | none => .next s

/-- LAUNCH_SUSPEND (R364, R365). -/
def execLaunchSuspend (l : Nat) (s : State) : Outcome :=
  match s.launch l with
  | none => .next s
  | some x =>
    if x.phase ≠ .running || !x.asked || !(x.cores.all s.coreSaved) || (x.cores.all fun p => (s.core p).ended) then .next s
    else
      let s := x.cores.foldl (saveCore l) s
      .next (s.modLaunch l fun x => { x with phase := .suspended, asked := false, since := s.ticks }).takeClasses

/-- LAUNCH_RESUME (R366): on the same clusters and cores, under R360 and R361. A launch that would resume on a core
since fenced, or on a cluster since failed, ends with ABORTED: no launch uses either (R19, R431, R432; log entry 73). -/
def execLaunchResume (l : Nat) (s : State) : Outcome :=
  match s.launch l with
  | none => .next s
  | some x =>
    if x.phase ≠ .suspended || !s.mayStart l x then .next s
    else if x.cores.any fun p => !(s.spanCores x).contains p then .next (s.endLaunch l .aborted none)
    else match s.parked x with
      | [] => .next (s.resume l x)
      | ns => .next (ns.foldl State.wake s)

/-- MAKE_WAY_TIMEOUT (R367). -/
def execMakeWayTimeout (l : Nat) (s : State) : Outcome :=
  match s.launch l with
  | some x =>
    if x.phase == .running && x.asked then
      .next ((s.setFld .schState 0 31 16 (satAdd 0xFFFF (s.fld .schState 0 31 16) 1)).endLaunch l .aborted none)
    else .next s
  | none => .next s

/-- YLD (R368): KEEP is set; with GIVE the launch makes way when another of its class waits, and the core stops
behind the instruction (log entry 28). -/
def execYld (c : CoreId) (w : IWord) (s : State) : Outcome :=
  issue 0x09 0x02 { w with yld := true } none
    (w.dst == 0 && w.src1 == 0 && w.src2 == 0 && bitsOf w.imm.toNat 31 10 == 0) [] c.val
    (fun s =>
      let keep := bitsOf w.imm.toNat 8 0
      if 256 < keep then .bad s .range
      else
        let s := s.modCore c.val fun k => { k with keep := keep }
        match s.launchOf c.val with
        | some (l, x) =>
          if w.imm.getLsbD 9 && s.wanted l x then
            let s := s.askWay l
            .ok (if s.askedWay c.val then s.stopCore c.val .yieldPoint else s)
          else .ok s
        | none => .ok s) s

end Sys2Proof.Machine
end

