-- ==== Sys2Proof/Machine/Host.lean ====
section
/-!
DEFINITION. The host interface (R374 to R387): BAR2, registered regions, function level resets, the host line
cache, host ports, and the copy engines.
-/

namespace Sys2Proof.Machine

namespace State

/-! ### BAR2 and the registered regions (R381 to R384) -/

/-- Every byte of a range lies in one of a function's four windows (R382), whose bounds are multiples of 256 MiB. -/
def fnWindow (s : State) (fn a n : Nat) : Bool :=
  (List.range ((a + (n - 1)) / 2 ^ 28 - a / 2 ^ 28 + 1)).all fun k =>
    (List.range 4).any fun w =>
      let v := (s.reg .fnWin (4 * (fn - 1) + w)).toNat
      let b := a / 2 ^ 28 + k
      decide (v % 2 ^ 16 ≤ b) && decide (b < v % 2 ^ 16 + v / 2 ^ 16)

/-- Some byte of a range lies in a sealed pool (R462). -/
def touchesSealed (s : State) (a n : Nat) : Bool := (granules a n).any fun g => (s.sealedAt (64 * g)).isSome

/-- Why a BAR2 access is refused; OK when it is admitted (R381, R382, R462). -/
def bar2Code (s : State) (fn a n : Nat) (write : Bool) : Code :=
  if fn ≠ 0 && !s.fnWindow fn a n then .protection
  else if s.workSize < a + n then .range
  else if write && s.touchesSealed a n then .protection else .ok

/-- Count a refused BAR2 access. -/
def bar2Refuse (s : State) (code : Code) : State :=
  (if code = .range then s.bump .bar2Oor 0 1 else s).recordLast (.hifLast, 0) code

/-- A region's write is admitted (R383). -/
def admits (s : State) (r : Nat) (rid : BitVec 16) (off n : Nat) : Bool :=
  let mask := (s.reg .rgnMask r).toNat
  s.flag .rgnCfg r 0 && (rid.toNat &&& mask) == (s.fld .rgnCfg r 31 16 &&& mask) &&
    decide (off + n ≤ s.fld .rgnSize r 18 0 * 4096)

def rgnCtrlEff (r : Nat) (v : Word) (s : State) : State :=
  if v.getLsbD 0 then s.setReg64 .rgnCntLo .rgnCntHi r 0 else s

/-! ### Copy jobs (R386, R387) -/

def copyJob (s : State) (j : Nat) : Option CopyJob := s.copies.get? j
def setCopy (s : State) (j : Nat) (x : CopyJob) : State := { s with copies := s.copies.set j x }

/-- Jobs of an engine. -/
def copiesOf (s : State) (e : Nat) : List (Nat × CopyJob) := s.copies.filter fun kv => kv.2.engine == e

/-- COPY queues of an engine with an entry to take, in turn. -/
def nextCopyQueue (s : State) (e : Nat) : Option Nat :=
  let qs := (s.fetched.map (·.1)).filter fun q => s.qKind q == 2 && s.qOwner q == e && (s.takeEntry q).isSome
  let last := s.turn.getD (144 + e) 4096
  match qs.find? (last < ·) with
  | some q => some q
  | none => qs.head?

/-- Checks of a copy entry (R387). -/
def copyCode (e : Entry) : Code :=
  let bs := e.bytes
  let len := fieldAt bs 24 4
  let rows := fieldAt bs 28 4
  firstCode [
    (decide (fieldAt bs 0 1 ≠ 3), .badOpcode),
    (decide (4 ≤ fieldAt bs 1 1) || nonzeroAt bs 2 2 || decide (2 ^ 57 ≤ fieldAt bs 8 8)
      || decide (2 ^ 57 ≤ fieldAt bs 16 8) || nonzeroAt bs 48 16, .badField),
    (decide (len = 0) || decide (rows = 0) || decide (1 < rows ∧ fieldAt bs 40 8 < len), .range),
    (e.poison, .poison)]

/-- The job of an entry. -/
def newCopy (q e head : Nat) (bs : List Byte) : CopyJob where
  queue := q
  sqHead := head
  tag := fieldAt bs 4 4
  irqNow := fieldAt bs 1 1 % 2 == 1
  order := fieldAt bs 1 1 / 2 % 2 == 1
  engine := e
  slot := none
  src := fieldAt bs 8 8
  dst := fieldAt bs 16 8
  len := fieldAt bs 24 4
  rows := fieldAt bs 28 4
  sstride := fieldAt bs 32 8
  dstride := fieldAt bs 40 8
  done := 0
  quota := none
  prog := .queued
  srcT := none
  dstT := none
  write := false
  code := .ok
  info := 0

/-- A job ends with a code: requests already sent complete. -/
def copyFail (s : State) (j : Nat) (c : Code) (info : Nat := 0) : State :=
  match s.copyJob j with
  | some x => s.setCopy j { x with prog := .issued, code := if x.code = .ok then c else x.code, info := info }
  | none => s

/-- A translation that a job holds serves an address. -/
def heldLeaf (s : State) (ctx va : Nat) (write : Bool) (t : Option TlbEntry) : Option Leaf :=
  match t with
  | some e =>
    if e.ctx = ctx ∧ e.epoch = s.epoch ctx ∧ e.va ≤ va ∧ va < e.va + e.leaf.size ∧ (write → e.leaf.wr) then some e.leaf
    else none
  | none => none

/-- A job waits for a walk; its engine walks for one job at a time. -/
def copyWalk (s : State) (j : Nat) (x : CopyJob) (ctx va : Nat) (write : Bool) : State :=
  let busy := (s.copiesOf x.engine).any fun kv => kv.1 != j && (match kv.2.prog with | .walking .. => true | _ => false)
  if busy then s.setCopy j { x with prog := .running }
  else (s.setCopy j { x with prog := .walking va (s.epoch ctx), write := write }).missed (.copy x.engine)

/-- The next piece of a job: source and destination VA, and bytes, cut at every granule of either side (R290). -/
def copyPiece (x : CopyJob) : Nat × Nat × Nat :=
  let r := x.done / x.len
  let o := x.done % x.len
  let src := (x.src + r * x.sstride + o) % 2 ^ 57
  let dst := (x.dst + r * x.dstride + o) % 2 ^ 57
  (src, dst, min (x.len - o) (min (64 - src % 64) (64 - dst % 64)))

end State

/-- How a piece of a copy job goes. -/
inductive Copied where
  | ok (s : State)
  /-- It waits, for a walk or for its port. -/
  | stop (s : State)

namespace State

/-- Move one piece (R387): an inbound job reads the host on its die's port and writes working memory, an
outbound one the other way round. -/
def copyStep (s : State) (j : Nat) (x : CopyJob) : Copied :=
  let ctx := s.qCtx x.queue
  let (src, dst, n) := copyPiece x
  let port := x.engine / 8
  let inbound := decide (x.engine % 8 < 4)
  let go := fun (s : State) => Copied.ok (s.setCopy j { x with prog := .running, done := x.done + n, quota := lessQuota x.quota 1 })
  if !s.ctxOn ctx then .stop (s.copyFail j .notMapped)
  else match s.heldLeaf ctx src false x.srcT, s.heldLeaf ctx dst true x.dstT with
  | none, _ => .stop (s.copyWalk j x ctx src false)
  | _, none => .stop (s.copyWalk j x ctx dst true)
  | some sl, some dl =>
    match s.place sl src, s.place dl dst, inbound with
    | .host h, .cis a, true =>
      if !s.mayTouch ctx a n then .stop (s.protEvt.copyFail j .protection)
      else if !s.leaves port ctx then .stop (s.setCopy j { x with prog := .running })
      else go (s.cisWrite a (s.host.readN h n))
    | .cis a, .host h, false =>
      if !s.mayTouch ctx a n || !s.egressOk ctx 0 h n then .stop (s.protEvt.copyFail j .protection)
      else
        let (bs, bad) := s.cisRead a n
        let s := s.hostWrite port (.copy j true h) ctx dst h bs bad
        if bad then
          let s := s.raise 0x04 x.engine .poison 0x01 (some ctx) 0 src
          .stop (s.copyFail j .poison s.lastSump)
        else go s
    | _, _, _ => .stop (s.copyFail j .range)

/-- Run a job as far as it goes; the number bounds the pieces left. -/
def copyRun (j : Nat) : Nat → State → State
  | 0, s => s
  | k + 1, s =>
    match s.copyJob j with
    | none => s
    | some x =>
      if x.len * x.rows ≤ x.done then s.setCopy j { x with prog := .issued }
      else if x.quota = some 0 then s.setCopy j { x with prog := .running }
      else match s.copyStep j x with
        | .ok s => copyRun j k s
        | .stop s => s

/-- A started job goes on. -/
def copyGo (s : State) (j : Nat) : State :=
  match s.copyJob j with
  | some x => if s.inReset 4 x.engine then s else copyRun j (x.len * x.rows + 1) s
  | none => s

/-- The lowest free job slot of an engine, of eight. -/
def copySlot (s : State) (e : Nat) : Option Nat :=
  (List.range 8).find? fun i => !(s.copiesOf e).any fun kv => kv.2.slot == some i

/-- A job leaves the fault records that its engine waits on, when no other job of it does. -/
def leaveCopy (s : State) (e rec_ : Nat) : State :=
  if (s.copiesOf e).any fun kv => (match kv.2.prog with | .halted r .. => r == rec_ | _ => false) then s
  else { s with recs := s.recs.mapV fun k r =>
    if k = rec_ then { r with waiters := r.waiters.filter fun w => w != .copy e } else r }

/-! ### Ending the work of contexts (R375, R429) -/

/-- A launch of a context ends with ABORTED, with its record at once when it has not started or waits to start
again. `again` says whether R350 may start it again. -/
def abortLaunch (s : State) (again : Bool) (kv : Nat × Launch) : State :=
  let (l, x) := kv
  let x := if again then x else { x with restartable := false }
  match x.phase with
  | .waiting => s.dropLaunch l x { plainRec x.queue x.tag x.sqHead .aborted with irqNow := x.irqNow }
  | .restart => (x.cores.foldl (freeCore l false) s).takeClasses.dropLaunch l x (s.endRec x .aborted)
  | _ => (s.setLaunch l x).endLaunch l .aborted none

/-- Copy jobs of contexts end with ABORTED. -/
def abortCopies (s : State) (f : Nat → Bool) : State :=
  (s.copies.filter fun kv => f (s.qCtx kv.2.queue)).foldl (fun s kv => s.copyFail kv.1 .aborted) s

/-- Queues that software has configured or used. -/
def usedQueues (s : State) : List Nat := (List.range 4096).filter fun q => s.qEn q || (s.queues.get? q).isSome

/-- A queue of a reset function: its EN clears, and its records go to the spill ring (R348). -/
def resetFnQueue (s : State) (q : Nat) : State :=
  let s := s.setFlag .feQCfg q 0 false
  let s := if (s.queue q).running = 0 ∧ (s.queue q).buf.isEmpty then { s with fetched := s.fetched.erase q }
    else s.blockQueue q
  s.flush q

end State

open State

/-! ### BAR2 and BAR4 -/

/-- HOST_BAR2_WRITE (R381, R382). -/
def execHostBar2Write (port : Fin 2) (fn : Fin 64) (a : BitVec 41) (bs : List Byte) (s : State) : Outcome :=
  if !s.portUp port.val || !s.appears port.val fn.val then .next s
  else
    let code := s.bar2Code fn.val a.toNat bs.length true
    if code = .ok then .next (s.cisWrite a.toNat bs)
    else
      let ours := fn.val = 0 || s.fnWindow fn.val a.toNat bs.length
      .next ((if code = .protection && ours then s.protEvt else s).bar2Refuse code)

/-- HOST_BAR2_READ (R381, R382); a sealed pool reads as ciphertext (R462), and poisoned data completes with the
poisoned attribute (R418). -/
def execHostBar2Read (port : Fin 2) (fn : Fin 64) (a : BitVec 41) (n : Nat) (s : State) : Outcome :=
  if !s.portUp port.val || !s.appears port.val fn.val then .next s
  else
    let code := s.bar2Code fn.val a.toNat n false
    if code = .ok then .next (s.emit (.readData (s.cisBytes a.toNat n 0) (s.cisBad a.toNat n)))
    else .next ((s.bar2Refuse code).emit .unsupported)

/-- REGION_WRITE (R383, R384). -/
def execRegionWrite (port : Fin 2) (rid : BitVec 16) (a : BitVec 38) (bs : List Byte) (poison : Bool) (s : State) :
    Outcome :=
  let r := a.toNat / 2 ^ 30
  let off := a.toNat % 2 ^ 30
  if !s.portUp port.val then .next s
  else if s.fld .rgnSize r 18 0 * 4096 ≤ off then .next (s.recordLast (.hifLast, 0) .range)
  else if !s.admits r rid off bs.length then .next (s.bump .rgnDrop r 1)
  else
    let s := s.cisWrite ((s.reg .rgnBase r).toNat * 4096 + off) bs poison
    .next (s.bump64 .rgnCntLo .rgnCntHi r bs.length)

/-- BAR4_READ (R383). -/
def execBar4Read (port : Fin 2) (_ : BitVec 38) (_ : Nat) (s : State) : Outcome :=
  if s.portUp port.val then .next (s.emit .unsupported) else .next s

/-- REGION_CLR (R384). -/
def execRegionClr (src : Src) (r : Fin 256) (s : State) : Outcome :=
  .next (s.busWrite src .rgnCtrl r.val 1 .ok (State.rgnCtrlEff r.val 1))

/-! ### Function level resets -/

/-- A device warm reset is triggered (R429): the cistern goes into self-refresh (R255). -/
def trigger (s : State) (cause : Nat) : State :=
  if s.warm.isSome || s.power ≠ .on then s else { s.selfRefresh with warm := some cause }

/-- VF_FLR (R375). -/
def execVfFlr (port : Fin 2) (fn : Fin 64) (s : State) : Outcome :=
  if !s.portUp port.val || !s.appears port.val fn.val || fn.val = 0 then .next s
  else
    let mine := fun ctx => s.ctxFn ctx == fn.val
    let s := ((s.usedQueues.filter fun q => mine (s.qCtx q)).foldl resetFnQueue s).abortCopies mine
    let s := (s.launches.filter fun kv => mine kv.2.ctx).foldl (abortLaunch · false ·) s
    let s := ((List.range 256).filter fun r => mine (s.fld .rgnCfg r 6 1)).foldl (fun s r => s.setFlag .rgnCfg r 0 false) s
    .next s.composeAll

/-- PF_FLR (R375, R429). -/
def execPfFlr (port : Fin 2) (s : State) : Outcome := if s.portUp port.val then .next (trigger s 3) else .next s

/-! ### Host ports and the line cache -/

/-- HOST_SNOOP (R379): the line leaves the line cache; the host may have written it. -/
def execHostSnoop (h : BitVec 64) (line : Option (List Byte)) (s : State) : Outcome :=
  let l := h.toNat / 64
  let s := if s.hlc.contains l then { s with hlc := setErase s.hlc l }.bump .hlcSnoop 0 1 else s
  match line with
  | some bs => .next { s with host := s.host.writeL (64 * l) (bs.take 64) }
  | none => .next s

/-- Writes that wait for a port leave in order, as far as they can (R284, R378). -/
def releaseWaits (port : Nat) : List HostWait → State → State
  | [], s => s
  | w :: ws, s =>
    if w.port ≠ port then releaseWaits port ws s
    else match s.portFor port w.ctx w.follows with
      | none => s
      | some s1 => releaseWaits port ws ({ s1 with hostWaits := s1.hostWaits.erase w }.hostSend port w.ctx w.addr w.bytes w.poison)

/-- The writes that wait for a port leave, then those of the other port that waited for it, and then the pending
messages (R378). -/
def releasePort (s : State) (port : Nat) : State :=
  let s := releaseWaits port s.hostWaits s
  let s := releaseWaits (1 - port) s.hostWaits s
  s.msixPend.foldl msixSend s

/-- HOST_LINK_UP (R374, R375): a port out of reset finishes training with the VFs that its configuration space enables, and
the writes that wait leave (R378). -/
def execHostLinkUp (port : Fin 2) (rate : Fin 6) (width : Fin 17) (link : PortLink) (s : State) : Outcome :=
  if s.power ≠ .on || s.perst.contains port.val || s.portUp port.val then .next s
  else
    let v := 1 + 2 * rate.val + 16 * width.val + 512 * bit link.cxl
    let fns := ((List.range 64).filter fun f => f != 0 && link.vfs.getLsbD f).map fun f => 64 * port.val + f
    let s := { s with vfs := s.vfs.filter (fun k => k / 64 != port.val) ++ fns }
    .next (releasePort (s.setFld .hifState 0 (16 * port.val + 9) (16 * port.val) v) port.val)

/-- HOST_LINK_DOWN (R378). -/
def execHostLinkDown (port : Fin 2) (s : State) : Outcome := .next (s.portDown port.val)

/-- The instruction or job whose host write waited too long ends (R378). -/
def endWaiter (s : State) (w : HostWait) : State :=
  match w.owner with
  | .dma c job _ => match s.job c job with
    | some j => dmaFail s c j .timeout none
    | none => s
  | .copy j _ _ => s.copyFail j .timeout
  | o => match ownerCore o with
    | some c => s.endLaunchOf c .timeout
    | none => s

/-- HOST_PORT_WAIT_TIMEOUT (R378, R334): the oldest write waiting for a port ends, or the fetch of a
queue that no port can carry stalls. -/
def execHostPortWaitTimeout (port : Fin 2) (q : Option (Fin 4096)) (s : State) : Outcome :=
  match q with
  | some q =>
    if s.hostOpen (s.qCtx q.val) || !s.qEn q.val || (s.queue q.val).fetch ≠ .active || (s.fetchNext q.val).2 = 0 then .next s
    else
      let va := s.entryVa q.val (s.fetchNext q.val).1
      match s.xlateEngine (s.fetcherOf q.val) (s.qCtx q.val) va false with
      | (.ok l, s1) =>
        (match s1.place l va with
        | .host _ => .next (s1.stallQueue q.val .timeout)
        | _ => .next s1)
      | (.error _, s1) => .next (s1.stallQueue q.val .notMapped)
  | none =>
    match s.hostWaits.find? fun w => w.port == port.val with
      | none => .next s
      | some w => .next (endWaiter { s with hostWaits := s.hostWaits.erase w } w)

/-- MSIX_UNMASK (R347): the pending message of the vector is sent. -/
def execMsixUnmask (port : Fin 2) (fn : Fin 64) (vec : Fin 2048) (s : State) : Outcome :=
  let k := msixKey port.val fn.val vec.val
  .next ({ s with msixMask := setErase s.msixMask k }.msixSend k)

/-! ### Copy engines -/

/-- COPY_ENTRY (R386, R387): an engine with fewer than 8 jobs takes the entry of its next queue. -/
def execCopyEntry (e : Fin 16) (s : State) : Outcome :=
  if 8 ≤ (s.copiesOf e.val).length then .next s
  else match s.nextCopyQueue e.val with
    | none => .next s
    | some q =>
      match s.takeEntry q with
      | none => .next s
      | some (x, s) =>
        let s := { s with turn := s.turn.set (144 + e.val) q }
        let code := copyCode x
        if code ≠ .ok then
          .next (s.post q (plainRec q (fieldAt x.bytes 4 4) (s.queue q).sqHead code (fieldAt x.bytes 1 1 % 2 == 1)))
        else
          let job := newCopy q e.val (s.queue q).sqHead x.bytes
          .next { s with copies := s.copies.set s.nextCopy job, nextCopy := s.nextCopy + 1 }

/-- COPY_JOB_START (R291, R386, R387): a taken job starts, under ORDER after every earlier job of its queue, and one that
has begun goes on, by so many pieces before other agents act; one halted on a record that was completed with OK walks
again. -/
def execCopyJobStart (start : JobStart) (s : State) : Outcome :=
  let j := start.job
  match s.copyJob j with
  | none => .next s
  | some x =>
    let x := { x with quota := start.quota }
    match x.prog with
    | .queued =>
      let earlier := s.copies.any fun kv => decide (kv.1 < j) && kv.2.queue == x.queue
      match s.copySlot x.engine with
      | some i => if x.order && earlier then .next s else .next ((s.setCopy j { x with slot := some i, prog := .running }).copyGo j)
      | none => .next s
    | .running => .next ((s.setCopy j x).copyGo j)
    | .halted _ va _ true => .next (s.copyWalk j x (s.qCtx x.queue) va x.write)
    | _ => .next s

/-- COPY_JOB_END (R387). -/
def execCopyJobEnd (j : Nat) (s : State) : Outcome :=
  match s.copyJob j with
  | none => .next s
  | some x =>
    if x.prog ≠ .issued || s.hostWaits.any (fun w => match w.owner with | .copy k _ _ => k == j | _ => false) then .next s
    else .next (({ s with copies := s.copies.erase j }.post x.queue
      { plainRec x.queue x.tag x.sqHead x.code x.irqNow with info := x.info }).composeAll)

end Sys2Proof.Machine
end

