-- ==== Sys2Proof/Machine/Translate.lean ====
section
/-!
DEFINITION. The events of address translation (R307 to R325): the end of a walk, the fault ring, the completion
of fault records, invalidations, and the host's translation service.
-/

namespace Sys2Proof.Machine

/-- The stream of a walk's operand. -/
def streamOf : StreamId → Stream
  | .core c => .core c.val
  | .dma c slot => .dma c.val slot.val
  | .copy e => .copy e.val

namespace State

/-! ### Ends of walks -/

/-- A control core's walk ends with a fault (R494). -/
def coreFault (s : State) (p : Nat) (x : Stall) (cause : Cause) : State :=
  let k := s.core p
  if !s.ctxHalt k.ctx then s.faultCore p x.cls x.func k.pc .notMapped
  else match s.faultStream (.core p) k.ctx x.va x.write cause with
    | (none, s) => s.faultCore p x.cls x.func k.pc .notMapped
    | (some r, s) =>
      let s := s.modCore p fun c => { c with stall := some { x with record := some r, ready := false, since := s.ticks } }
      match k.launch with
      | some l => if s.askedWay p then (s.keepStall l p).stopWaiting p else s
      | none => s

/-- A control core's walk ends (R307, R313, R494). -/
def coreWalked (s : State) (p : Nat) (x : Stall) : State :=
  let k := s.core p
  if !s.ctxOn k.ctx then s.faultCore p x.cls x.func k.pc .notMapped
  else if x.epoch ≠ s.epoch k.ctx then
    (s.modCore p fun c => { c with stall := some { x with epoch := s.epoch k.ctx } }).missed (.core p)
  else match s.walk (.core p) k.ctx x.va x.write with
    | (.leaf l, s) => reissue (s.tlbInstall p k.ctx x.va l) p x
    | (.poisoned, s) => s.faultCore p x.cls x.func k.pc .poison (some x.va)
    | (.fault cause, s) => s.coreFault p x cause

/-- A copy job's walk ends with a fault (R307, R387). -/
def copyFault (s : State) (j : Nat) (x : CopyJob) (va : Nat) (cause : Cause) : State :=
  let ctx := s.qCtx x.queue
  if !s.ctxHalt ctx then s.copyFail j .notMapped
  else match s.faultStream (.copy x.engine) ctx va x.write cause with
    | (none, s) => s.copyFail j .notMapped
    | (some r, s) => s.setCopy j { x with prog := .halted r va s.ticks false }

/-- A copy job's walk ends. -/
def copyWalked (s : State) (j : Nat) (x : CopyJob) (va epoch : Nat) : State :=
  let ctx := s.qCtx x.queue
  if !s.ctxOn ctx then s.copyFail j .notMapped
  else if epoch ≠ s.epoch ctx then (s.setCopy j { x with prog := .walking va (s.epoch ctx) }).missed (.copy x.engine)
  else match s.walk (.copy x.engine) ctx va x.write with
    | (.leaf l, s) =>
      let t := some ⟨ctx, va / l.size * l.size, epoch, l⟩
      (s.setCopy j (if x.write then { x with dstT := t, prog := .running } else { x with srcT := t, prog := .running })).copyGo j
    | (.poisoned, s) => s.copyFail j .poison
    | (.fault cause, s) => s.copyFault j x va cause

/-- The job of a copy engine that waits for a walk. -/
def copyWalking (s : State) (e : Nat) : Option (Nat × CopyJob × Nat × Nat) :=
  (s.copiesOf e).findSome? fun kv => match kv.2.prog with
    | .walking va epoch => some (kv.1, kv.2, va, epoch)
    | _ => none

/-- The oldest job of a copy engine that halts on an open record. -/
def copyHalted (s : State) (e : Nat) : Option (Nat × CopyJob × Nat) :=
  (s.copiesOf e).findSome? fun kv => match kv.2.prog with
    | .halted r _ _ false => some (kv.1, kv.2, r)
    | _ => none

/-- A stream of a pool waits for its walk. -/
def walksNow (s : State) : Stream → Bool
  | .core p => (s.core p).stall.any fun x => x.record.isNone && !x.ready
  | .dma p slot => (slotJob s p slot).any fun j => match j.prog with | .walking .. => true | _ => false
  | .copy e => (s.copyWalking e).isSome
  | .fetcher _ => false

/-- A stream holds a walker of its pool: walkers go to the streams with misses in turn (R312). -/
def holdsWalker (s : State) (st : Stream) : Bool :=
  ((s.walkQ.filter fun x => poolOf x == poolOf st && s.walksNow x).take (walkers (poolOf st))).contains st

/-- A stream's walk is over: its walker goes to the next. -/
def freeWalker (s : State) (st : Stream) : State := { s with walkQ := s.walkQ.erase st }

/-! ### The fault ring (R316 to R318) -/

/-- Check on XLT_FRING_HEAD. -/
def fringHeadCheck (s : State) (v : Word) : Code := if s.fringSize ≤ v.toNat then .range else .ok

/-- A waiter of a record is released with a code (R317, R176, R494). -/
def releaseWaiter (id : Nat) (code : Code) (s : State) : Stream → State
  | .core p =>
    match (s.core p).stall with
    | some x =>
      if x.record ≠ some id then s
      else if code = .ok then s.modCore p fun c => { c with stall := some { x with ready := true } }
      else s.faultCore p x.cls x.func (s.core p).pc code
    | none => s
  | .dma p slot =>
    match slotJob s p slot with
    | some j =>
      (match j.prog with
       | .halted r va since _ =>
         if r ≠ id then s
         else if code = .ok then s.modJob p j.id fun x => { x with prog := .halted r va since true }
         else s
       | _ => s)
    | none => s
  | .copy e =>
    (s.copiesOf e).foldl (fun s kv => match kv.2.prog with
      | .halted r va since _ =>
        if r ≠ id then s
        else if code = .ok then s.setCopy kv.1 { kv.2 with prog := .halted r va since true }
        else s.copyFail kv.1 code
      | _ => s) s
  | .fetcher _ => s

/-- The descriptor of a waiter that halts on a record. -/
def haltedOn (s : State) (id : Nat) : Stream → Option (Nat × Job)
  | .dma p slot => match slotJob s p slot with
    | some j => (match j.prog with | .halted r _ _ _ => if r = id then some (p, j) else none | _ => none)
    | none => none
  | _ => none

/-- A record closes: suspended launches that halt on it learn its code (R366), and its waiters are released. With another code
than OK each halted descriptor ends with that code before its launch does (R176). -/
def completeRec (s : State) (id : Nat) (r : FaultRec) (code : Code) : State :=
  let s := { s with
    recs := s.recs.erase id
    ringWait := s.ringWait.filter fun k => k != id
    launches := s.launches.mapV fun _ x => { x with halts := x.halts.map fun k =>
      if k.rec_ = id ∧ k.code.isNone then { k with code := some code } else k } }
  let ends := if code = .ok then [] else r.waiters.eraseDups.filterMap (s.haltedOn id)
  let s := ends.foldl (fun s (p, j) =>
    (s.modJob p j.id fun x => { x with prog := .issued }).modCore p fun k => endRecord k j.slot code) s
  let s := r.waiters.eraseDups.foldl (releaseWaiter id code) s
  ends.foldl (fun s (p, _) => s.endLaunchOf p code) s

/-- Checks on XLT_FCMP (R318). -/
def fcmpCheck (s : State) (v : Word) : Code :=
  firstCode [((s.recs.get? (v.toNat % 4096)).isNone, .state), ((Code.ofByte (v.toNat / 4096 % 256)).isNone, .range)]

/-- Effect of XLT_FCMP. -/
def fcmpEff (v : Word) (s : State) : State :=
  match s.recs.get? (v.toNat % 4096), Code.ofByte (v.toNat / 4096 % 256) with
  | some r, some code => s.completeRec (v.toNat % 4096) r code
  | _, _ => s

/-! ### Withdrawing a mapping (R309, R320 to R322) -/

/-- Discard the translations of a context that overlap a VA range, or all of them: TLB entries, walk-cache
entries, ATS translations and those that copy jobs hold. -/
def discard (s : State) (ctx : Nat) (range : Option (Nat × Nat)) : State :=
  let hit := fun (va n : Nat) => match range with | some r => rangesMeet (va, n) r | none => true
  let gone := fun (e : TlbEntry) => e.ctx == ctx && hit e.va e.leaf.size
  let held := fun (t : Option TlbEntry) => t.filter fun e => !gone e
  { s with
    cores := s.cores.mapV fun _ c => { c with tlb := c.tlb.filter fun e => !gone e }
    wcache := s.wcache.mapV fun _ l => l.filter fun e => !(e.ctx == ctx && hit (e.key * 2 ^ e.shift) (2 ^ e.shift))
    ats := s.ats.mapV fun _ l => l.filter fun e => e.ctx != ctx
    copies := s.copies.mapV fun _ x => { x with srcT := held x.srcT, dstT := held x.dstT } }

/-- A WAT that waits translates its address again after an invalidation (R320): its watch moves to the semaphore that the
new translation gives, or the WAT is rejected (R301). -/
def rewatch (s : State) (ctx : Nat) (range : Option (Nat × Nat)) (p : Nat) : State :=
  match (s.core p).wait with
  | some (.wat va a thr consume dci dst tmo order) =>
    if (s.core p).ctx ≠ ctx ∨ !(range.all fun r => rangesMeet (va, 8) r) then s
    else match s.semaphore p va consume with
      | (.error e, s) => s.failWait p 0x08 0x01 e (if e = .poison then some va else none)
      | (.ok b, s) =>
        if a = b then s else s.modCore p fun c => { c with wait := some (.wat va b thr consume dci dst tmo order) }
  | _ => s

/-- The range of an XLT_INV: none for the whole context. -/
def invRange (s : State) (v : Word) : Option (Nat × Nat) :=
  if v.getLsbD 6 then none
  else some (s.addr .xltInvVaHi 0 % 2 ^ 57, (s.reg .xltInvPages 0).toNat * 2 ^ 28)

/-- Checks on XLT_INV (R322). -/
def invCheck (s : State) (v : Word) : Code :=
  let range := s.invRange v
  firstCode [
    (s.inval.isSome, .busy),
    (!s.ctxOn (v.toNat % 64), .state),
    (match range with
     | some (va, _) => v.getLsbD 7 && va % 2 ^ 28 != 0
     | none => false, .align),
    (match range with
     | some (va, n) => (v.getLsbD 7 && n == 0) || decide (2 ^ 57 < va + n)
     | none => false, .range)]

/-- An invalidation begins: the epoch rises, and the translations in its range are discarded. -/
def beginInval (s : State) (ctx : Nat) (range : Option (Nat × Nat)) (ats : Bool) : State :=
  let s := s.setReg .ctxEpoch ctx (s.reg .ctxEpoch ctx + 1)
  let held := if ats then none else range
  let s := { s.discard ctx held with inval := some ⟨ctx, range, ats⟩ }
  ((s.cores.map (·.1)).foldl (rewatch · ctx held ·) s).setReg .xltInvState 0 1

/-- Effect of XLT_INV. -/
def invEff (v : Word) (s : State) : State :=
  if v.getLsbD 7 then s.beginInval (v.toNat % 64) (s.invRange v) false else s

/-- A request of the invalidated context and of an older epoch is in flight in the range. For a host
invalidation the range is one of host addresses. -/
def inFlight (s : State) (i : Inval) (ctx epoch va : Nat) : Bool :=
  ctx == i.ctx && epoch != s.epoch ctx &&
    (match i.range with | some r => decide (r.1 ≤ va) && decide (va < r.1 + r.2) | none => true)

def txnInFlight (s : State) (i : Inval) (t : Txn) : Bool := !i.ats && t.owner != .gone && s.inFlight i t.ctx t.epoch t.va
def waitInFlight (s : State) (i : Inval) (w : HostWait) : Bool := s.inFlight i w.ctx w.epoch (if i.ats then w.addr else w.va)

/-- A pending load in flight; a read of host memory is one that has neither a tag nor a line to fill, and a slot whose read
is still to be made makes none. -/
def loadInFlight (s : State) (i : Inval) (l : PendLoad) : Bool :=
  if l.data.isNone && l.tag.isNone then false
  else if i.ats then l.ctx == i.ctx && l.epoch != s.epoch l.ctx && l.tag.isNone && l.fill.isNone
  else s.inFlight i l.ctx l.epoch l.va

/-- An ACQ whose read has been performed and has not ended. -/
def acqInFlight (s : State) (i : Inval) (c : Core) : Bool :=
  match c.wait with
  | some (.acq va (some _) _ _ _ epoch host) =>
    if i.ats then host && c.ctx == i.ctx && epoch != s.epoch c.ctx else s.inFlight i c.ctx epoch va
  | _ => false

/-- Reads of a core in flight. -/
def coreInFlight (s : State) (i : Inval) (c : Core) : Bool := c.loads.any (s.loadInFlight i) || s.acqInFlight i c

/-- No request of an older epoch is in flight (R320). -/
def drained (s : State) (i : Inval) : Bool :=
  !(s.txns.any fun kv => s.txnInFlight i kv.2) && !(s.hostWaits.any (s.waitInFlight i)) &&
    !(s.cores.any fun kv => s.coreInFlight i kv.2)

/-- The requests to other modules that are still in flight are withdrawn: one that waits at its link is never sent, and the
answer of one that has left is dropped by its tag, which stays taken until then (R321, R427). -/
def withdraw (s : State) (i : Inval) : State :=
  let late := s.txns.filter fun kv => s.txnInFlight i kv.2
  let unsent := fun (t : Txn) => s.links.any fun kv => kv.2.wait.any fun w => w.pkt == t.pkt
  { s with
    txns := SMap.mapV (fun _ t => if s.txnInFlight i t then { t with owner := .gone } else t)
      (s.txns.filter fun kv => !(late.contains kv && unsent kv.2))
    links := s.links.mapV fun _ l => { l with wait := l.wait.filter fun w => !late.any fun kv => kv.2.pkt == w.pkt }
    hostWaits := s.hostWaits.filter fun w => !s.waitInFlight i w }

/-- An invalidation is done with a result. -/
def endInval (s : State) (i : Inval) (result : Code) (ended : Nat) : State :=
  let s := { s with inval := none }.setReg .xltInvState 0
    (BitVec.ofNat 32 (2 + 4 * result.toNat + 2 ^ 10 * min ended 0xFFF))
  if i.ats then s.emit (.atsDone i.ctx) else s

/-- End a Turlis request's owner with a code. -/
def endOwner (s : State) (o : Owner) (code : Code) : State :=
  match o with
  | .dma c job _ => match s.job c job with
    | some j => dmaFail s c j code none
    | none => s.endLaunchOf c code
  | .copy j _ _ => s.copyFail j code
  | o => match ownerCore o with
    | some c => s.endLaunchOf c code
    | none => s

/-- The launch or copy job that an owner belongs to. -/
def ownerJob (s : State) (o : Owner) : Option (Bool × Nat) :=
  match o with
  | .copy j _ _ => some (true, j)
  | o => match ownerCore o with
    | some c => (s.core c).launch.map fun l => (false, l)
    | none => none

/-- Checks on XLT_CTX_n_CFG: a launch of the context forbids every change but FMODE's. -/
def ctxCfgCheck (s : State) (n : Nat) (v : Word) : Code :=
  let old := s.reg .ctxCfg n
  firstCode [
    (s.flag .ctxCfg n 0 && decide (bitsOf v.toNat 9 5 ≠ s.fld .ctxCfg n 9 5), .state),
    (s.launches.any (fun kv => kv.2.ctx == n) && decide ((v ^^^ old) &&& 0x7FFFFFFD ≠ 0), .busy)]

/-- Effect of XLT_CTX_n_CFG: a change of EN discards every translation of the context, and setting it restarts
the epoch (R309). -/
def ctxCfgEff (n : Nat) (v : Word) (s : State) : State :=
  let was := s.flag .ctxCfg n 0
  let s := s.store .ctxCfg n v
  if was = v.getLsbD 0 then s
  else if was then s.discard n none
  else (s.discard n none).setReg .ctxEpoch n 0

end State

open State

/-! ### Events -/

/-- The walk of a stream ends with a translation or a fault, or is made again (R307, R313). -/
def walkDone (st : StreamId) (s : State) : Outcome :=
  match st with
  | .core c =>
    match (s.core c.val).stall with
    | some x => if x.record.isSome then .next s else .next (s.coreWalked c.val x)
    | none => .next s
  | .dma c slot =>
    let p := c.val
    match slotJob s p slot.val with
    | none => .next s
    | some j =>
      match j.prog with
      | .walking va epoch =>
        let ctx := (s.core p).ctx
        if !s.ctxOn ctx then .next (dmaFail s p j .notMapped none)
        else if epoch ≠ s.epoch ctx then
          .next ((s.modJob p j.id fun x => { x with prog := .walking va (s.epoch ctx) }).missed (.dma p j.slot))
        else .next (dmaWalked s p j va)
      | _ => .next s
  | .copy e =>
    match s.copyWalking e.val with
    | some (j, x, va, epoch) => .next (s.copyWalked j x va epoch)
    | none => .next s

/-- TRANSLATION_WALK_DONE (R307, R312, R313): the walk of a stream that holds a walker ends. -/
def execTranslationWalkDone (st : StreamId) (s : State) : Outcome :=
  if s.holdsWalker (streamOf st) then walkDone st (s.freeWalker (streamOf st)) else .next s

/-- FAULT_RING_WRITE (R316): the oldest waiting record is written when the ring has room. -/
def execFaultRingWrite (s : State) : Outcome :=
  match s.ringWait with
  | [] => .next s
  | id :: rest =>
    if s.fringFull then .next s
    else match s.recs.get? id with
    | none => .next { s with ringWait := rest }
    | some r =>
      let t := s.fld .fringTail 0 11 0
      let t' := (t + 1) % s.fringSize
      let phase := if t' = 0 then !s.ringPhase else s.ringPhase
      let s := s.cisWrite (s.addr .fringHi 0 + 32 * t) (r.bytes id s.ringPhase)
      let s := { s.setReg .fringTail 0 (BitVec.ofNat 32 t') with ringWait := rest, ringPhase := phase }
      .next (s.msix s.svcPort 0 (s.fld .hifCfg 0 11 1))

/-- FRING_HEAD_WRITE (R316). -/
def execFringHeadWrite (src : Src) (v : Word) (s : State) : Outcome :=
  .next (s.busWrite src .fringHead 0 v (s.fringHeadCheck v) fun s => s.store .fringHead 0 v)

/-- XLT_FCMP (R317, R318). -/
def execXltFcmp (src : Src) (v : Word) (s : State) : Outcome :=
  .next (s.busWrite src .xltFcmp 0 v (s.fcmpCheck v) (State.fcmpEff v))

/-- DMA_HALT_TIMEOUT (R176, R387, R494): a stream has been halted for longer than DMA_HALT_LIMIT. -/
def execDmaHaltTimeout (st : StreamId) (s : State) : Outcome :=
  match st with
  | .core c =>
    match (s.core c.val).stall with
    | some x =>
      if x.record.isSome && !x.ready then .next (s.faultCore c.val x.cls x.func (s.core c.val).pc .timeout)
      else .next s
    | none => .next s
  | .dma c slot =>
    match slotJob s c.val slot.val with
    | some j =>
      (match j.prog with
       | .halted _ _ _ false => .next (dmaFail (leaveRec s c.val slot.val) c.val j .timeout none)
       | _ => .next s)
    | none => .next s
  | .copy e =>
    match s.copyHalted e.val with
    | some (j, _, r) => .next ((s.copyFail j .timeout).leaveCopy e.val r)
    | none => .next s

/-! ### Invalidation -/

/-- XLT_INV (R320 to R322). -/
def execXltInv (src : Src) (v : Word) (s : State) : Outcome :=
  .next (s.busWrite src .xltInv 0 v (s.invCheck v) (State.invEff v))

/-- INVALIDATION_DONE (R320). -/
def execInvalidationDone (s : State) : Outcome :=
  match s.inval with
  | some i => if s.drained i then .next (s.endInval i .ok 0) else .next s
  | none => .next s

/-- INVALIDATION_DRAIN_TIMEOUT (R321): the owners of the requests still in flight end with TIMEOUT, and the
requests' answers will be dropped. -/
def execInvalidationDrainTimeout (s : State) : Outcome :=
  match s.inval with
  | none => .next s
  | some i =>
    if s.drained i then .next s
    else
      let ts := (s.txns.filter fun kv => s.txnInFlight i kv.2).map fun kv => kv.2.owner
      let ws := (s.hostWaits.filter (s.waitInFlight i)).map (·.owner)
      let ls := (s.cores.filter fun kv => s.coreInFlight i kv.2).map fun kv => Owner.load kv.1
      let owners := ts ++ ws ++ ls
      let ended := (owners.filterMap s.ownerJob).eraseDups.length
      .next ((owners.foldl (fun s o => s.endOwner o .timeout) (s.withdraw i)).endInval i .timeout ended)

/-- CTX_ENABLE_WRITE (R309). -/
def execCtxEnableWrite (src : Src) (n : Fin 64) (v : Word) (s : State) : Outcome :=
  .next (s.busWrite src .ctxCfg n.val v (s.ctxCfgCheck n.val v) (State.ctxCfgEff n.val v))

/-! ### The host's translation service (R325) -/

/-- ATS_INVALIDATION (R325): performed as an invalidation of a host range; it waits while another runs. -/
def execAtsInvalidation (n : Fin 64) (lo : DWord) (pages : Nat) (s : State) : Outcome :=
  if s.inval.isSome then .next s
  else if !s.ctxOn n.val then .next (s.emit (.atsDone n.val))
  else .next (s.beginInval n.val (some (lo.toNat, pages * 4096)) true)

/-- ATS_TRANSLATION_RESPONSE (R325): the translation that the host grants for the host page that a VA reaches enters the cache
of an X die; a refusal is a fault of the stream that asked. -/
def execAtsTranslationResponse (die : Fin 2) (n : Fin 64) (st : StreamId) (va : BitVec 57) (answer : Option (BitVec 52))
    (s : State) : Outcome :=
  let ctx := n.val
  if !s.ctxOn ctx || !s.flag .ctxCfg ctx 2 then .next s
  else match answer with
  | some hpa =>
    match s.walk (streamOf st) ctx va.toNat false with
    | (.leaf l, s') =>
      match s'.place l va.toNat with
      | .host h =>
        .next { s' with ats := s'.ats.set die.val ((⟨ctx, s'.epoch ctx, h / 4096, hpa.toNat⟩ :: s'.ats.getD die.val []).take 4096) }
      | _ => .next s
    | _ => .next s
  | none => match st with
  | .core c =>
    match (s.core c.val).stall with
    | some x => if x.record.isNone && (s.core c.val).ctx == ctx then .next (s.coreFault c.val x .atsFail) else .next s
    | none => .next s
  | .dma c slot =>
    match slotJob s c.val slot.val with
    | some j =>
      (match j.prog with
       | .walking .. | .running => if (s.core c.val).ctx == ctx then .next (dmaFault s c.val j va.toNat .atsFail) else .next s
       | _ => .next s)
    | none => .next s
  | .copy e =>
    match (s.copiesOf e.val).find? fun kv => s.qCtx kv.2.queue == ctx &&
        (match kv.2.prog with | .walking .. | .running => true | _ => false) with
    | some (j, x) => .next (s.copyFault j x va.toNat .atsFail)
    | none => .next s

end Sys2Proof.Machine
end

