-- ==== Sys2Proof/Machine/Turlis.lean ====
section
/-!
DEFINITION. The Turlis link (R388 to R411): flits, credits and replay, routing, remote memory and arrival
counters, digests of collective contributions, link training, and lane failover; the pluggables of the cages
(R481).
-/

namespace Sys2Proof.Machine

namespace State

/-! ### Answers -/

/-- The response, or none, of a request (R397). -/
def reply (s : State) (p : Packet) (type arg : Nat) (body : List Byte := []) (pmask : Nat := 0) : State :=
  s.sendCtl ⟨p.src, 0, 0, type, false, p.tag, pmask, p.addr, arg, body⟩

/-- What a Turlis transaction belongs to ends with a code (R89, R174, R397). -/
def failTxn (s : State) (t : Nat) (x : Txn) (code : Code) : State :=
  let s := match x.owner with
    | .load c =>
      (match (s.core c).loads.find? fun l => l.tag == some t with
       | some l =>
         if l.kind.isSlot then s.modCore c fun k => slotFailed k t code else s.faultCore c l.cls l.func l.pc code
       | none => s)
    | .acq c =>
      (match (s.core c).wait with
       | some (.acq _ _ _ _ (some u) _ _) => if u = t then s.failWait c 0x08 0x03 code else s
       | _ => s)
    | .part .. | .update .. | .relay .. => lkAnswer s x.owner ⟨0, 0, 0, [], 0, 0, false, [], code⟩
    | .other => s
    | o => s.endOwner o code
  drainLk s

/-- A request packet ends with a NAK to its source, here or on another node (R400, R402). -/
def refuse (s : State) (p : Packet) (code : Code) : State :=
  if p.src ≠ s.node then s.reply p 0x14 code.toNat
  else match s.takeTxn p with
    | (some x, s) => s.failTxn (p.tag % 16384) x code
    | (none, s) => s

/-- A packet that cannot be sent (R400). -/
def undeliverable (s : State) (p : Packet) : State :=
  let s := s.bump .tlkNoroute 0 1
  if p.type < 0x10 then s.refuse p .link else s

/-- A packet leaves by the route of its destination, `hops` links crossed. -/
def forward (s : State) (p : Packet) (hops : Nat) : State :=
  match s.route p.dst hops with
  | some l => s.sendOn l { p with hops := hops }
  | none => s.undeliverable p

/-! ### Flits (R391 to R394, R396) -/

/-- Length and fields that a packet of a type may have (R396). -/
def pktOk (p : Packet) : Bool :=
  let n := p.body.length
  match p.type with
  | 0x01 => decide (1 ≤ n ∧ n ≤ 2048 ∧ p.addr < 2 ^ 44 ∧ p.arg = 0)
  | 0x02 => decide (n = 0 ∧ p.addr < 2 ^ 44 ∧ 1 ≤ p.arg ∧ p.arg ≤ 2048)
  | 0x03 =>
    let k := bitsOf p.arg 31 16
    let wgt := bitsOf p.arg 34 34
    decide (n = k * (8 + 4 * wgt) ∧ 1 ≤ k ∧ n ≤ 2048 ∧ p.addr < 2 ^ 16 ∧ p.arg < 2 ^ 35)
  | 0x04 => decide (1 ≤ n ∧ n ≤ 2048 ∧ n % 4 = 0 ∧ p.addr < 2 ^ 42 ∧ p.arg < 2 ^ 28)
  | 0x10 => decide (n = 0 ∧ p.addr < 2 ^ 44 ∧ p.arg = 0)
  | 0x11 => decide (1 ≤ n ∧ n ≤ 2048 ∧ p.addr < 2 ^ 44 ∧ p.arg = n)
  | 0x12 => decide (n ≤ 2048 ∧ n % 4 = 0 ∧ p.addr = 0 ∧ p.arg < 2 ^ 26)
  | 0x13 => decide (n = 0 ∧ p.addr = 0 ∧ p.arg = 0)
  | 0x14 => decide (n = 0 ∧ p.arg < 256)
  | 0x20 => decide (n = 0 ∧ p.addr = 0 ∧ p.arg < 2 ^ 18)
  | 0x21 => decide (n = 0 ∧ p.addr < 2 ^ 45)
  | 0x22 => decide (n = 0 ∧ p.addr < 2 ^ 44 ∧ p.arg = 0)
  | 0x23 => decide (n = 0 ∧ p.addr < 2 ^ 44 ∧ p.arg < 8)
  | _ => false

/-- A packet goes on towards its destination: the credits that it holds where it came in are freed as it leaves, or as it
is dropped (R393, R400). -/
def pass (s : State) (p : Packet) (back : Option (Nat × Nat)) : State :=
  match s.route p.dst p.hops with
  | some l => s.sendOn l p back
  | none => (s.giveBack back (pktCredits p)).undeliverable p

/-- The bytes of a packet have arrived on a link: it is dropped, kept for this node, or forwarded (R396, R400). -/
def arrivePkt (l : Nat) (s : State) (raw : List Byte) : State :=
  let s := s.bump64 .lnkRxLo .lnkRxHi l raw.length
  let drop := (s.recordLast (.lnkLast, l) .badField).giveBack (some (l, rawClass raw)) (rawCredits raw)
  match packetOf raw with
  | none => drop
  | some p =>
    if !pktOk p then drop
    else if p.type = 0x20 ∨ p.dst = s.node then s.setLink l { s.lnk l with rx := (s.lnk l).rx ++ [p] }
    else s.pass { p with pool := false, hops := p.hops + 1 } (some (l, rawClass raw))

/-- The number that ten bits of a flit name, counted on from a number that it is not behind. -/
def unwrap (from_ bits : Nat) : Nat := from_ + (bits + 1024 - from_ % 1024) % 1024

/-- ACK and the credit counts of a flit (R391, R394). -/
def absorb (s : State) (l : Nat) (f : Flit) : State :=
  let x := s.lnk l
  let acked := if unwrap x.acked (flitAck f) < x.txSeq then unwrap x.acked (flitAck f) else x.acked
  let seen := (List.range 5).map fun i =>
    let old := x.seen.getD i 0
    let new := unwrap old (flitCredit f i)
    if new ≤ old + 768 then new else old
  s.setLink l { x with acked := acked, replay := x.replay.filter (fun r => decide (acked < r.1)), seen := seen }

/-- Send again from ACK + 1 (R391). -/
def sendAgain (s : State) (l : Nat) : State :=
  let x := s.lnk l
  if x.txSeq ≤ x.acked + 1 then s else (s.bump .lnkReplays l 1).emit (.replay l (x.acked + 1))

/-! ### Leaving UP (R402) -/

/-- A link as training leaves it; packets that came in by it owe it no credits. -/
def resetLink (s : State) (l : Nat) : State :=
  let forget := fun (w : Waiting) => match w.back with
    | some (k, _) => if k = l then { w with back := none } else w
    | none => w
  { s with links := (s.links.mapV fun _ x => { x with wait := x.wait.map forget }).set l Link.reset }

/-- A link takes a state; one that was in service loses its replay buffer (R402). -/
def leaveUp (s : State) (l st : Nat) : State :=
  let x := s.lnk l
  let up := s.linkUp l
  let s := s.setFld .lnkState l 6 0 st
  let s := s.resetLink l
  if !up then s
  else
    let s := ((x.replay.map (·.2)).filter fun p => decide (p.type < 0x10)).foldl (fun s p => s.refuse p .link) s
    -- A packet that waits takes another link or is undeliverable.
    x.wait.foldl (fun s w => s.pass w.pkt w.back) s

/-! ### Arrival counters (R404, R407 to R409) -/

/-- Range of a Turlis counter. -/
def cntRange (s : State) (i : Nat) : Nat × Nat := (s.fld .cntBase i 27 0 * 65536, s.fld .cntSize i 27 0 * 65536)

/-- Enabled counters whose range a write meets. -/
def cntsMet (s : State) (a n : Nat) : List Nat :=
  (List.range 256).filter fun i => s.flag .cntCfg i 0 && rangesMeet (a, n) (s.cntRange i)

/-- A counter admits a node. -/
def cntAdmits (s : State) (i node : Nat) : Bool := s.flag .cntCfg i 8 || s.fld .cntCfg i 20 9 == node

def cntChunk (s : State) (i c : Nat) : Chunk := (s.cntChunks.getD i []).getD c noChunk
def setCntChunk (s : State) (i c : Nat) (x : Chunk) : State :=
  { s with cntChunks := s.cntChunks.set i ((s.cntChunks.getD i []).set c x) }

/-- A chunk starts afresh. -/
def dropChunk (s : State) (i c : Nat) : State :=
  let m := (s.cntChunks.getD i []).erase c
  { s with cntChunks := s.cntChunks.set i m }

/-- Local address of a chunk of a counter. -/
def chunkAt (s : State) (i c : Nat) : Nat := (s.cntRange i).1 + 65536 * c

/-- BYTES of a counter rises. -/
def addBytes (s : State) (i n : Nat) : State := s.bump64 .cntBytesLo .cntBytesHi i n

/-- The sump entry of a disagreement (R409): both nodes, the chunk and the class; its unit is the link to the
peer. -/
def chunkSump (s : State) (peer at_ cls : Nat) : State :=
  s.raise 0x05 ((s.route peer 0).getD 0xFFF) (if cls = 0 then .ok else .digest) 0x01 none 0 at_
    (peer + 2 ^ 12 * s.node + 2 ^ 24 * cls)

/-- Cores that wait on a counter that has failed end their launches (R409). -/
def failCwt (s : State) (i : Nat) : State :=
  (s.cores.filter fun kv => match kv.2.wait with | some (.cwt 2 j ..) => j == i | _ => false).foldl
    (fun s kv => s.failWait kv.1 0x08 0x04 .digest) s

/-- A disagreement is settled at the receiver with a class (R408, R409). -/
def settle (s : State) (i c cls : Nat) : State :=
  let x := s.cntChunk i c
  let at_ := s.chunkAt i c
  let s := s.dropChunk i c
  let s := if cls = 0 then s.addBytes i 65536 else s
  let s := s.setReg .cntFail i (BitVec.ofNat 32 (c % 2 ^ 24 + 2 ^ 24 * cls))
  let more := (s.cntChunks.getD i []).any fun kv => kv.2.settling.isSome
  let state := if cls ≠ 0 ∨ s.fld .cntCfg i 22 21 = 2 then 2 else if more then 1 else 0
  let s := s.setFld .cntCfg i 22 21 state
  let s := (s.sendCtl ⟨x.peer, 0, 0, 0x23, false, 0, 0, at_, cls, []⟩).chunkSump x.peer at_ cls
  if cls = 0 then s else s.failCwt i

/-- Key of a counter. -/
def cntKey (s : State) (i : Nat) : Nat := s.reg64 .cntKeyLo .cntKeyHi i

/-- A chunk whose bytes are performed and whose digest has come is checked (R407, R408). -/
def checkChunk (s : State) (i c : Nat) : State :=
  let x := s.cntChunk i c
  match x.settling, x.digest, x.resent with
  | none, some d, _ =>
    if x.bytes < 65536 then s
    else if x.sum = d then (s.dropChunk i c).addBytes i 65536
    else
      let s := s.setCntChunk i c { x with bytes := 0, sum := 0, settling := some s.ticks }
      let s := if s.fld .cntCfg i 22 21 = 2 then s else s.setFld .cntCfg i 22 21 1
      s.sendCtl ⟨x.peer, 0, 0, 0x22, false, 0, 0, s.chunkAt i c, 0, []⟩
  | some _, some d, some d2 =>
    if d2 ≠ d then s.settle i c 2
    else if x.bytes < 65536 then s
    else if x.sum ≠ d2 then s.settle i c 1
    else if digestWords (s.cntKey i) 0 (s.cisRead (s.chunkAt i c) 65536).1 ≠ d2 then s.settle i c 3
    else s.settle i c 0
  | _, _, _ => s

/-- Bytes of an admitted write enter a counter (R404, R407). -/
def arriveBytes (a : Nat) (bs : List Byte) (s : State) (i : Nat) : State :=
  let (base, size) := s.cntRange i
  let lo := max a base
  let hi := min (a + bs.length) (base + size)
  if !s.flag .cntCfg i 7 then s.addBytes i (hi - lo)
  else (cutRow 65536 (lo - a) 0 lo (hi - lo)).foldl (fun s x =>
    let c := (x.dev - base) / 65536
    let y := s.cntChunk i c
    let sum := (y.sum + digestWords (s.cntKey i) ((x.dev - base) % 65536 / 8) ((bs.drop x.off).take x.n)) % digestP
    (s.setCntChunk i c { y with bytes := y.bytes + x.n, sum := sum }).checkChunk i c) s

/-- The counter with DIGEST that watches a chunk address of a sender. -/
def chunkCnt (s : State) (at_ node : Nat) : Option Nat :=
  (s.cntsMet at_ 1).find? fun i => s.flag .cntCfg i 7 && s.cntAdmits i node

/-- The digest stream that sends a chunk to a node. -/
def chunkDs (s : State) (at_ node : Nat) : Option Nat :=
  (List.range 256).find? fun i => s.flag .dsCfg i 0 && s.fld .dsCfg i 30 19 == node && rangesMeet (at_, 1) (s.dsRange i)

/-! ### Remote memory (R169, R170, R403) -/

/-- Write bytes, which clears the poison of the granules written whole, and mark the granules that a PMASK names (R403). -/
def maskedWrite (put : State → Nat → List Byte → Bool → State) (s : State) (a mask : Nat) (bs : List Byte) : State :=
  ((List.range ((bs.length + 63) / 64)).filter mask.testBit).foldl
    (fun s g => put s (a + 64 * g) ((bs.drop (64 * g)).take 64) true) (put s a bs false)

/-- The open remote window of a core that admits a write of a node (R169). -/
def windowFor (s : State) (p off n node : Nat) : Option Nat :=
  (List.range 4).find? fun w =>
    let i := 4 * p + w
    s.flag .dmaWinCfg i 31 && (s.flag .dmaWinCfg i 28 || s.fld .dmaWinCfg i 27 16 == node) &&
      decide (s.fld .dmaWinCfg i 7 0 * 4096 ≤ off) &&
      decide (off + n ≤ (s.fld .dmaWinCfg i 7 0 + s.fld .dmaWinCfg i 15 8 + 1) * 4096)

/-- Base and size of the scratchpad aperture (R304). -/
def apertureBase : Nat := 0xF0000000000
def apertureSize : Nat := 0x90000000

/-- A WRITE to the scratchpad aperture (R169, R170). -/
def padArrive (s : State) (q : Packet) : State :=
  let o := q.addr - apertureBase
  let n := q.body.length
  let p := s.physCore (o / 2 ^ 20 / 16) (o / 2 ^ 20 % 16)
  let off := o % 2 ^ 20
  match s.windowFor p off n q.src with
  | some w =>
    let s := maskedWrite (fun s a bs bad => s.padWrite p a bs bad) s off q.pmask q.body
    (s.bump64 .dmaWinLo .dmaWinHi (4 * p + w) n).reply q 0x10 0
  | none => s.reply q 0x14 Code.busy.toNat

/-- A WRITE to working memory (R403, R404). -/
def cisArrive (s : State) (q : Packet) : State :=
  let met := s.cntsMet q.addr q.body.length
  if met.any fun i => !s.cntAdmits i q.src then s.reply q 0x14 Code.protection.toNat
  else
    let s := maskedWrite (fun s a bs bad => s.cisWrite a bs bad) s q.addr q.pmask q.body
    let s := (s.cntsMet q.addr 1).foldl (fun s i => s.setReg .cntPackets i (s.reg .cntPackets i + 1)) s
    (met.foldl (arriveBytes q.addr q.body) s).reply q 0x10 0

/-- PMASK of a body read from working memory. -/
def cisMask (s : State) (a n : Nat) : Nat :=
  ((List.range ((n + 63) / 64)).map fun g => if s.cisBad (a + 64 * g) (min 64 (n - 64 * g)) then 2 ^ g else 0).sum

/-- A packet of a type for this node, as its command performs it. -/
def forMe (s : State) (p : Packet) (type : Nat) : Bool := p.type == type && p.dst == s.node && pktOk p

/-! ### Training (R389, R410, R411) -/

/-- A cage powers its links (R481). -/
def cageOk (s : State) (l : Nat) : Bool := s.cages.getD (l / 4) 0 == 1

/-- A link has trained: its traffic counters restart, and it sends its HELLO. -/
def trained (s : State) (l : Nat) : State :=
  let s := s.setFld .lnkState l 6 0 2
  let s := s.resetLink l
  let s := (s.setReg64 .lnkTxLo .lnkTxHi l 0).setReg64 .lnkRxLo .lnkRxHi l 0
  s.sendOn l ⟨s.fld .lnkNbr l 11 0, 0, s.node, 0x20, false, 0, 0, 0, s.node + 2 ^ 12 * l, []⟩

/-- Checks on TLK_L_n_CTRL. -/
def lnkCtrlCheck (s : State) (l : Nat) (v : Word) : Code :=
  if v.getLsbD 1 && (s.flag .lnkCtrl l 0 || v.getLsbD 0) then .state else .ok

/-- Effect of TLK_L_n_CTRL: DISABLE holds the link DISABLED, and RETRAIN takes it into training.
Without a valid topology entry every link stays DISABLED (R457). -/
def lnkCtrlEff (l : Nat) (v : Word) (s : State) : State :=
  let was := s.flag .lnkCtrl l 0
  let s := s.store .lnkCtrl l (v &&& 1)
  if s.flag .secState 0 18 then s
  else if v.getLsbD 0 then (if was then s else s.leaveUp l 0)
  else
    let s := if was then s.setFld .lnkState l 2 0 1 else s
    if v.getLsbD 1 then (if s.cageOk l && s.power == .on then s.leaveUp l 2 else s.leaveUp l 1) else s

/-- CLR of TLK_CNT_i_CTRL. -/
def cntCtrlCheck (s : State) (i : Nat) (v : Word) : Code :=
  if v.getLsbD 0 && s.fld .cntCfg i 22 21 == 1 then .busy else .ok

def cntCtrlEff (i : Nat) (v : Word) (s : State) : State :=
  if v.getLsbD 0 then
    { (s.setReg64 .cntBytesLo .cntBytesHi i 0).setReg .cntPackets i 0 with cntChunks := s.cntChunks.erase i }
  else s

end State

open State

/-! ### Flits -/

/-- FLIT_RECEIVE (R391 to R394, R396, R400). -/
def execFlitReceive (link : Fin 36) (f : Flit) (s : State) : Outcome :=
  let l := link.val
  if s.fld .lnkState l 2 0 < 2 then .next s
  else
    let s := (s.bump .lnkFecCorr l f.corrected).bump .lnkFecUnc l f.bad
    if f.bad ≠ 0 ∨ !flitCrcOk f then
      let s := if flitCrcOk f then s else s.bump .lnkCrcErr l 1
      .next (s.setLink l { s.lnk l with rpl := true })
    else
      let s := s.absorb l f
      let s := if flitRpl f then s.sendAgain l else s
      let x := s.lnk l
      let (pkts, part) := packetsOf x.part (flitFirst f) (flitArea f)
      let s := if flitIdle f ∨ flitSeq f ≠ (x.rxSeq + 1) % 1024 then s
        else pkts.foldl (arrivePkt l) (s.setLink l { x with rxSeq := x.rxSeq + 1, rpl := false, part := part })
      .next (s.pump l)

/-! ### Requests of other nodes -/

/-- WRITE (R403, R404, R169, R170). -/
def execWrite (_ : Fin 36) (p : Packet) (s : State) : Outcome :=
  if !s.forMe p 0x01 then .next s
  else
    let s := s.consume p
    if p.addr + p.body.length ≤ s.workSize then .next (s.cisArrive p)
    else if apertureBase ≤ p.addr ∧ p.addr + p.body.length ≤ apertureBase + apertureSize then .next (s.padArrive p)
    else .next (s.reply p 0x14 Code.range.toNat)

/-- READ (R403, R462). -/
def execRead (_ : Fin 36) (p : Packet) (s : State) : Outcome :=
  if !s.forMe p 0x02 then .next s
  else
    let s := s.consume p
    if s.workSize < p.addr + p.arg then .next (s.reply p 0x14 Code.range.toNat)
    else if s.touchesSealed p.addr p.arg then .next (s.protEvt.reply p 0x14 Code.protection.toNat)
    else .next (s.reply p 0x11 p.arg (s.cisRead p.addr p.arg).1 (s.cisMask p.addr p.arg))

/-! ### Answers -/

/-- WACK (R283, R397): the write is complete. -/
def execWack (_ : Fin 36) (p : Packet) (s : State) : Outcome :=
  if !s.forMe p 0x10 then .next s else .next (drainLk (s.takeTxn p).2)

/-- The bytes of a read go where it began (R397, R403). -/
def readDone (s : State) (t : Nat) (x : Txn) (p : Packet) : State :=
  match x.owner with
  | .load c =>
    let got := fun (l : PendLoad) =>
      if l.tag = some t then { l with data := some p.body, poison := p.pmask != 0, tag := none } else l
    s.modCore c fun k => { k with loads := k.loads.map got }
  | .acq c => s.modCore c fun k => match k.wait with
      | some (.acq va _ dci dst (some u) epoch host) =>
        if u = t then { k with wait := some (.acq va (some (BitVec.ofNat 64 (leNat p.body), p.pmask != 0)) dci dst none epoch host) } else k
      | _ => k
  | .dma c _ pad => maskedWrite (fun s a bs bad => s.padWrite c a bs bad) s pad p.pmask p.body
  | _ => s

/-- RDATA (R397). -/
def execRdata (_ : Fin 36) (p : Packet) (s : State) : Outcome :=
  if !s.forMe p 0x11 then .next s
  else match s.takeTxn p with
    | (some x, s) => .next (drainLk (readDone s (p.tag % 16384) x p))
    | (none, s) => .next s

/-- NAK (R397): the transaction ends with its code; a write that BUSY refuses is tried again (R170). -/
def execNak (_ : Fin 36) (p : Packet) (s : State) : Outcome :=
  if !s.forMe p 0x14 then .next s
  else
    let t := p.tag % 16384
    let code := (Code.ofByte p.arg).getD .link
    match s.takeTxn p with
    | (none, s) => .next s
    | (some x, s) =>
      if code = .busy ∧ x.pkt.type = 0x01 then
        .next { s with txns := s.txns.set t { x with refused := some (x.refused.getD s.ticks), retry := true } }
      else .next (s.failTxn t x code)

/-- REMOTE_WRITE_RETRY (R170, R403): a refused write is sent again. -/
def execRemoteWriteRetry (tag : Nat) (s : State) : Outcome :=
  match s.txns.get? tag with
  | none => .next s
  | some x =>
    if !x.retry then .next s
    else match s.route x.pkt.dst 0 with
      | some l => .next ({ s with txns := s.txns.set tag { x with retry := false, since := s.ticks } }.sendOn l x.pkt)
      | none => .next (({ s with txns := s.txns.erase tag }.bump .tlkNoroute 0 1).failTxn tag x .link)

/-- REMOTE_WRITE_RETRY_LIMIT (R170): 100 µs of refusals. -/
def execRemoteWriteRetryLimit (tag : Nat) (s : State) : Outcome :=
  match s.txns.get? tag with
  | none => .next s
  | some x => if x.refused.isNone then .next s else .next ({ s with txns := s.txns.erase tag }.failTxn tag x .protection)

/-- TRANSACTION_TIMEOUT (R397): 1 ms without an answer. -/
def execTransactionTimeout (tag : Nat) (s : State) : Outcome :=
  match s.txns.get? tag with
  | none => .next s
  | some x => if x.retry then .next s else .next ({ s with txns := s.txns.erase tag }.failTxn tag x .timeout)

/-! ### Digests -/

/-- DIGEST (R407, R408). -/
def execDigest (_ : Fin 36) (p : Packet) (s : State) : Outcome :=
  if !s.forMe p 0x21 then .next s
  else
    let s := s.consume p
    let at_ := p.addr % 2 ^ 44
    match s.chunkCnt at_ p.src with
    | none => .next s
    | some i =>
      let c := (at_ - (s.cntRange i).1) / 65536
      let x := s.cntChunk i c
      let x := if p.addr.testBit 44 then (if x.settling.isSome then { x with resent := some p.arg } else x)
        else { x with digest := some p.arg, peer := p.src }
      .next ((s.setCntChunk i c x).checkChunk i c)

/-- RESEND (R408): the sender reads the chunk again, sends its bytes and their digest. It waits until the 32
transaction tags that the chunk takes are free. -/
def execResend (_ : Fin 36) (p : Packet) (s : State) : Outcome :=
  if !s.forMe p 0x22 then .next s
  else match s.chunkDs p.addr p.src with
  | none => .next (s.consume p)
  | some i =>
    let die := match s.route p.src 0 with | some l => l / 18 | none => 0
    if 8160 < (s.txns.filter fun kv => kv.1 / 8192 == die).length then .next s
    else
      let s := s.consume p
      let c := (p.addr - (s.dsRange i).1) / 65536
      let at_ := (s.dsRange i).1 + 65536 * c
      let core := s.dsCore i
      let pad := (s.fld .dsGeom i 8 5 + c) * 65536
      let x := s.dsChunk i c
      let d2 := digestWords (s.dsKey i) 0 (s.padRead core pad 65536).1
      let send := fun (s : State) (k : Nat) =>
        let o := pad + 2048 * k
        match s.request .other noCtx 0
            (State.writePkt p.src (at_ + 2048 * k) (s.padRead core o 2048).1 (pmaskOf s core o 2048)) with
        | .sent _ s => s
        | .waits => s
        | .undeliverable s => s
      let s := (List.range 32).foldl send s
      let s := s.setDsChunk i c { x with settling := some s.ticks, resent := some d2 }
      let s := if x.digest = some d2 then s
        else (s.setReg .dsFail i (BitVec.ofNat 32 (c + 2 ^ 25))).setFlag .dsCfg i 31 true
      .next (s.sendCtl (digestPkt p.src at_ d2 true))

/-- VERDICT (R408, R409): the sender records the class of a settled disagreement. -/
def execVerdict (_ : Fin 36) (p : Packet) (s : State) : Outcome :=
  if !s.forMe p 0x23 then .next s
  else
    let s := s.consume p
    match s.chunkDs p.addr p.src with
    | none => .next s
    | some i =>
      let c := (p.addr - (s.dsRange i).1) / 65536
      let s := s.setReg .dsFail i (BitVec.ofNat 32 (c + 2 ^ 24 * p.arg))
      let s := if p.arg = 0 then s else s.setFlag .dsCfg i 31 true
      .next ((s.setDsChunk i c { s.dsChunk i c with settling := none, resent := none }).chunkSump p.src p.addr p.arg)

/-- RESEND_TIMEOUT (R408): no RESENT digest has come within 1 ms of RESEND. -/
def execResendTimeout (i : Fin 256) (chunk : Nat) (s : State) : Outcome :=
  let x := s.cntChunk i.val chunk
  if x.settling.isSome && x.resent.isNone then .next (s.settle i.val chunk 1) else .next s

/-- TLK_CNT_CLR (R404). -/
def execTlkCntClr (src : Src) (i : Fin 256) (s : State) : Outcome :=
  .next (s.busWrite src .cntCtrl i.val 1 (s.cntCtrlCheck i.val 1) (State.cntCtrlEff i.val 1))

/-! ### Links -/

/-- LINK_TRAIN (R389): a link that is DOWN, or that RETRAIN took into training, trains. -/
def execLinkTrain (link : Fin 36) (s : State) : Outcome :=
  let l := link.val
  let st := s.fld .lnkState l 2 0
  if s.power ≠ .on || s.flag .lnkCtrl l 0 || !s.cageOk l || !(st == 1 || st == 2) then .next s
  else .next (s.trained l)

/-- HELLO (R389). -/
def execHello (link : Fin 36) (p : Packet) (s : State) : Outcome :=
  let l := link.val
  if p.type ≠ 0x20 ∨ !pktOk p ∨ s.fld .lnkState l 2 0 < 2 then .next s
  else
    let s := s.consume p
    let node := p.arg % 4096
    let peer := p.arg / 4096 % 64
    let same := node == s.fld .lnkNbr l 11 0 && peer == s.fld .lnkNbr l 17 12
    let training := s.fld .lnkState l 2 0 == 2
    let s := (s.setFld .lnkState l 19 8 node).setFld .lnkState l 25 20 peer
    if same then (if training then .next ((s.setFld .lnkState l 6 0 (3 + 8 * 15)).pump l) else .next s)
    else if s.fld .lnkState l 2 0 = 5 then .next s
    else .next ((s.leaveUp l 5).raiseFree 0x05 l 0x01 none 0 0 (node + 2 ^ 12 * peer))

/-- RETRAIN (R411). -/
def execRetrain (src : Src) (link : Fin 36) (s : State) : Outcome :=
  .next (s.busWrite src .lnkCtrl link.val 2 (s.lnkCtrlCheck link.val 2) (State.lnkCtrlEff link.val 2))

/-- DISABLE (R402). -/
def execDisable (src : Src) (link : Fin 36) (s : State) : Outcome :=
  .next (s.busWrite src .lnkCtrl link.val 1 (s.lnkCtrlCheck link.val 1) (State.lnkCtrlEff link.val 1))

/-- LANE_FAIL (R410): a receive lane fails. From UP_X1, and when both lanes have failed, the link goes DOWN. -/
def execLaneFail (link : Fin 36) (lane : Fin 2) (s : State) : Outcome :=
  let l := link.val
  let x := s.lnk l
  if !s.linkUp l || !s.flag .lnkState l (5 + lane.val) || x.failRx == some lane.val then .next s
  else if s.fld .lnkState l 2 0 = 4 || x.failRx.isSome then
    .next ((s.leaveUp l 1).raise 0x05 l .link 0x01)
  else .next ((s.setLink l { x with failover := true, failRx := some lane.val }).emit (.pattern l))

/-- FAILOVER_PATTERN_RECEIVED (R410): the peer's receive lane, fed by this transmit lane, has failed. -/
def execFailoverPatternReceived (link : Fin 36) (lane : Fin 2) (s : State) : Outcome :=
  let l := link.val
  let x := s.lnk l
  if s.fld .lnkState l 2 0 ≠ 3 || (x.failTx.isSome && x.failTx != some lane.val) then .next s
  else .next (s.setLink l { x with failover := true, failTx := some lane.val })

/-- The lane that a direction keeps: in a direction that failed the other one, else lane 0, or lane 1 when lane
0 of the failed direction has failed (R410). -/
def keptLane (mine other : Option Nat) : Nat :=
  match mine, other with
  | some f, _ => 1 - f
  | none, some 0 => 1
  | none, _ => 0

/-- LANE_FAILOVER_DONE (R410). -/
def execLaneFailoverDone (link : Fin 36) (s : State) : Outcome :=
  let l := link.val
  let x := s.lnk l
  if !x.failover then .next s
  else
    let tx := keptLane x.failTx x.failRx
    let rx := keptLane x.failRx x.failTx
    let s := s.setFld .lnkState l 6 0 (4 + 8 * 2 ^ tx + 32 * 2 ^ rx)
    let s := s.setLink l { x with failover := false, failRx := none, failTx := none }
    let s := if x.txSeq ≤ x.acked + 1 then s else s.emit (.replay l (x.acked + 1))
    .next (((s.bump .lnkFailovers l 1).raiseFree 0x05 l 0x09).pump l)

/-- LINK_DOWN (R402). -/
def execLinkDown (link : Fin 36) (s : State) : Outcome :=
  let l := link.val
  if s.fld .lnkState l 2 0 < 2 then .next s else .next (s.leaveUp l 1)

/-! ### Pluggables -/

/-- The keeper reads the power class of a pluggable (R481). -/
def powerPluggable (cage watts : Nat) (s : State) : State :=
  if watts ≤ 16 then { s with cages := s.cages.set cage 1 }
  else { s with cages := s.cages.set cage 2 }.raiseFree 0x05 (4 * cage) 0x01 none 0 0 cage

/-- PLUGGABLE_INSERT (R481): one that declares more than 16 W stays in low-power mode. -/
def execPluggableInsert (cage : Fin 9) (watts : Nat) (s : State) : Outcome :=
  if s.power = .off || (s.cages.get? cage.val).isSome then .next s else .next (powerPluggable cage.val watts s)

/-- PLUGGABLE_REMOVE (R481): the cage's links go DOWN. -/
def execPluggableRemove (cage : Fin 9) (s : State) : Outcome :=
  let down := fun (s : State) (k : Nat) =>
    let l := 4 * cage.val + k
    if s.fld .lnkState l 2 0 < 2 then s else s.leaveUp l 1
  .next { (List.range 4).foldl down s with cages := s.cages.erase cage.val }

end Sys2Proof.Machine
end

