-- ==== Sys2Proof/Machine/Views.lean ====
section
/-!
DEFINITION. What a register read returns (R465 to R469): the stored value, or what the state shows where the
register shows state that is held elsewhere.
-/

namespace Sys2Proof.Machine

/-- A number on the lattice of a field: it saturates at the field's largest value. -/
def capBits (width n : Nat) : Nat := min (2 ^ width - 1) n

/-- A signed number in 32-bit two's complement. -/
def word32 (x : Int) : Nat := (BitVec.ofInt 32 x).toNat

/-- The 64 bytes of a sump entry (R421). -/
def Sump.bytes (e : Sump) : List Byte :=
  leBytes 4 e.seq ++ leBytes 8 e.time ++ leBytes 1 e.kind ++ leBytes 2 (e.inst % 4096) ++ leBytes 1 e.status.toNat ++
    leBytes 1 e.action ++ leBytes 1 (match e.ctx with | some c => c % 64 + 64 | none => 0) ++ leBytes 8 e.launch ++
    leBytes 8 e.loc ++ leBytes 8 e.detail ++ leBytes 2 (min 0xFFFF e.count) ++ leBytes 1 e.gen ++ leBytes 18 0 ++ [0x80]

/-- FE_Q_n_STATE.FETCH. -/
def Fetch.toNat : Fetch → Nat
  | .idle => 0 | .active => 1 | .blocked => 2 | .stalled => 3

/-- LZC_STATE.RUN. -/
def Run.toNat : Run → Nat
  | .idle => 0 | .running => 1 | .waiting => 2 | .stopped => 3

namespace State

/-! ### The keeper -/

/-- Start duty of a cluster: the lower of the power governor's and the thermal governor's (R445, R446). -/
def dutyOf (s : State) (n : Nat) : Nat := min (s.dutyP.getD n 16) (s.dutyT.getD n 16)

/-- Logical clusters in RUN. -/
def runClusters (s : State) : List Nat := (List.range 144).filter s.inRun

/-- Mean of the power samples of the last 1 ms (R444). -/
def powerAvg (s : State) : Nat := if s.powerLog.isEmpty then 0 else s.powerLog.sum / s.powerLog.length

/-! ### The front end -/

/-- FE_STATE. -/
def feStateView (s : State) : Nat :=
  bit s.spillFull + 2 * (s.queues.filter fun kv => kv.2.fetch == .blocked || kv.2.fetch == .stalled).length

/-- FE_Q_n_STATE. -/
def queueView (s : State) (q : Nat) : Nat :=
  let x := s.queue q
  x.sqHead + 2 ^ 16 * x.fetch.toNat + 2 ^ 18 * x.buf.length + 2 ^ 23 * bit (s.cqFull q)

/-- FE_SCH_POS: OFFSET counts microseconds of the frame while frames run. -/
def posView (s : State) : Nat :=
  let v := (s.reg .schPos 0).toNat
  if s.schRunning then setBits v 13 0 (min ((s.ticks - s.frameTick) / 50) (s.fld .schBank s.schBankNo 13 0 - 1)) else v

/-- FE_SCH_CL_n. -/
def schClView (s : State) (n : Nat) : Nat :=
  let run := (s.clLaunch n).bind s.launch
  let susp := (List.range 8).map fun c => bit (s.launches.any fun kv =>
    kv.2.phase == .suspended && kv.2.cls == c && decide (kv.2.first ≤ n) && decide (n < kv.2.first + kv.2.clusters)) * 2 ^ c
  s.fld .schCl n 2 0 + 8 * bit run.isSome + 16 * ((run.map (·.cls)).getD 0) +
    128 * bit ((run.map (·.asked)).getD false) + 256 * susp.sum + 2 ^ 16 * min 8 (s.heldBy n)

/-! ### Tables -/

/-- The INSTAR field of a table (R220); zero when the table is not registered. -/
def instarField (s : State) (tid : Nat) : Nat :=
  match s.table tid with
  | none => 0
  | some t => t.cur % 2 ^ 16 + 2 ^ 16 * (t.other % 2 ^ 16) + 2 ^ 32 * t.ostate + 2 ^ 35 * bit t.mirror + 2 ^ 36 * bit t.clone +
      2 ^ 37 * bit t.packCur + 2 ^ 38 * bit t.packOther

/-- Launches that pin an instar of the table shown (R221). -/
def pinView (s : State) (other : Bool) : Nat :=
  let tid := s.fld .instSel 0 9 0
  match s.table tid with
  | none => 0
  | some t =>
    if other && t.ostate == 0 then 0 else s.pinCount tid (if other then t.other else t.cur)

/-- Miss entries in use on a die (R212). -/
def missCount (s : State) (die : Nat) : Nat := (s.pages.filter fun kv => kv.2.miss && kv.2.engine / 32 == die).length

/-- LKE_STATE_n. -/
def lkeView (s : State) (e : Nat) : Nat :=
  s.fld .lkeState e 2 0 + 8 * capBits 13 (s.partsOf e).length +
    2 ^ 16 * capBits 16 (s.pages.filter fun kv => kv.2.miss && kv.2.engine == e).length

/-- LKE_FOLD_STAT: FILL in percent of the pool, of the fuller die. -/
def foldView (s : State) : Nat :=
  let fill := fun die => capBits 8 (s.poolUsed die * 100 / max 1 s.poolBytes)
  setBits (s.reg .foldStat 0).toNat 7 0 (max (fill 0) (fill 1))

/-- Ticks since the page first in log order became dirty (R234). -/
def lagTicks (s : State) : Nat :=
  let first := s.pages.foldl (fun (acc : Option (Nat × Nat)) kv => match kv.2.dirty, acc with
    | some d, some a => some (if d.1 < a.1 then d else a)
    | some d, none => some d
    | none, a => a) none
  match first with
  | some d => s.ticks - d.2
  | none => 0

/-! ### The cistern and the well -/

/-- The pool that CIS_POOL_SEL shows. -/
def poolShown (s : State) : Option Pool := s.pools.get? (16 * s.fld .poolSel 0 5 0 + s.fld .poolSel 0 9 6)

/-- A field of a half that its checkpoint gives: zero until MOUNTED is 1. -/
def media (s : State) (v : Nat) : Nat := if s.wellUp then v else 0

/-- Scrub period in hours (R270), by NAND temperature and erase count. -/
def scrubPeriod (temp erases : Nat) : Nat :=
  if temp ≤ 40 then (if erases < 1000 then 168 else if erases ≤ 2000 then 96 else 48)
  else if temp ≤ 55 then (if erases < 1000 then 72 else if erases ≤ 2000 then 48 else 24)
  else (if erases < 1000 then 24 else if erases ≤ 2000 then 12 else 6)

/-- A block of a half is programmed. -/
def programmed (w : Well) (x : Blk) : Bool := x.stripe.any fun n => (w.stripe n).pos != 0 && !(w.stripe n).gone

/-- The shortest scrub period of a half's programmed blocks; zero with none. -/
def periodMin (s : State) (h : Nat) : Nat :=
  let ps := ((s.well h).blocks.filter fun kv => programmed (s.well h) kv.2).map fun kv => scrubPeriod kv.2.hot kv.2.erases
  match ps with
  | [] => 0
  | p :: rest => rest.foldl min p

/-- WEL_H_DIE_FAIL_k of a half. -/
def dieFailView (s : State) (h k : Nat) : Nat :=
  ((List.range 32).map fun i => bit ((s.well h).failed.contains (32 * k + i)) * 2 ^ i).sum

/-! ### The core windows -/

/-- SYN_STATE (R299). -/
def synView (c : Core) : Nat :=
  match c.wait with
  | some (.wat ..) => 1
  | some (.cwt ..) => 2
  | some (.bar n ..) => 3 + 8 * (n % 16)
  | some (.release _) => 4
  | some (.acq ..) => 5
  | _ => 0

/-- MXU_STATE. -/
def mxuView (s : State) (p : Nat) : Nat :=
  let js := s.jobsOf p [4]
  let loading := (js.filter fun j => j.func == 0 && j.prog == .running).flatMap fun j => maskArrays (mxMask j.w)
  let per := fun (f : Nat → Bool) => ((List.range 4).map fun a => bit (f a) * 2 ^ a).sum
  let banks := ((List.range 8).map fun k => bit ((s.arr p (k / 2)).bank (k % 2)).isOpen * 2 ^ k).sum
  per (fun a => (s.arr p a).active.isSome) +
    2 ^ 4 * per (fun a => (s.arr p a).shadow.isSome || loading.contains a) +
    2 ^ 8 * per (fun a => ((s.arr p a).active.map (·.sig.wide)).getD false) +
    2 ^ 12 * banks + 2 ^ 20 * bit (js.any fun j => j.func != 0 && j.prog == .running) +
    2 ^ 21 * per (fun a => loading.contains a) + 2 ^ 25 * min 8 (s.queued p 4)

/-- VCU_STATE. -/
def vcuView (s : State) (p : Nat) : Nat :=
  let js := s.jobsOf p [5]
  let head := js.find? fun j => j.prog == .queued
  bit (js.any fun j => j.prog != .queued) + 2 * bit ((head.map (·.pair.isSome)).getD false) + 4 * min 8 (s.queued p 5)

/-- DMA_STATE. -/
def dmaView (s : State) (p : Nat) : Nat :=
  let js := s.jobsOf p [6]
  let halted := js.filter fun j => match j.prog with | .halted .. => true | _ => false
  js.length + 32 * (halted.map fun j => 2 ^ j.slot).sum

/-- A word of the stream record that DMA_SREC_SEL names; zero when the slot has not halted. -/
def srecWord (s : State) (p w : Nat) : Nat :=
  match (s.core p).srec.get? (s.fld .dmaSrecSel p 3 0) with
  | some bs => leNat ((bs.drop (4 * w)).take 4)
  | none => 0

/-- What a read of a register returns, but for a latched HI word. -/
def view (s : State) (r : Reg) (i : Nat) : Nat :=
  let v := (s.reg r i).toNat
  let c := s.core i
  match r with
  | .kpcState =>
    setBits (setBits (setBits v 1 1 (bit (s.dutyP.any fun kv => decide (kv.2 < 16)))) 3 3
      (bit (s.dutyT.any fun kv => decide (kv.2 < 16)))) 5 5 (bit (s.maint != 0))
  | .kpcPower =>
    setBits (setBits v 10 0 (capBits 11 s.powerAvg)) 26 22 ((s.runClusters.map s.dutyOf).foldl min 16)
  | .kpcClst => setBits v 7 3 (s.dutyOf i)
  | .feState => s.feStateView
  | .feQState => s.queueView i
  | .feQTails => (s.queue i).sqTail + 2 ^ 16 * (s.queue i).cqHead
  | .feQCq => (s.queue i).cqTail + 2 ^ 16 * bit (s.queue i).phase
  | .schPos => s.posView
  | .schCl => s.schClView i
  | .cmpBad => setBits v 24 16 (s.batches.getD i []).length
  | .xltState => setBits (setBits v 12 0 s.recs.length) 14 14 (bit (!s.ringWait.isEmpty && s.fringFull))
  | .xltFwait => match s.recs.get? (s.fld .xltFsel 0 11 0) with
    | some x => capBits 31 x.waiters.length + 2 ^ 31
    | none => 0
  | .lkeState => s.lkeView i
  | .instLo => s.instarField (s.fld .instSel 0 9 0) % 2 ^ 32
  | .instHi => s.instarField (s.fld .instSel 0 9 0) / 2 ^ 32
  | .pinCur => s.pinView false
  | .pinOther => s.pinView true
  | .rpcOut => capBits 14 (s.missCount 0) + 2 ^ 16 * capBits 14 (s.missCount 1)
  | .foldCfg => setBits v 31 24 (s.fld .cisPart 0 19 10)
  | .foldStat => s.foldView
  | .govTokens => word32 (s.tokens / 4320000000)
  | .govLagnow => capBits 32 (s.lagTicks / 50000)
  | .govOver => capBits 32 (s.overBytes / 1000000)
  | .govDirty => (s.pages.filter fun kv => kv.2.dirty.isSome).length / 1024
  | .poolFree => (s.poolShown.map Pool.freeUnits).getD 0
  | .poolUsed => (s.poolShown.map (·.used.length)).getD 0
  | .whState => setBits v 6 4 (min 5 (s.well i).failed.length)
  | .whLife => s.media (capBits 16 (nearest (s.well i).eraseMean) + 2 ^ 16 * capBits 16 (s.well i).eraseMax)
  | .whBudget => s.media (capBits 16 (nearest (s.well i).rated) + 2 ^ 16 * capBits 16 (nearest ((s.well i).eraseMean / 3)))
  | .whWa => s.media (capBits 16 (nearest ((s.well i).writeAmp s.serviceDays * 256)) + 2 ^ 16 * capBits 16 (s.well i).days)
  | .whBad => s.media (capBits 16 (s.well i).factory.length + 2 ^ 16 * capBits 16 (s.well i).grown.length)
  | .whDieFail => s.media (s.dieFailView (i / 4) (i % 4))
  | .whTemp => setBits v 15 8 (s.periodMin i)
  | .hifCe =>
    let js := (s.copiesOf i).filter fun kv => kv.2.slot.isSome
    js.length + 16 * (js.map fun kv => match kv.2.prog with | .halted .. => 2 ^ kv.2.slot.getD 0 | _ => 0).sum
  | .tlkState =>
    let n := fun k => ((List.range 36).filter fun l => s.fld .lnkState l 2 0 == k).length
    n 3 + n 4 + 64 * n 4
  | .tlkNode => s.node
  | .rasState => setBits (setBits v 0 0 (bit s.warm.isSome)) 7 4 (min 15 (s.resets.filter fun x => decide (x.phase ≠ 0)).length)
  | .rasGen =>
    let k := 4096 * s.fld .genSel 0 3 0 + s.fld .genSel 0 15 4
    s.gens.getD k 0 % 256 + 256 * capBits 24 (s.resetCount.getD k 0)
  | .lzcState => c.run.toNat + 256 * (c.ctx % 64)
  | .lzcPcLo => c.pc.toNat % 2 ^ 32
  | .lzcPcHi => c.pc.toNat / 2 ^ 32
  | .lzcFault => c.fault.toNat + 2 ^ 8 * (c.faultCls % 64) + 2 ^ 14 * (c.faultFunc % 64)
  | .lzcFpcLo => c.faultPc.toNat % 2 ^ 32
  | .lzcFpcHi => c.faultPc.toNat / 2 ^ 32
  | .lzcRetLo => c.retired.toNat % 2 ^ 32
  | .lzcRetHi => c.retired.toNat / 2 ^ 32
  | .mxuState => s.mxuView i
  | .vcuState => s.vcuView i
  | .dmaState => s.dmaView i
  | .dmaSrec => s.srecWord (i / 32) (i % 32)
  | .synState => synView c
  | .synWaddrLo => c.waddr % 2 ^ 32
  | .synWaddrHi => c.waddr / 2 ^ 32
  | _ => v

end State

/-- The HI word of a count whose LO word latches it when it is read (R465). -/
def Reg.countHi : Reg → Option Reg
  | .jobLaunchedLo => some .jobLaunchedHi
  | .jobCompletedLo => some .jobCompletedHi
  | .jobFailedLo => some .jobFailedHi
  | .jobAbortedLo => some .jobAbortedHi
  | .jobRestartedLo => some .jobRestartedHi
  | .rgnCntLo => some .rgnCntHi
  | .lnkTxLo => some .lnkTxHi
  | .lnkRxLo => some .lnkRxHi
  | .cntBytesLo => some .cntBytesHi
  | .lzcRetLo => some .lzcRetHi
  | .mxuStreamLo => some .mxuStreamHi
  | .vcuCycLo => some .vcuCycHi
  | .dmaWinLo => some .dmaWinHi
  | _ => none

/-- A register that holds the latched HI word of a count. -/
def Reg.latched : Reg → Bool
  | .jobLaunchedHi | .jobCompletedHi | .jobFailedHi | .jobAbortedHi | .jobRestartedHi | .rgnCntHi | .lnkTxHi | .lnkRxHi
  | .cntBytesHi | .lzcRetHi | .mxuStreamHi | .vcuCycHi | .dmaWinHi => true
  | _ => false

namespace State

/-- Read a register: its value and the state after the read (R465). -/
def readReg (s : State) (r : Reg) (i : Nat) : Word × State :=
  let v := if r.latched then (s.latch.getD (r.key i) 0) else BitVec.ofNat 32 (s.view r i)
  match r.countHi with
  | some hi => (v, { s with latch := s.latch.set (hi.key i) (BitVec.ofNat 32 (s.view hi i)) })
  | none => (v, s)

end State

end Sys2Proof.Machine
end

