-- ==== Sys2Proof/Machine/Chrysalis.lean ====
section
/-!
DEFINITION. The chrysalis record (R430): what a capture writes of each unit, the record's header, and the buffer that
holds the newest records. The spec names what a section holds; where its words stand in the section is the model's
layout (log entry 77).
-/

namespace Sys2Proof.Machine

/-- A section: an 8-byte head with kind, unit, MISSING and length, and the content; a unit that did not answer has no
content. -/
def chrysSection (missing : List (Nat × Nat)) (kind unit : Nat) (content : List Byte) : List Byte :=
  let lost := missing.contains (kind, unit)
  let body := if lost then [] else content
  leBytes 2 kind ++ leBytes 2 (unit % 4096 + 4096 * bit lost) ++ leBytes 4 (8 + body.length) ++ body

/-- The register sets of a core that its section holds, in the section's order. -/
def coreSets : List Reg := [
  .lzcState, .lzcPcLo, .lzcPcHi, .lzcFault, .lzcFpcLo, .lzcFpcHi, .lzcRetLo, .lzcRetHi, .lzcCtrl, .lzcLast,
  .numSticky, .numSatTotal, .numClear, .numSeedLo, .numSeedHi, .numLast,
  .mxuState, .mxuStreamLo, .mxuStreamHi, .mxuResid, .mxuLoadStall, .mxuCtrl, .mxuLast,
  .vcuState, .vcuCycLo, .vcuCycHi, .vcuFwd, .vcuCtrl, .vcuLast,
  .synState, .synWaddrLo, .synWaddrHi, .synWaitCyc, .synTmo, .synLast,
  .dmaState, .dmaCtrl, .dmaSplit, .dmaHaltLimit, .dmaShort, .dmaSrecSel, .dmaLast]

/-- The registers of a link. -/
def linkSet : List Reg := [
  .lnkState, .lnkCtrl, .lnkNbr, .lnkMargin, .lnkFecCorr, .lnkFecUnc, .lnkCrcErr, .lnkReplays, .lnkFailovers, .lnkTxLo, .lnkTxHi,
  .lnkRxLo, .lnkRxHi, .lnkLast]

/-- Who asked for a part or an add, in 8 bytes: a core's number, or a node's number and tag with bit 63 set. -/
def Sender.word : Sender → Nat
  | .core c _ _ => c
  | .node n tag => 2 ^ 63 + n + 2 ^ 16 * tag
  | .relay _ n tag => 2 ^ 63 + n + 2 ^ 16 * tag

/-- A part or an add of a section: TID, instar, requester and count. -/
def heldItem (tid inst : Nat) (who : Sender) (count : Nat) : List Byte :=
  leBytes 4 tid ++ leBytes 4 inst ++ leBytes 8 who.word ++ leBytes 4 count

/-- Bytes to a length, zeros after them. -/
def padTo (n : Nat) (bs : List Byte) : List Byte := (bs ++ List.replicate n 0).take n

namespace State

/-- The 4 bytes that a register shows at capture. -/
def shown (s : State) (i : Nat) (r : Reg) : List Byte := leBytes 4 (s.view r i)

/-- The register sets of a core, 256 bytes. -/
def coreWords (s : State) (p : Nat) : List Byte :=
  padTo 256 (coreSets.flatMap (s.shown p) ++ (List.range 4).flatMap fun w =>
    [Reg.dmaWinCfg, Reg.dmaWinLo, Reg.dmaWinHi].flatMap (s.shown (4 * p + w)))

/-- The stream records of a core's halted slots, in slot order. -/
def haltedRecords (c : Core) : List Byte :=
  (List.range 16).flatMap fun i =>
    if c.jobs.any fun j => j.cls == 6 && j.slot == i && (match j.prog with | .halted .. => true | _ => false)
    then padTo 128 (c.srec.getD i []) else []

/-- What a dispatcher holds: its taken launches with their barriers, and its GLB_CLMAP entry. -/
def dispatcherWords (s : State) (n : Nat) : List Byte :=
  ((s.launches.filter fun kv => kv.2.first == n).flatMap fun kv => leBytes 8 kv.2.seq ++ slotBarriers kv.2) ++ s.shown n .glbClmap

/-- FE_Q_n_STATE, TAILS and CQ, and the records that wait. -/
def queueWords (s : State) (q : Nat) : List Byte :=
  [Reg.feQState, Reg.feQTails, Reg.feQCq].flatMap (s.shown q) ++ (s.queue q).buf.flatMap fun r => r.bytes false false

/-- Address and threshold of a core that waits in WAT. -/
def watchWords (s : State) (p : Nat) : Option (List Byte) :=
  match (s.core p).wait with
  | some (.wat va _ thr ..) => some (leBytes 8 va ++ leBytes 8 thr.toNat)
  | _ => none

/-- LKE_STATE_n and the parts and adds that an engine holds. -/
def engineWords (s : State) (e : Nat) : List Byte :=
  s.shown e .lkeState ++ ((s.partsOf e).flatMap fun x => heldItem x.tid x.inst x.sender (x.all.length)) ++
    (s.addsOf e).flatMap fun a => heldItem a.tid a.inst a.sender 1

/-- HIF_CE_e and the offset of each running job, by slot. -/
def copyWords (s : State) (e : Nat) : List Byte :=
  s.shown e .hifCe ++ (List.range 8).flatMap fun i =>
    (s.copiesOf e).flatMap fun kv => if kv.2.slot = some i then leBytes 8 kv.2.done else []

/-- A link's registers, SEQ and ACK of its flit layer, and its credit counts. -/
def linkWords (s : State) (l : Nat) : List Byte :=
  let x := s.lnk l
  linkSet.flatMap (s.shown l) ++ leBytes 2 x.txSeq ++ leBytes 2 x.rxSeq ++ (x.used ++ x.seen ++ x.freed).flatMap (leBytes 2 ·)

/-- A channel's registers, and the reads and writes that each sub-channel holds. -/
def channelWords (s : State) (ch : Nat) : List Byte :=
  [Reg.chState, Reg.chCe, Reg.chUe].flatMap (s.shown ch) ++ (List.range 2).flatMap fun i =>
    leBytes 2 (s.sub (2 * ch + i)).reads.length ++ leBytes 2 (s.sub (2 * ch + i)).writes.length

/-- PCAs of the reads and erases in progress on a channel of the well. -/
def nandWords (s : State) (k : Nat) : List Byte :=
  let w := s.well (k / 16)
  let mine := fun (pca : Nat) => pcaChan pca == k % 16
  ((w.reads.map (·.pca)).filter mine).flatMap (leBytes 8 ·) ++
    w.erasing.flatMap fun n => ((w.stripe n).blks.filter fun b => b.1 == k % 16).flatMap fun b => leBytes 8 (pcaAt (k / 16) b.2 0 0)

/-- XLT_STATE, and the open fault records with their waiter counts. -/
def xltWords (s : State) : List Byte :=
  s.shown 0 .xltState ++ s.recs.flatMap fun kv => kv.2.bytes kv.1 false

/-- The core's own section, and its watch when it waits in WAT. -/
def coreSections (s : State) (ps : List Nat) : List (Nat × Nat × List Byte) :=
  ps.map fun p => (1, p, s.coreWords p ++ haltedRecords (s.core p))

def watchSections (s : State) (ps : List Nat) : List (Nat × Nat × List Byte) :=
  ps.filterMap fun p => (s.watchWords p).map fun bs => (4, p, bs)

/-- The cores of a logical cluster, and of a Q die. -/
def bodyCores (s : State) (n : Nat) : List Nat :=
  (List.range 16).map fun c => 16 * (37 * s.fld .glbClmap n 7 6 + s.fld .glbClmap n 5 0) + c

def dieCores (d : Nat) : List Nat := (List.range 592).map (592 * d + ·)

/-- The X die of the fetcher of a COPY, LKE_CMD or WEL_CMD queue (R327). -/
def fetcherDie (s : State) (q : Nat) : Option Nat :=
  match s.qKind q with
  | 2 => some (s.qOwner q / 8)
  | 3 => some (s.qOwner q / 32)
  | 4 => some (s.qOwner q)
  | _ => none

/-- A queue's fetcher lies in a die: with its cluster in a Q die, with its unit in an X die. -/
def queueIn (s : State) (die q : Nat) : Bool :=
  if die < 4 then decide (s.qKind q < 2) && s.qOwner q / 36 == die else s.fetcherDie q == some (die - 4)

/-- Sections of a die: its cores, dispatchers, queues, watches, engines, copy engines, links and channels. -/
def dieSections (s : State) (die : Nat) : List (Nat × Nat × List Byte) :=
  let qs := ((s.queues.map (·.1)).filter (s.queueIn die)).map fun q => (3, q, s.queueWords q)
  if die < 4 then
    s.coreSections (dieCores die) ++ ((List.range 36).map fun i => (2, 36 * die + i, s.dispatcherWords (36 * die + i))) ++ qs ++
      s.watchSections (dieCores die)
  else
    let x := die - 4
    qs ++ ((List.range 32).map fun i => (5, 32 * x + i, s.engineWords (32 * x + i))) ++
      ((List.range 8).map fun i => (6, 8 * x + i, s.copyWords (8 * x + i))) ++
      ((List.range 18).map fun i => (7, 18 * x + i, s.linkWords (18 * x + i))) ++
      ((List.range 24).map fun i => (8, 24 * x + i, s.channelWords (24 * x + i))) ++
      (List.range 16).map fun i => (9, 16 * x + i, s.nandWords (16 * x + i))

/-- Sections of a domain record: those of the units within the domain; a device record holds every section (R430). -/
def sectionsOf (s : State) (kind inst : Nat) : List (Nat × Nat × List Byte) :=
  match kind with
  | 1 => s.coreSections [inst] ++ s.watchSections [inst]
  | 2 => s.coreSections (s.bodyCores inst) ++ [(2, inst, s.dispatcherWords inst)] ++ s.watchSections (s.bodyCores inst)
  | 3 => [(5, inst, s.engineWords inst)]
  | 4 => [(6, inst, s.copyWords inst)]
  | 5 => [(7, inst, s.linkWords inst)]
  | 6 => [(8, inst, s.channelWords inst)]
  | 7 => [(9, inst, s.nandWords inst)]
  | 8 => s.dieSections inst
  | _ => (List.range 6).flatMap s.dieSections ++ [(10, 0, s.xltWords)]

/-- The sections that fit a number of bytes, up to the first that does not (R430). -/
def fitSections : Nat → List (List Byte) → List (List Byte)
  | _, [] => []
  | room, x :: xs => if x.length ≤ room then x :: fitSections (room - x.length) xs else []

/-- The record of a domain (R430). -/
def chrysOf (s : State) (kind inst cause : Nat) (seq : Nat) (missing : List (Nat × Nat)) : List Byte :=
  let all := (s.sectionsOf kind inst).map fun x => chrysSection missing x.1 x.2.1 x.2.2
  let kept := fitSections (2 ^ 20 - 64) all
  let body := kept.flatten
  leBytes 2 1 ++ leBytes 1 kind ++ leBytes 1 cause ++ leBytes 2 inst ++ leBytes 1 (s.genOf kind inst) ++
    leBytes 1 (bit (decide (kept.length < all.length))) ++ leBytes 4 (64 + body.length) ++ leBytes 4 seq ++
    leBytes 8 s.ticks ++ leBytes 2 kept.length ++ leBytes 38 0 ++ body

/-- Records that fit the buffer of 1 MiB, newest first. -/
def chrysKeep : Nat → List (List Byte) → List (List Byte)
  | _, [] => []
  | room, r :: rs => if r.length ≤ room then r :: chrysKeep (room - r.length) rs else []

/-- Take a record of a domain. -/
def capture (s : State) (kind inst cause seq : Nat) (missing : List (Nat × Nat)) : State :=
  let r := s.chrysOf kind inst cause seq missing
  let s := s.setReg .chrysLast 0 (BitVec.ofNat 32 seq)
  { s with
    chrys := (chrysKeep (2 ^ 20) (r :: s.chrys.reverse)).reverse
    chrysWait := if s.flag .chrysHi 0 31 then s.chrysWait ++ [r] else s.chrysWait }

/-- A byte of the chrysalis buffer: the records one after another, oldest first. -/
def chrysAt (i : Nat) : List (List Byte) → Byte
  | [] => 0
  | r :: rs => if i < r.length then r.getD i 0 else chrysAt (i - r.length) rs

end State

end Sys2Proof.Machine
end

