-- ==== Sys2Proof/Machine/Ras.lean ====
section
/-!
DEFINITION. Faults and recovery (R412 to R437): the sump's messages and rates, hang detection, domain resets, the
device warm reset, the chrysalis record, fencing and spares, and the idle-time scan.
-/

namespace Sys2Proof.Machine

/-- Instances of a domain kind (R421); none for a kind that is no reset domain. -/
def domCount (kind : Nat) : Nat :=
  match kind with
  | 1 => 2368 | 2 => 144 | 3 => 64 | 4 => 16 | 5 => 36 | 6 => 48 | 7 => 32 | 8 => 6 | 9 => 1 | _ => 0

/-- The reset domain of a unit kind: fetchers and walker pools belong to their die (R423, R425). -/
def unitDomain (kind inst : Nat) : Nat × Nat :=
  if kind = 0x0A then (8, 4 + inst) else if kind = 0x0B then (8, inst) else (kind, inst)

/-- Keys of every domain, in rising order. -/
def allDomains : List Nat := (List.range 9).flatMap fun k => (List.range (domCount (k + 1))).map fun i => 4096 * (k + 1) + i

/-- Registers that a device warm reset gives their reset values (R11), besides status bits that the sequence
sets. -/
def warmRegs : List Nat := ((Block.window.regs.filter fun (r : Reg) => r.row.warm) ++ [Reg.schState, Reg.schCl, Reg.hifState, Reg.resetState, Reg.xltState]).map Reg.ctorIdx

namespace State

/-! ### Generations and resets (R426, R427) -/

/-- A domain's generation advances, and its resets are counted. -/
def nextGen (s : State) (kind inst : Nat) : State :=
  let k := 4096 * kind + inst
  { s with
    gens := s.gens.set k ((s.gens.getD k 0 + 1) % 256)
    resetCount := s.resetCount.set k (s.resetCount.getD k 0 + 1) }

/-- The domain that encloses another. -/
def encloses (s : State) (kind inst : Nat) : Nat × Nat :=
  match kind with
  | 1 => match (List.range 144).find? (s.bears · inst) with
    | some n => (2, n)
    | none => (8, inst / 592)
  | 8 => (9, 0)
  | k => (8, domDie k inst)

/-- A reset of a domain is in progress. -/
def resetOf (s : State) (kind inst : Nat) : Option DomReset := s.resets.find? fun x => x.kind == kind && x.inst == inst

def setReset (s : State) (x : DomReset) : State :=
  { s with resets := (s.resets.filter fun y => !(y.kind == x.kind && y.inst == x.inst)) ++ [x] }

def dropReset (s : State) (kind inst : Nat) : State :=
  { s with resets := s.resets.filter fun y => !(y.kind == kind && y.inst == inst) }

/-- A reset of a domain is due, unless one that resets it has begun or is due. -/
def queueReset (s : State) (kind inst cause : Nat) (command : Bool) : State :=
  if s.resets.any fun x => s.within kind inst x.kind x.inst then s
  else s.setReset ⟨kind, inst, cause, 0, command, none, 0⟩

/-- A commanded reset has ended. -/
def commandDone (s : State) (x : DomReset) (code : Code) : State :=
  if x.command then s.setReg .resetState 0 (BitVec.ofNat 32 (2 + 4 * code.toNat)) else s

/-! ### Fencing and spares (R431 to R433) -/

/-- A cluster reads RETIRED (R19). -/
def retireCluster (s : State) (n : Nat) : State :=
  if s.fld .glbClmap n 9 8 = 3 then s
  else
    let s := s.setFld .glbClmap n 9 8 3
    (s.setFld .glbIdent 0 27 20 (s.fld .glbIdent 0 27 20 - 1)).raiseFree 0x02 n 0x08

/-- A cluster claims its die's spare, when one is available. -/
def claimSpare (s : State) (n : Nat) : Option State :=
  let bit_ := 8 * (n / 36) + 6
  if s.flag .glbSpare 0 bit_ then
    some (((s.setFlag .glbSpare 0 bit_ false).setFld .glbClmap n 9 8 2).raiseFree 0x02 n 0x07)
  else none

/-- A cluster fails (R432). -/
def failCluster (s : State) (n : Nat) : State :=
  match s.fld .glbClmap n 9 8 with
  | 3 => s
  | 2 => s.setFlag .glbClmap n 10 true
  | _ => match s.claimSpare n with
    | some s => s.setFlag .glbClmap n 10 true
    | none => s.retireCluster n

/-- Fenced cores of a cluster. -/
def fencedCount (s : State) (n : Nat) : Nat := ((List.range 16).filter fun c => s.flag .glbClmap n (16 + c)).length

/-- A core of a logical cluster is fenced (R431), with the sump entry given by its kind, location and detail. -/
def fence (s : State) (p : Nat) (kind : Nat := 0x01) (loc detail : Nat := 0) : State :=
  match (List.range 144).find? (s.bears · p) with
  | none => s
  | some n =>
    if s.flag .glbClmap n (16 + p % 16) || s.fld .glbClmap n 9 8 == 3 then s
    else
      let s := (s.setFlag .glbClmap n (16 + p % 16) true).raiseFree kind p 0x06 none 0 loc detail
      let s := s.endLaunchOf p .aborted
      let s := if s.fld .glbClmap n 9 8 = 0 then (match s.claimSpare n with
        | some s => s
        | none => s.setFld .glbClmap n 9 8 1) else s
      if 4 < s.fencedCount n then s.failCluster n else s

/-- The spare of a die replaces a PENDING_SPARE cluster (R17, R433); one that fails its self-test leaves the
cluster RETIRED. -/
def replaceSpare (spareFail : List Nat) (s : State) (n : Nat) : State :=
  if s.fld .glbClmap n 9 8 ≠ 2 then s
  else
    let d := n / 36
    let idx := s.fld .glbSpare 0 (8 * d + 5) (8 * d)
    let s := s.setFld .glbSpare 0 (8 * d + 5) (8 * d) 0x3F
    let s := ((s.setFld .glbClmap n 5 0 idx).setFld .glbClmap n 31 16 0).setFld .glbClmap n 10 8 0
    if spareFail.contains d then s.retireCluster n else s

/-! ### What a reset of each domain does (R425) -/

/-- A transaction whose requester has been reset. -/
def goneOwner (f : Nat → Bool) (o : Owner) : Owner := if (ownerCore o).any f then .gone else o

/-- A register key is of one of some cores. -/
def keyOf (ps : List Nat) (k : Nat) : Bool :=
  match Block.window.regs.find? fun r => r.ctorIdx == k / 1048576 with
  | some r => r.row.core && ps.contains (k % 1048576 / r.row.n2)
  | none => false

/-- Cores are reset: their launches end with ABORTED, and nothing of them is kept, their registers included. Answers on
their way to them are dropped (R427), so jobs keep rising in number. -/
def resetCores (s : State) (ps : List Nat) : State :=
  let hit := fun p => ps.contains p
  let s := ps.foldl (fun s p => s.endLaunchOf p .aborted) s
  let late := (s.psums.filter fun x => hit x.core).length
  let clear := fun (s : State) (p : Nat) =>
    let c := s.core p
    (s.setCore p { Core.reset with
      run := if c.launch.isSome then .stopped else .idle
      launch := c.launch
      ctx := c.ctx
      nextJob := c.nextJob
      srSeed := BitVec.ofNat 64 (2 * p + 1) }).leaveRecs p
  let s := ps.foldl clear s
  { s.bump .rasLate 0 late with
    regs := s.regs.filter fun kv => !keyOf ps kv.1
    latch := s.latch.filter fun kv => !keyOf ps kv.1
    psums := s.psums.filter fun x => !hit x.core
    pads := s.pads.filter fun kv => !hit kv.1
    padPoison := s.padPoison.filter fun kv => !hit kv.1
    txns := s.txns.mapV fun _ x => { x with owner := goneOwner hit x.owner }
    hostWaits := s.hostWaits.map fun w => { w with owner := goneOwner hit w.owner } }

/-- Cores of physical clusters that satisfy a test, as far as anything has happened to them. -/
def coresWhere (s : State) (f : Nat → Bool) : List Nat := (s.cores.map (·.1)).filter f

/-- A lookup engine is reset: its adds end with ABORTED; its parts are sent again (R425). -/
def resetEngine (s : State) (e : Nat) : State := (s.addsOf e).foldl (fun s a => s.answerAdd a .aborted) (s.setAdds e [])

/-- The running jobs of a copy engine end with ABORTED. -/
def resetCopy (s : State) (e : Nat) : State :=
  let s := { s with recs := s.recs.mapV (fun _ r => { r with waiters := r.waiters.filter fun w => w != Stream.copy e }) }
  ((s.copiesOf e).filter fun kv => kv.2.slot.isSome).foldl (fun s kv => s.copyFail kv.1 .aborted) s

/-- A launch that is not running and whose dispatcher or clusters lie in a Q die ends with it. -/
def dieLaunch (d : Nat) (s : State) (kv : Nat × Launch) : State :=
  if kv.2.first / 36 = d ∧ (kv.2.phase = .waiting ∨ kv.2.phase = .restart ∨ kv.2.phase = .suspended)
  then s.abortLaunch true kv else s

/-- The requests of an X die end with ABORTED: no answer of theirs has its generation (R427). -/
def resetTxns (s : State) (x : Nat) : State :=
  let s := (s.txns.filter fun kv => kv.1 / 8192 == x).foldl (fun s kv =>
    { s with txns := s.txns.erase kv.1 }.failTxn kv.1 kv.2 .aborted) s
  (s.hostWaits.filter fun w => w.port == x).foldl (fun s w =>
    { s with hostWaits := s.hostWaits.erase w }.endOwner w.owner .aborted) s

/-- The logic of a domain is reset, and requesters are told (R425, R426). -/
def resetDomain (s : State) (kind inst : Nat) : State :=
  match kind with
  | 1 => s.resetCores [inst]
  | 2 => { s.resetCores (s.coresWhere (s.bears inst)) with clusterReset := s.clusterReset.set inst s.ticks }
  | 3 => s.resetEngine inst
  | 4 => s.resetCopy inst
  | 5 => if s.linkUp inst then s.leaveUp inst 1 else s
  | 6 => s.completeChannel inst
  | 7 => s
  | _ =>
    if inst < 4 then
      let s := s.launches.foldl (dieLaunch inst) (s.resetCores (s.coresWhere fun p => p / 592 == inst))
      { s with
        wcache := s.wcache.erase inst
        fetched := s.fetched.filter fun kv => !(decide (s.qKind kv.1 < 2) && s.qOwner kv.1 / 36 == inst) }
    else
      let x := inst - 4
      let s := (List.range 32).foldl (fun s k => s.resetEngine (32 * x + k)) s
      let s := (List.range 8).foldl (fun s k => s.resetCopy (8 * x + k)) s
      let s := (List.range 24).foldl (fun s k => s.completeChannel (24 * x + k)) s
      { s.resetTxns x with
        wcache := s.wcache.erase inst
        ats := s.ats.erase x
        hlc := s.hlc.filter fun l => l / 64 % 2 != x
        fetched := s.fetched.filter fun kv => !(s.fetcherDie kv.1 == some x) }

/-! ### The device warm reset (R429) -/

/-- A core after a device warm reset. -/
def warmCore (p : Nat) (c : Core) : Core :=
  { Core.reset with
    run := if c.launch.isSome then .stopped else .idle
    launch := c.launch
    srSeed := BitVec.ofNat 64 (2 * p + 1) }

/-- Work of the module ends: running and suspended launches, and copy jobs, with ABORTED; fault records and a
running invalidation close; commands of the lookup and well engines end. -/
def endWork (s : State) : State :=
  let s := (s.launches.filter fun kv => kv.2.phase == .running || kv.2.phase == .suspended).foldl (abortLaunch · true ·) s
  let s := s.abortCopies fun _ => true
  let s := match s.inval with | some i => s.endInval i .ok 0 | none => s
  let s := if s.lcRun.isSome then s.lcEnd .aborted else s
  let s := s.migs.foldl (fun s kv => s.migFail kv.1 kv.2 .aborted) s
  let s := (List.range 64).foldl (fun s e =>
    if s.loadState e = 1 then s.cmdEnd 2 e .aborted else s) s
  let s := (List.range 64).foldl (fun s e => if s.loadState e = 0 then s else s.setFld .lkeState e 2 1 0) s
  { s with hots := s.hots.mapV fun _ h => { h with load := none, wait := none }, lcWait := none, recs := [], ringWait := [] }

/-- Requests in the dies are lost with them: pages that wait for the well wait no longer. -/
def dropRequests (s : State) : State :=
  { s with
    cores := s.cores.map fun kv => (kv.1, warmCore kv.1 kv.2)
    pads := []
    padPoison := []
    txns := []
    hostWaits := []
    hostSent := []
    psums := []
    halves := []
    parts := []
    adds := []
    fetched := []
    wcache := []
    ats := []
    walkQ := []
    hlc := []
    moving := []
    wakeWait := []
    resets := []
    wayWin := []
    schStop := false
    schNext := 0
    reassign := []
    vfs := []
    held := []
    pages := s.pages.mapV fun _ p => { p with miss := false, swept := false }
    shadows := s.shadows.map fun x => { x with wait := none }
    repacks := s.repacks.map fun c => { c with wait := none } }

/-- A half across a device warm reset (R278): its buffer is programmed, and READs that were under way are gone. -/
def warmWell (s : State) (h : Nat) : State :=
  (s.drainWell h 3).modWell h fun w => { w with
    reads := []
    arrived := []
    reqs := w.reqs.filter fun r => match r with | .read _ => false | _ => true }

/-- The sump entry of R256; how it names the failed lanes is a free value (log entry 1). -/
def raiseFailed (s : State) (y : Eyes) (ch : Nat) : State :=
  let mask := fun i => ((State.weakLanes y (2 * ch + i) (s.spareOf (2 * ch + i))).map fun l => 2 ^ l).sum
  s.raise 0x06 ch .state 0x09 none 0 0 (mask 0 + 2 ^ 16 * mask 1)

/-- The cistern leaves self-refresh, its PENDING channels trained again; or it stays in it when one of them cannot be
(R255, R256). -/
def warmCistern (s : State) (y : Eyes) : State :=
  let pending := (List.range 48).filter fun ch => s.flag .chState ch 9
  let fails := pending.filter fun ch => (s.trainChannel y ch false).isNone
  if fails.isEmpty then
    let s := pending.foldl (fun s ch => (s.trainChannel y ch false).getD s) s
    (s.setFlag .cisState 0 0 true).setFlag .cisState 0 1 false
  else
    let s := fails.foldl (fun s ch => s.raiseFailed y ch) (s.setFlag .cisState 0 3 true)
    ((s.setFlag .cisState 0 0 false).setFlag .cisState 0 1 true).setFld .secState 0 17 14 5

/-- The well serves again: WARM, or after a SHUTDOWN it is released for a mount (R278, R281). -/
def warmServe (s : State) (up : Bool) : State :=
  if s.flag .cisState 0 3 then s.setFld .welState 0 2 0 0
  else if s.wellShut then { s with mountDue := true }
  else if up then
    ((s.setFld .welState 0 2 0 7).modWell 0 fun w => { w with marker := 0 }).modWell 1 fun w => { w with marker := 0 }
  else s

/-- A queue across a device warm reset: FETCH takes its reset value, and a queue with entries left goes on (R11, R332). -/
def warmQueue (x : Queue) : Queue := { x with fetch := if x.sqHead = x.sqTail then .idle else .active }

/-- Last-write-status registers whose STATUS no rule keeps across a device warm reset; the count of rejected writes runs from
cold reset (R11). -/
def warmLast (s : State) : State :=
  (s.setFld .glbLast 0 7 0 0).setFld .feLast 0 19 0 0

/-- The device warm reset of R429. -/
def warmReset (s : State) (cause : Nat) (t : BootTests) : State :=
  let s := s.raiseFree 0x09 0 0x04 none 0 0 0 (s.genOf 9 0)
  let s := s.capture 9 0 cause s.lastSump t.missing
  let up := s.wellUp
  let s := s.endWork
  let s := if up then (s.warmWell 0).warmWell 1 else s
  let s := if s.welRun.isSome then endWelCmd .aborted s else s
  let s := (List.range 36).foldl (fun s l => if 2 ≤ s.fld .lnkState l 2 0 then s.leaveUp l 1 else s) s
  let s := s.dropRequests
  let s := { s with
    gens := allDomains.map fun k => (k, (s.gens.getD k 0 + 1) % 256)
    resetCount := allDomains.map fun k => (k, s.resetCount.getD k 0 + 1)
    regs := s.regs.filter fun kv => !warmRegs.contains (kv.1 / 1048576)
    latch := s.latch.filter fun kv => !warmRegs.contains (kv.1 / 1048576)
    queues := s.queues.mapV fun _ x => warmQueue x }.warmLast
  let s := (List.range 144).foldl (replaceSpare (t.spareFail.map Fin.val)) s
  let s := s.warmCistern t.eyes
  let s := s.warmServe up
  { s with warm := none, digQ := s.digQ ++ [⟨4, 0, 0, 0⟩] }

/-! ### Reset on command -/

/-- Checks on RAS_RESET_CMD. -/
def resetCmdCheck (s : State) (v : Word) : Code :=
  let kind := bitsOf v.toNat 3 0
  let inst := bitsOf v.toNat 15 4
  if domCount kind = 0 then .badField
  else if domCount kind ≤ inst then .range
  else if s.warm.isSome || s.resets.any fun x => s.within kind inst x.kind x.inst then .busy else .ok

/-- Effect of RAS_RESET_CMD (R428). -/
def resetCmdEff (v : Word) (s : State) : State :=
  let kind := bitsOf v.toNat 3 0
  if !v.getLsbD 16 then s
  else if kind = 9 then trigger (s.setReg .resetState 0 1) 0
  else (s.setReg .resetState 0 1).queueReset kind (bitsOf v.toNat 15 4) 0 true

/-- Checks on RAS_FENCE. -/
def fenceCheck (s : State) (v : Word) : Code :=
  let p := bitsOf v.toNat 11 0
  if 2368 ≤ p then .range
  else if !v.getLsbD 31 then .ok
  else match (List.range 144).find? (s.bears · p) with
    | none => .state
    | some n => if s.flag .glbClmap n (16 + p % 16) || s.fld .glbClmap n 9 8 == 3 then .state else .ok

/-- Effect of RAS_FENCE (R431). -/
def fenceEff (v : Word) (s : State) : State := if v.getLsbD 31 then s.fence (bitsOf v.toNat 11 0) else s

/-! ### Hangs (R423, R424) -/

/-- A hung engine is recorded and its reset is due; a cluster hung again within one second of its reset fails
(R432). -/
def hang (s : State) (x : Nat × Nat) : State :=
  let (kind, inst) := x
  let (k, i) := unitDomain kind inst
  if domCount k ≤ i || s.resets.any (fun y => s.within k i y.kind y.inst) then s
  else
    let s := s.raiseFree kind inst 0x0A
    let again := kind = 2 ∧ (s.clusterReset.get? inst).any fun t => decide (s.ticks < t + 50000000)
    let s := if again then s.failCluster inst else s
    s.queueReset k i 1 false

/-- Jobs of a core that only halted descriptors hold up: they are halted, or queued behind such a job that their hazards or
their unit's order wait for. -/
def stuckJobs (s : State) (p : Nat) : List Job :=
  (s.core p).jobs.foldl (fun acc j =>
    match j.prog with
    | .halted .. => acc ++ [j]
    | .queued => if (acc.any fun x => x.cls == j.cls && x.prog == .queued) || !padClear acc j then acc ++ [j] else acc
    | _ => acc) []

/-- A core waits only on halted descriptors (R175): every job that its next instruction or its release waits on is held up
by them. -/
def onHalted (s : State) (p : Nat) : Bool :=
  let stuck := (s.stuckJobs p).map (·.id)
  let only := fun (ids : List Nat) => !ids.isEmpty && ids.all stuck.contains
  match (s.core p).wait with
  | none => only (s.core p).heldBy
  | some (.release _) => (s.core p).loads.isEmpty && s.storesDone p && only (s.releaseJobs p)
  | _ => false

/-- A core that does not count against its launch (R424). -/
def exempt (s : State) (p : Nat) : Bool :=
  let c := s.core p
  (match c.wait with
   | some (.qwt ..) => true
   | some (.wat _ _ _ _ _ _ tmo _) => tmo != 0
   | some (.cwt _ _ _ _ _ tmo) => tmo != 0
   | _ => false) ||
  (match c.stall with
   | some x => x.record.isSome
   | none => s.onHalted p)

/-- A launch without progress ends with TIMEOUT (R424). -/
def idleLaunch (s : State) (l : Nat) : State :=
  match s.launch l with
  | none => s
  | some x =>
    let live := x.cores.filter fun p => !(s.core p).ended
    if x.phase ≠ .running || (live.any s.exempt && live.all s.exempt) then s
    else
      let s := s.raise 0x02 ((s.spanOf x).headD x.first) .timeout 0x03 (some x.ctx) x.seq
      (s.modLaunch l fun x => { x with info := s.lastSump }).endLaunch l .timeout none

/-- The corrected-error count of a unit, by kind (R422). -/
def ceCount (s : State) (kind inst : Nat) : Option Nat :=
  match kind with
  | 5 => if inst < 36 then some (s.reg .lnkFecCorr inst).toNat else none
  | 6 => if inst < 48 then some (s.reg .chCe inst).toNat else none
  | 8 => if inst < 6 then some (s.reg .ceDie inst).toNat else none
  | _ => none

/-- The chrysalis ring takes a record (R430): one that does not fit before the end starts at offset 0. -/
def ringCopy (s : State) (r : List Byte) : State :=
  let size := 2 ^ 20 * 2 ^ s.fld .chrysCfg 0 3 0
  let tail := (s.reg .chrysTail 0).toNat
  let at_ := if size < tail + r.length then 0 else tail
  let s := s.cisWrite (s.addr .chrysHi 0 % 2 ^ 44 + at_) r
  s.setReg .chrysTail 0 (BitVec.ofNat 32 (at_ + r.length))

/-- Registers without RW or WO fields whose value the module itself acts on: they are kept like configuration registers
(log entry 78). -/
def controlReg : Reg → Bool
  | .glbIdent | .glbSpare | .glbClmap | .kpcVid | .kpcPlan | .kpcClst | .kpcMaintState | .schState | .schPos | .schCl | .xltInvState
  | .ctxEpoch | .lkeState | .hotStatus | .lcState | .migState | .cisState | .cisPart | .cisWork | .chState | .welState
  | .welCmdState | .whState | .hifState | .lnkState | .lnkNbr | .sumpTail | .resetState | .chrysTail | .secState | .secCountLo
  | .secCountHi | .secDigest => true
  | _ => false

/-- Status and counter registers: those that no write changes, or that only clear bits (R6, R414). -/
def statusReg (r : Reg) : Bool := r.row.rw == 0 && r.row.wo == 0 && !controlReg r

end State

open State

/-! ### Commands -/

/-- HANG_SAMPLE (R423, R424). -/
def execHangSample (hung : List (Nat × Nat)) (idle : List Nat) (s : State) : Outcome :=
  if s.power ≠ .on || s.warm.isSome then .next s else .next (idle.foldl idleLaunch (hung.foldl hang s))

/-- DOMAIN_RESET (R426): a due reset begins to quiesce. -/
def execDomainReset (kind inst : Nat) (s : State) : Outcome :=
  match s.resetOf kind inst with
  | some x =>
    if x.phase ≠ 0 then .next s
    else
      let s := s.raiseFree kind inst 0x04 none 0 0 0 (s.genOf kind inst)
      .next (s.setReset { x with phase := 1, seq := s.lastSump })
  | none => .next s

/-- RESET_QUIESCE_DONE (R426, R427, R430): the record is captured, without the sections of units that do not answer, and
the generation advances. -/
def execResetQuiesceDone (kind inst : Nat) (missing : List (Nat × Nat)) (s : State) : Outcome :=
  match s.resetOf kind inst with
  | some x =>
    if x.phase ≠ 1 then .next s
    else .next (((s.capture kind inst x.cause x.seq missing).setReset { x with phase := 2 }).nextGen kind inst)
  | none => .next s

/-- RESET_PROPER_DONE (R425, R426). -/
def execResetProperDone (kind inst : Nat) (s : State) : Outcome :=
  match s.resetOf kind inst with
  | some x =>
    if x.phase ≠ 2 then .next s
    else .next ((s.resetDomain kind inst).setReset { x with phase := 3 })
  | none => .next s

/-- RESET_RETURN (R426): the domain serves again; a core whose own reset escalated to it is fenced (R431). -/
def execResetReturn (kind inst : Nat) (s : State) : Outcome :=
  match s.resetOf kind inst with
  | some x =>
    if x.phase ≠ 3 then .next s
    else
      let s := (s.dropReset kind inst).commandDone x .ok
      .next (match x.fence with | some p => s.fence p | none => s)
  | none => .next s

/-- RESET_PHASE_TIMEOUT (R426): the full sequence of the enclosing domain replaces the one in progress. -/
def execResetPhaseTimeout (kind inst : Nat) (s : State) : Outcome :=
  match s.resetOf kind inst with
  | some x =>
    if x.phase ≠ 1 && x.phase ≠ 2 then .next s
    else
      let gen := if x.phase = 2 then (s.genOf kind inst + 255) % 256 else s.genOf kind inst
      let s := ((s.dropReset kind inst).commandDone x .timeout).raiseFree kind inst 0x05 none 0 0 0 gen
      let s := if kind = 2 then s.failCluster inst else s
      let (k, i) := s.encloses kind inst
      let core := if kind = 1 && k == 2 then some inst else x.fence
      if k = 9 then .next (trigger s 2)
      else if s.inReset k i then .next s
      else
        let s := s.raiseFree k i 0x04 none 0 0 0 (s.genOf k i)
        .next (s.setReset ⟨k, i, 2, 1, false, core, s.lastSump⟩)
  | none => .next s

/-- RAS_RESET_CMD (R428). -/
def execRasResetCmd (src : Src) (v : Word) (s : State) : Outcome :=
  .next (s.busWrite src .resetCmd 0 v (s.resetCmdCheck v) (resetCmdEff v))

/-- DEVICE_WARM_RESET (R429). -/
def execDeviceWarmReset (t : BootTests) (s : State) : Outcome :=
  match s.warm with
  | some cause => if s.power = .on then .next (s.warmReset cause t) else .next { s with warm := none }
  | none => .next s

/-- CHRYSALIS_RING_COPY (R430). -/
def execChrysalisRingCopy (s : State) : Outcome :=
  match s.chrysWait with
  | [] => .next s
  | r :: rest =>
    if !s.flag .cisState 0 0 then .next s
    else if !s.flag .chrysHi 0 31 then .next { s with chrysWait := rest }
    else .next (ringCopy { s with chrysWait := rest } r)

/-- SUMP_IRQ (R421): one message covers every entry written before it. -/
def execSumpIrq (s : State) : Outcome :=
  if s.sumpIrq && s.flag .sumpCfg 0 11 then .next ({ s with sumpIrq := false }.msix s.svcPort 0 (s.fld .sumpCfg 0 10 0)) else .next s

/-- CE_RATE_MINUTE (R422): a minute of a unit ends. Errors of the memories of a die that its codes corrected in it are
counted (R414, RAS_CE_DIE_d); links and channels count theirs as they occur. -/
def execCeRateMinute (kind : Nat) (unit : UnitMinute) (s : State) : Outcome :=
  let inst := unit.inst
  let s := if kind = 8 ∧ inst < 6 then s.bump .ceDie inst unit.corrected else s
  match s.ceCount kind inst with
  | none => .next s
  | some n =>
    let k := 4096 * kind + inst
    let rise := n - s.ceLast.getD k 0
    let s := { s with ceLast := s.ceLast.set k n }
    if s.fld .sumpCfg 0 19 12 ≤ rise then
      let (c, s) := s.drawCode
      .next (s.raise kind inst c 0x00 none 0 0 0 (min 0xFFFF rise))
    else .next s

/-- CONFIG_PARITY_ERROR (R414): a configuration register is restored from the keeper's copy of the last accepted value, so
nothing changes; a status or counter register is set to zero and recorded (log entry 78). -/
def execConfigParityError (off : BitVec 26) (s : State) : Outcome :=
  match regAt off.toNat with
  | some (r, i) =>
    if statusReg r then
      .next ((s.setReg r i 0).raiseFree 0x0D 0 0x01 none 0 off.toNat)
    else .next s
  | none => .next s

/-- CORE_FENCE (R431). -/
def execCoreFence (c : CoreId) (s : State) : Outcome := .next (s.fence c.val)

/-- RAS_FENCE (R431). -/
def execRasFence (src : Src) (v : Word) (s : State) : Outcome :=
  .next (s.busWrite src .rasFence 0 v (s.fenceCheck v) (fenceEff v))

/-- SCAN_STEP (R434 to R436): a step on an idle core; a mismatch, with its pattern, fences the core, and the last
step of a pass counts it. The seed of the pass is a free value. -/
def execScanStep (c : CoreId) (fail : Option Nat) (last : Bool) (s : State) : Outcome :=
  match (List.range 144).find? (s.bears · c.val) with
  | none => .next s
  | some n =>
    let state := s.fld .kpcClst n 1 0
    let used := s.launches.any fun kv => decide (kv.2.first ≤ n) && decide (n < kv.2.first + kv.2.clusters)
    if !s.flag .scanCfg 0 0 || s.flag .kpcClst n 2 || 2 ≤ state || used || (s.clLaunch n).isSome then .next s
    else
      let s := match fail with
        | some pattern =>
          let (k, s) := s.draw
          (s.bump .scanFails 0 1).fence c.val 0x0E pattern (Config.freeAt k 0).toNat
        | none => s
      .next (if last then s.bump .scanPasses 0 1 else s)

end Sys2Proof.Machine
end

