-- ==== Sys2Proof/Machine/Power.lean ====
section
/-!
DEFINITION. Power, temperature and ageing (R438 to R452): the governors of start duties, the thermal trip, the
rails, and the maintenance point with its margin plan.
-/

namespace Sys2Proof.Machine

/-- Keeper ticks of one hour. -/
def hourTicks : Nat := 180000000000

/-- Registers whose values the keeper holds while the dies are down (R438; log entry 31), and the mode of a well half,
which its media give. -/
def keeperRegs : List Nat :=
  (Block.glb.regs ++ Block.kpc.regs ++ Block.ras.regs ++ [Reg.secState, Reg.whState]).map Reg.ctorIdx

namespace State

/-! ### Losing the dies -/

/-- A half without power: its write buffer, its requests and the media key in use are gone, its flash stays. -/
def darkWell (w : Well) : Well := { w with reqs := [], reads := [], buf := [], arrived := [], unacked := [], key := 0, temps := [] }

/-- A page without the cistern: the well's copy is what is left of it (R236). -/
def darkPage (p : Page) : Page :=
  { p with data := none, poison := [], dirty := none, writing := false, again := none, above := false, miss := false, rows := none, swept := false, fresh := [] }

/-- The module with no die powered: the keeper's contents, the flash and the host's memory stay (R438, R440). -/
def dieless (s : State) : State :=
  let kept := s.regs.filter fun kv => keeperRegs.contains (kv.1 / 1048576)
  let s1 : State := { State.reset with
    pending := s.pending, free := s.free, ticks := s.ticks, regs := kept,
    addrs := s.addrs.filter fun kv => keeperRegs.contains (kv.1 / 1048576), host := s.host, sump := s.sump, outbox := s.outbox,
    digD := s.digD, digN := s.digN, digQ := s.digQ, nextLaunch := s.nextLaunch, nextKey := s.nextKey, sumpIrq := s.sumpIrq,
    gens := s.gens, resetCount := s.resetCount, nextWatch := s.nextWatch, tables := s.tables,
    pages := SMap.mapV (fun _ p => darkPage p) (s.pages.filter fun kv => kv.2.lpn.isSome),
    nextPage := s.nextPage, order := s.order, tails := s.tails, dir := s.dir, wells := s.wells.mapV fun _ w => darkWell w,
    nextCopy := s.nextCopy, cages := s.cages, chrys := s.chrys, ceLast := s.ceLast, clusterReset := s.clusterReset,
    power := s.power, powered := s.powered, lost := s.lost, bootDue := s.bootDue, tripPin := s.tripPin, powerLog := s.powerLog,
    hotFor := s.hotFor, thermOn := s.thermOn, hot110 := s.hot110, nandHot := s.nandHot, inletAt := s.inletAt,
    inletCap := s.inletCap, slots := s.slots, bootDescs := s.bootDescs, topology := s.topology, partition := s.partition,
    slotId := s.slotId, fwDigest := s.fwDigest, topoDigest := s.topoDigest, partDigest := s.partDigest, perst := s.perst,
    tap := s.tap, sessions := s.sessions, nextSession := s.nextSession }
  let s1 := (List.range 144).foldl (fun s n => s.setFld .kpcClst n 2 0 3) s1
  s1.setReg .resetState 0 0

/-- The well runs steps 2 to 5 of its power-loss sequence, ending with a marker (R276, R447). -/
def stopWell (s : State) (marker : Nat) : State := if s.wellUp then (s.drainWell 0 marker).drainWell 1 marker else s

/-- Every die loses power (R447, R473). -/
def powerDown (s : State) : State :=
  let s := s.migs.foldl (fun s kv => s.migFail kv.1 kv.2 .aborted) s
  { s.dieless.setFld .secState 0 17 14 1 with power := .keeper, bootDue := false }

/-- A thermal trip, or entry to KEEPER by command (R447). -/
def trip (s : State) (byTemp : Bool) : State :=
  let s := (s.stopWell 1).powerDown.raiseFree 0x0D 0 0x01
  { s with tripPin := s.tripPin || byTemp }

/-! ### Duties (R445, R446) -/

/-- Clusters whose class KPC_CAP.PROTECT protects. -/
def protectedCl (s : State) (n : Nat) : Bool := s.flag .kpcCap 0 (11 + s.fld .schCl n 2 0)

end State

/-- Set a duty; 16 is the absent one. -/
def putDuty (m : SMap Nat) (n k : Nat) : SMap Nat := if 16 ≤ k then m.erase n else m.set n k

/-- Lower duties by one sixteenth: of the clusters that are not protected, and of the others once those are all at
4 (R445). -/
def lowerDuty (prot : Nat → Bool) (ns : List Nat) (m : SMap Nat) : SMap Nat :=
  let above := fun n => decide (4 < m.getD n 16)
  let open_ := ns.filter fun n => !prot n && above n
  let hit := if open_.isEmpty then ns.filter above else open_
  hit.foldl (fun m n => putDuty m n (m.getD n 16 - 1)) m

/-- Raise duties by one sixteenth, protected clusters first (R445). -/
def raiseDuty (prot : Nat → Bool) (ns : List Nat) (m : SMap Nat) : SMap Nat :=
  let below := ns.filter fun n => decide (m.getD n 16 < 16)
  let first := below.filter prot
  (if first.isEmpty then below else first).foldl (fun m n => putDuty m n (m.getD n 16 + 1)) m

namespace State

/-- The cap in force (R445, R446). -/
def capWatts (s : State) : Nat := if s.inletCap then 700 else s.fld .kpcCap 0 10 0

/-- One pass of the power governor (R445). -/
def govern (s : State) (watts : Nat) : State :=
  let run := s.runClusters
  let avg := s.powerAvg
  let cap := s.capWatts
  let all4 := run.all fun n => decide (s.dutyP.getD n 16 ≤ 4)
  let above := decide (cap < avg)
  let low := if avg * 100 ≤ cap * 97 then s.powerLow + 1 else 0
  let miss := if above && all4 then min 101 (s.powerMiss + 1) else 0
  let duty := if above then lowerDuty s.protectedCl run s.dutyP
    else if 10 ≤ low then raiseDuty s.protectedCl (List.range 144) s.dutyP else s.dutyP
  let duty := if 1300 < watts then run.foldl (fun m n => putDuty m n 4) duty else duty
  let s := { s with dutyP := duty, powerLow := min 10 low, powerMiss := miss }
  if miss = 100 then ((s.setFlag .kpcState 0 2 true).bump .kpcEvtCap 0 1).raiseFree 0x0D 0 0x09 else s

/-- Clusters of a die; those of the module for an X die (R446; log entry 79). -/
def dieClusters (d : Nat) : List Nat := if d < 4 then (List.range 36).map (36 * d + ·) else List.range 144

/-- One pass of the thermal governor over the dies' hottest readings (R446). -/
def thermGovern (s : State) (temps : List Nat) : State :=
  let t := fun d => temps.getD d 0
  let ds := List.range 6
  let on := ds.filter fun d => decide (100 ≤ t d) || (s.thermOn.contains d && decide (98 ≤ t d))
  let hot := (on.flatMap dieClusters).eraseDups
  let cold := (List.range 144).filter fun n => !hot.contains n
  let duty := lowerDuty s.protectedCl (s.runClusters.filter hot.contains) s.dutyT
  let duty := raiseDuty s.protectedCl cold duty
  let at110 := ds.filter fun d => decide (110 ≤ t d)
  let duty := (at110.flatMap dieClusters).foldl (fun m n => putDuty m n 4) duty
  let fresh := at110.filter fun d => !s.hot110.contains d
  let s := fresh.foldl (fun s d => s.raiseFree 0x08 d 0x09) s
  { s with dutyT := duty, thermOn := on, hot110 := at110 }

/-- The inlet (R446): its warning, one sump entry an hour, and the cap of 700 W. Hardware sets the warning when the inlet
leaves its range, each such set counted (R10), and again at a reading out of range that finds it cleared. -/
def inletAct (s : State) (t : Nat) : State :=
  let s := { s with inletCap := decide (45 < t) || (s.inletCap && decide (40 < t)) }
  if 15 ≤ t ∧ t ≤ 40 then { s with inletAt := none }
  else
    let s := if s.inletAt.isSome && s.flag .kpcState 0 4 then s else (s.setFlag .kpcState 0 4 true).bump .kpcEvtInlet 0 1
    let due := match s.inletAt with
      | none => true
      | some at_ => decide (at_ + hourTicks ≤ s.ticks)
    if due then { s.raiseFree 0x0D 0 0x01 with inletAt := some s.ticks } else s

/-- The hottest of some packages, and its number. -/
def hottest (ts : List Nat) : Nat × Nat :=
  ts.zipIdx.foldl (fun a x => if a.1 < x.1 then x else a) (0, 0)

/-- Readings as the temperature registers show them. -/
def showTemps (s : State) (t : Temps) : State :=
  let s := (List.range 6).foldl (fun s d =>
    let now := capBits 8 (t.dies.getD d 0)
    s.setReg .kpcTemp d (BitVec.ofNat 32 (now + 2 ^ 8 * max now (s.fld .kpcTemp d 15 8)))) s
  let (m, k) := hottest t.mem
  let (n, w) := hottest t.nand
  let s := s.setReg .kpcTempMem 0 (BitVec.ofNat 32 (capBits 8 m + 2 ^ 8 * (k % 16) + 2 ^ 12 * capBits 8 n + 2 ^ 20 * (w % 8)))
  s.setReg .kpcTempInlet 0 (BitVec.ofNat 32 (capBits 8 t.inlet))

/-- NAND readings (R270, R446): a half that defers programs, its readings, and the highest since the last scrub of each
block in use. Packages 0 to 3 are half 0's. -/
def nandTemps (s : State) (nand : List Nat) (h : Nat) : State :=
  let ts := (nand.drop (4 * h)).take 4
  let top := (hottest ts).1
  let hot := decide (70 < top) || (s.nandHot.contains h && decide (65 < top))
  let s := { s with nandHot := if hot then setInsert s.nandHot h else setErase s.nandHot h }
  (s.setFld .whTemp h 7 0 (capBits 8 top)).modWell h fun w => { w with
    temps := ts
    blocks := w.blocks.mapV fun b x => if x.stripe.isSome then { x with hot := max x.hot (ts.getD (b / 2 ^ 18) 0) } else x }

/-- LPDDR6 readings: the refresh of a package's channels is doubled above 85 °C (R446). -/
def memTemps (s : State) (mem : List Nat) : State :=
  (List.range 48).foldl (fun s ch => s.setFlag .chState ch 8 (decide (85 < mem.getD (ch / 4) 0))) s

/-- The readings ask for a thermal trip; `held` counts samples in a row at or above 115 °C (R446). -/
def tripDue (t : Temps) (held : SMap Nat) : Bool :=
  t.dies.any (120 ≤ ·) || held.any (fun kv => decide (10 ≤ kv.2)) || t.mem.any (105 < ·) || t.nand.any (85 < ·)

end State

open State

/-- POWER_SAMPLE (R444, R445): every 10 µs. -/
def execPowerSample (watts : Nat) (s : State) : Outcome :=
  if s.power = .off then .next s
  else
    let s := { s with powerLog := (watts :: s.powerLog).take 100 }
    let s := s.setFld .kpcPower 0 21 11 (max (capBits 11 watts) (s.fld .kpcPower 0 21 11))
    .next (if s.power = .on then s.govern watts else s)

/-- THERMAL_SAMPLE (R446, R447): every 100 µs. -/
def execThermalSample (t : Temps) (s : State) : Outcome :=
  if s.power = .off then .next s
  else
    let s := (s.showTemps t).inletAct t.inlet
    if s.power ≠ .on then .next s
    else
      let held := (List.range 6).foldl (fun (m : SMap Nat) d =>
        if 115 ≤ t.dies.getD d 0 then m.set d (min 10 (m.getD d 0 + 1)) else m.erase d) s.hotFor
      let s := { s with hotFor := held }
      if tripDue t held then .next (s.trip true)
      else .next (((((s.memTemps t.mem).nandTemps t.nand 0).nandTemps t.nand 1)).thermGovern t.dies)

namespace State

/-! ### Rails and slack (R448, R449, R451) -/

/-- A signed byte. -/
def byteOf (x : Int) : Nat := (BitVec.ofInt 8 (max (-128) (min 127 x))).toNat

/-- The value of a signed byte. -/
def ofByte8 (b : Nat) : Int := (BitVec.ofNat 8 b).toInt

/-- A core's path-delay monitor is read: the cluster shows the worst slack. -/
def showSlack (s : State) (n : Nat) (xs : List Int) : State :=
  match xs with
  | [] => s
  | x :: rest => s.setFld .kpcClst n 15 8 (byteOf (rest.foldl min x))

/-- A Q die with a core below 10 ps takes 5 mV, up to its ceiling (R449). -/
def liftRail (slack : List (Nat × Int)) (s : State) (d : Nat) : State :=
  let now := s.fld .kpcVid d 9 0
  let ceil := s.fld .kpcVid d 29 20
  if (slack.any fun x => x.1 / 592 == d && decide (x.2 < 10)) && decide (now < ceil) then
    let v := min ceil (now + 5)
    ((s.setFld .kpcVid d 9 0 v).setFld .kpcVid d 19 10 v).raiseFree 0x08 d 0x01
  else s

end State

/-- SLACK_SAMPLE (R448, R449): every 1 ms on the cores of clusters in RUN; one step of 5 mV each. -/
def execSlackSample (slack : List (CoreId × Int)) (s : State) : Outcome :=
  if s.power ≠ .on || s.maint ≠ 0 then .next s
  else
    let run := s.runClusters
    let read := (slack.map fun x => (x.1.val, x.2)).filter fun x => run.any fun n => s.bears n x.1
    let s := run.foldl (fun s n => s.showSlack n ((read.filter fun x => s.bears n x.1).map (·.2))) s
    .next ((List.range 4).foldl (liftRail read) s)

/-! ### The maintenance point (R450 to R452) -/

/-- What a margin plan gives for one Q die: rail, ceiling, whether the die needs its ceiling or more than that, and by how much
the slack of its cores changes. -/
structure Rail where
  vid : Nat
  ceil : Nat
  hit : Bool
  beyond : Bool
  gain : Int
deriving DecidableEq, Repr

/-- The plan of one rail for a worst slack (R451): the lowest multiple of 5 mV, at 4 ps a step, that gives 25 ps. Only at
the change of clock may it fall. -/
def planRail (vid ceil : Nat) (worst : Int) (mayFall : Bool) : Rail :=
  let short := 25 - worst
  let steps : Int := if 0 < short then (short + 3) / 4 else if mayFall then -((-short) / 4) else 0
  let base : Nat := (vid + 4) / 5 * 5
  let want : Int := max 0 (base + 5 * steps)
  let v := min ceil want.toNat
  { vid := v, ceil := ceil, hit := decide ((ceil : Int) ≤ want), beyond := decide ((ceil : Int) < want),
    gain := (4 * ((v : Int) - vid)) / 5 }

namespace State

/-- Clusters of a Q die that take part in its plan. -/
def planClusters (s : State) (d : Nat) : List Nat := (dieClusters d).filter fun n => s.fld .glbClmap n 9 8 != 3

/-- Worst slack of a Q die; 25 ps with no cluster. -/
def worstSlack (s : State) (slack : List Int) (d : Nat) : Int :=
  match (s.planClusters d).map fun n => slack.getD n 25 with
  | [] => 25
  | x :: rest => rest.foldl min x

/-- Slack that the slower clock adds: the difference of the two periods, in whole ps (log entry 32). -/
def slowerBy : Int := 53

/-- The plan of the four rails: slack of each cluster after it, rails, and whether the module is in fallback. -/
def plan (s : State) (slack : List Int) : List Int × List Rail × Bool :=
  let rails := fun (xs : List Int) (fall : Bool) => (List.range 4).map fun d =>
    planRail (s.fld .kpcVid d 9 0) (s.fld .kpcVid d 29 20) (s.worstSlack xs d) fall
  let after := fun (xs : List Int) (rs : List Rail) =>
    (List.range 144).map fun n => xs.getD n 25 + ((rs[n / 36]?).map (·.gain)).getD 0
  let rs := rails slack false
  if s.flag .kpcState 0 0 then (after slack rs, rs, true)
  else if rs.any (·.beyond) then
    let slow := (List.range 144).map fun n => slack.getD n 25 + slowerBy
    let rs := rails slow true
    (after slow rs, rs, true)
  else (after slack rs, rs, false)

/-- A cluster with a core that lacks 25 ps at the ceiling in fallback (R452). -/
def shortOf (xs : List Int) (rs : List Rail) (slow : Bool) (n : Nat) : Bool :=
  slow && ((rs[n / 36]?).map (·.beyond)).getD false && decide (xs.getD n 25 < 25)

/-- The smallest of some percentages and its place. -/
def worstOf (xs : List Nat) : Nat × Nat :=
  match xs with
  | [] => (0, 0)
  | x :: _ => xs.zipIdx.foldl (fun a y => if y.1 < a.1 then y else a) (x, 0)

/-- The worst margin of a channel's lanes in service (R245). -/
def eyeOf (s : State) (y : Eyes) (ch : Nat) : Nat := worstEye y ch fun i => s.spareOf (2 * ch + i)

/-- The margin plan record (R452); trends and projections are free values of a draw (log entry 1). -/
def planRecord (s : State) (k : Nat) (m : Measures) (xs : List Int) (rs : List Rail) (slow : Bool) : List Byte :=
  let free := fun i => (Config.freeAt k i).toNat
  let number := (s.fld .kpcMaintState 0 31 2 + 1) % 2 ^ 30
  let hours := (s.powered + s.ticks) / hourTicks
  let lanes := worstOf (m.lanes.map fun x => min x.1 x.2)
  let chans := worstOf ((List.range 48).map (s.eyeOf m.cistern))
  let die := fun d =>
    let r := (rs[d]?).getD ⟨0, 0, false, false, 0⟩
    let trend := free d % 2 ^ 16
    leBytes 2 r.vid ++ leBytes 2 r.ceil ++ leBytes 2 (BitVec.ofInt 16 (s.worstSlack xs d)).toNat ++ leBytes 2 trend ++
      leBytes 4 (if trend < 2 ^ 15 then 0xFFFFFFFF else free (4 + d)) ++ leBytes 4 0
  let cluster := fun n =>
    leBytes 1 (byteOf (xs.getD n 25)) ++ leBytes 1 (free (8 + n)) ++ leBytes 2 (bit (shortOf xs rs slow n))
  leBytes 2 1 ++ leBytes 1 (bit slow) ++ leBytes 1 (bit (rs.any (·.hit))) ++ leBytes 4 number ++ leBytes 8 s.ticks ++
    leBytes 4 hours ++ leBytes 12 0 ++ (List.range 4).flatMap die ++ leBytes 32 0 ++
    leBytes 1 lanes.1 ++ leBytes 1 lanes.2 ++ leBytes 1 chans.1 ++ leBytes 1 chans.2 ++
    leBytes 1 (byteOf m.drift.1) ++ leBytes 1 (byteOf m.drift.2) ++ leBytes 2 m.holdup ++ leBytes 120 0 ++
    (List.range 144).flatMap cluster ++ leBytes 192 0

/-- The lanes of a link are measured (R448); one below 10 % is recorded (R450). -/
def linkMargin (s : State) (x : (Nat × Nat) × Nat) : State :=
  let ((a, b), l) := x
  if 36 ≤ l then s
  else
    let s := s.setReg .lnkMargin l (BitVec.ofNat 32 (capBits 8 a + 2 ^ 8 * capBits 8 b))
    let s := if a < 10 then s.raiseFree 0x05 l 0x01 else s
    if b < 10 then s.raiseFree 0x05 l 0x01 none 0 0 1 else s

/-- The worst lane in service of a channel is measured; below 15 % it is to be spared (R245). -/
def cisMargin (y : Eyes) (s : State) (ch : Nat) : State :=
  let a := s.eyeOf y ch
  let s := s.setFld .chState ch 23 16 (capBits 8 a)
  if a < 15 then (s.setFlag .chState ch 9 true).raiseFree 0x06 ch 0x01 else s

/-- A maintenance point (R450): every measurement, the plan, and the entries of lanes. -/
def maintain (s : State) (m : Measures) : State :=
  let (xs, rs, slow) := s.plan m.slack
  let (k, s) := s.draw
  let rec_ := s.planRecord k m xs rs slow
  let s := (List.range 256).foldl (fun s w =>
    s.setReg .kpcPlan w (BitVec.ofNat 32 (leNat ((rec_.drop (4 * w)).take 4)))) s
  let s := s.setReg .kpcMaintState 0 (BitVec.ofNat 32 (1 + 4 * ((s.fld .kpcMaintState 0 31 2 + 1) % 2 ^ 30)))
  let s := (List.range 144).foldl (fun s n => s.setFld .kpcClst n 15 8 (byteOf (xs.getD n 25))) s
  let s := rs.zipIdx.foldl (fun s x => s.setFld .kpcVid x.2 19 10 x.1.vid) s
  let s := if slow && !s.flag .kpcState 0 0 then (s.setFlag .kpcState 0 0 true).raiseFree 0x0D 0 0x09 else s
  let s := if (List.range 144).any (shortOf xs rs slow) then s.raiseFree 0x0D 0 0x01 else s
  let s := (List.range 48).foldl (cisMargin m.cistern) (m.lanes.zipIdx.foldl linkMargin s)
  let s := (s.setFlag .welState 0 3 (decide (200 ≤ m.holdup))).setFld .kpcPower 0 21 11 0
  { (s.reportBudget 0).reportBudget 1 with maint := 2 }

/-- Checks on KPC_MAINT_CMD. -/
def maintCheck (s : State) (v : Word) : Code := if v.getLsbD 0 && s.maint != 0 then .busy else .ok

/-- Effect of KPC_MAINT_CMD. -/
def maintEff (v : Word) (s : State) : State :=
  if v.getLsbD 0 then { s.setFld .kpcMaintState 0 1 0 1 with maint := 1 } else s

end State

/-- MAINTENANCE_POINT (R450): one that is due or that was commanded takes its measurements and writes its plan. -/
def execMaintenancePoint (m : Measures) (s : State) : Outcome :=
  if s.power ≠ .on || s.maint = 2 then .next s else .next (s.maintain m)

/-- MAINTENANCE_DONE (R450): every rail stands where the plan sets it. -/
def execMaintenanceDone (s : State) : Outcome :=
  if s.maint ≠ 2 then .next s
  else
    let s := (List.range 4).foldl (fun s d => s.setFld .kpcVid d 9 0 (s.fld .kpcVid d 19 10)) s
    .next { s.setFld .kpcMaintState 0 1 0 2 with maint := 0 }

/-- KPC_MAINT_GO (R450). -/
def execKpcMaintGo (src : Src) (v : Word) (s : State) : Outcome :=
  let v := v ||| 1
  .next (s.busWrite src .kpcMaintCmd 0 v (s.maintCheck v) (maintEff v))

/-- POWER_KEEPER (R447): PLDM POWER with argument 0. -/
def execPowerKeeper (s : State) : Outcome :=
  if s.power = .on then .next ((s.trip false).emit (.response 0x01 .ok []))
  else if s.power = .keeper then .next (s.emit (.response 0x01 .ok [])) else .next s

/-- POWER_COLD_BOOT (R447): PLDM POWER with argument 1. It is refused while a die sensor reads above 90 °C, and outside
KEEPER. -/
def execPowerColdBoot (s : State) : Outcome :=
  if s.power = .off then .next s
  else if s.power = .on || s.lost || (List.range 6).any (fun d => decide (90 < s.fld .kpcTemp d 7 0)) then
    .next (s.emit (.response 0x01 .state []))
  else .next ({ s with bootDue := true }.emit (.response 0x01 .ok []))

/-- WARM_RESET (R429). -/
def execWarmReset (s : State) : Outcome :=
  if s.power = .on then .next ((trigger s 0).emit (.response 0x02 .ok [])) else .next s

end Sys2Proof.Machine
end

