-- ==== Sys2Proof/Machine/Boot.lean ====
section
/-!
DEFINITION. Boot, attestation and management (R453 to R463, R472 to R480): loss and return of power, the cold boot, the
configuration digest, sealing, firmware update, SPDM, PERST# and the test access port.
-/

namespace Sys2Proof.Machine

namespace State

/-! ### The configuration digest (R459, R460) -/

/-- The 24 bytes of a digest record. -/
def digBytes (r : DigRec) (n : Nat) : List Byte :=
  leBytes 1 r.src ++ leBytes 1 r.fn ++ leBytes 2 0 ++ leBytes 4 r.off ++ leBytes 4 r.val ++ leBytes 4 0 ++ leBytes 8 n

/-- Fold one record. -/
def foldRec (s : State) (r : DigRec) : State :=
  { s with digD := Config.shake256 (s.digD ++ digBytes r (s.digN + 1)) 48, digN := (s.digN + 1) % 2 ^ 64 }

/-- Fold every record that waits, in order. -/
def foldAll (s : State) : State := { s.digQ.foldl foldRec s with digQ := [] }

/-- A snapshot of D and N (R460). -/
def snap (s : State) : State :=
  let s := s.foldAll
  let s := s.setReg64 .secCountLo .secCountHi 0 s.digN
  (List.range 12).foldl (fun s k => s.setReg .secDigest k (BitVec.ofNat 32 (leNat ((s.digD.drop (4 * k)).take 4)))) s

/-! ### SEC registers -/

/-- Running slot, anti-rollback counter and SVN of the running image. -/
def slotRun (s : State) : Nat := s.fld .secState 0 0 0
def svnFuse (s : State) : Nat := s.fld .secState 0 7 2
def svnImage (s : State) : Nat := s.fld .secState 0 13 8
def stage (s : State) : Nat := s.fld .secState 0 17 14

/-- Checks on SEC_CMD (R456, R460). -/
def secCheck (s : State) (v : Word) : Code :=
  let op := bitsOf v.toNat 3 0
  let confirm := bitsOf v.toNat 31 16
  firstCode [
    (op != 1 && op != 2, .badField),
    (confirm != (if op = 2 then 0x3C5A else 0), .badField),
    (op == 1 && s.flag .secState 0 19, .busy),
    (op == 2 && decide (s.svnImage ≤ s.svnFuse), .state)]

/-- Effect of SEC_CMD. -/
def secEff (v : Word) (s : State) : State :=
  if bitsOf v.toNat 3 0 = 1 then s.snap else s.setFld .secState 0 7 2 s.svnImage

/-- Work of a context that keeps it from being sealed or unsealed (R461). -/
def ctxWorks (s : State) (n : Nat) : Bool := s.ctxHasLaunch n || s.copies.any fun kv => s.qCtx kv.2.queue == n

/-- Checks on SEC_CTX_n_CTRL (R461). -/
def sealCheck (s : State) (n : Nat) (v : Word) : Code :=
  let on := v.getLsbD 1
  let off := v.getLsbD 2
  firstCode [
    (on && off, .badField),
    ((on || off) && !s.ctxOn n, .state),
    ((on && s.sealed n) || (off && !s.sealed n), .state),
    ((on || off) && s.ctxWorks n, .busy)]

/-- Effect of SEC_CTX_n_CTRL. -/
def sealEff (n : Nat) (v : Word) (s : State) : State :=
  if v.getLsbD 1 then
    let s := { s with keys := s.keys.set n s.nextKey, nextKey := s.nextKey + 1 }
    (s.setFlag .secCtrl n 0 true).setFld .secCtrl n 31 16 (satAdd 0xFFFF (s.fld .secCtrl n 31 16) 1)
  else if v.getLsbD 2 then { s.setFlag .secCtrl n 0 false with keys := s.keys.erase n } else s

/-! ### Cold boot -/

/-- The ROM accepts an image (R455). One whose LENGTH is not as the header table states is not accepted either (log entry
80). -/
def accepts (s : State) (i : FwImage) : Bool :=
  i.magic == 0x48360F1A && i.format == 1 && i.zeros && i.keyOk && i.sigOk && decide (i.svn.toNat < 64) &&
    decide (s.svnFuse ≤ i.svn.toNat) && i.length != 0 && i.length.toNat % 4096 == 0 &&
    decide (i.length.toNat ≤ 26 * 2 ^ 20 - 8192)

/-- The image of a slot; an empty slot holds none. -/
def slotImage (s : State) (k : Nat) : FwImage := s.slots.getD k ⟨0, 0, false, 0, 0, false, false, []⟩

/-- The copy of the boot descriptor that decides (R453): the higher sequence number among the good ones. -/
def bootDesc (s : State) : BootDesc :=
  let (a, b) := s.bootDescs
  if b.crcOk && (!a.crcOk || decide (a.seq < b.seq)) then b else a

/-- The preferred slot. -/
def slotPref (s : State) : Nat := s.bootDesc.pref

/-- A descriptor with a preferred slot goes into the copy that does not decide (R453). -/
def writeDesc (s : State) (slot : Nat) : State :=
  let d : BootDesc := ⟨s.bootDesc.seq + 1, slot, true⟩
  let (a, b) := s.bootDescs
  { s with bootDescs := if s.bootDesc == a then (a, d) else (d, b) }

/-- Fields of the partition table, and its CRC (R457). -/
def partCache (p : PartTable) : Nat := fieldAt p.bytes 0 2
def partShadow (p : PartTable) : Nat := fieldAt p.bytes 2 2
def partShares (p : PartTable) : Nat × Nat × Nat := (fieldAt p.bytes 4 1 % 16, fieldAt p.bytes 4 1 / 16, fieldAt p.bytes 5 1 % 16)
def partCrcOk (p : PartTable) : Bool := crc32c (p.bytes.take 60) == fieldAt p.bytes 60 4

/-- A partition table holds (R247, R457). -/
def partHolds (p : PartTable) : Bool :=
  let (r, w, m) := partShares p
  let (c, h) := (partCache p, partShadow p)
  partCrcOk p && c % 6 == 0 && h % 6 == 0 && decide (c ≤ 510) && decide (6 ≤ h) && decide (h ≤ 252) &&
    decide (c + h + 18 ≤ 768) && r + w + m == 10 && decide (1 ≤ r) && decide (1 ≤ w) && decide (1 ≤ m)

/-- The partition of the cistern and the port shares (R167, R246, R247, R457). -/
def bootPartition (s : State) : State :=
  let holds := partHolds s.partition
  let (c, sh, (r, w, m)) := if holds then (partCache s.partition, partShadow s.partition, partShares s.partition) else (384, 48, (5, 3, 2))
  let s := s.setReg .cisPart 0 (BitVec.ofNat 32 (c + 2 ^ 10 * sh + 2 ^ 20 * 12))
  let s := s.setReg .cisWork 0 (BitVec.ofNat 32 (2 * (768 - 12 - c - sh)))
  let s := s.setFlag .cisState 0 2 (!holds)
  (List.range 2368).foldl (fun s p => s.setReg .dmaSplit p (BitVec.ofNat 32 (r + 16 * w + 256 * m))) s

/-- Without a valid entry: node 0, and every link DISABLED (R457). -/
def noTopology (s : State) : State :=
  (List.range 36).foldl (fun s l => s.setFld .lnkState l 2 0 0) ((s.setFld .xltNode 0 11 0 0).setFlag .secState 0 18 true)

/-- The topology entry of SLOT_ID (R389, R399, R457). -/
def bootTopology (s : State) : State :=
  match s.topology.get? s.slotId with
  | some e =>
    if e.valid && e.crcOk then
      let s := s.setFld .xltNode 0 11 0 e.node.toNat
      let s := (e.nbrs.take 36).zipIdx.foldl (fun s x => s.setReg .lnkNbr x.2 (BitVec.ofNat 32 (x.1.1 % 2 ^ 12 + 2 ^ 12 * (x.1.2 % 2 ^ 6)))) s
      e.routes.foldl (fun s x => s.setReg .rt (x.1 % 4096) (x.2.setWidth 32)) s
    else s.noTopology
  | none => s.noTopology

/-- Training of the cistern's channels at cold reset (R244). -/
def bootCistern (s : State) (y : Eyes) : State :=
  let (s, ok) := (List.range 48).foldl (fun (a : State × Bool) ch => match a.1.trainChannel y ch true with
    | some s => (s, a.2)
    | none => (a.1, false)) (s, true)
  if ok then { s.setFlag .cisState 0 0 true with mountDue := true } else (s.setFlag .cisState 0 3 true).setFld .secState 0 17 14 5

/-- The initial configuration digest (R459). -/
def firstDigest (s : State) : State :=
  { s with
    digD := Config.shake256 (Config.romDigest ++ s.fwDigest ++ s.topoDigest ++ s.partDigest) 48
    digN := 0
    digQ := [] }

/-- Steps 4 to 9 of the cold boot with the image of a slot. -/
def bootWith (s : State) (k : Nat) (t : BootTests) : State :=
  let img := s.slotImage k
  let svn := s.svnFuse
  let other := s.accepts (s.slotImage (1 - k))
  let s := { s with
    power := .on
    fwDigest := img.digest
    topoDigest := ((s.topology.get? s.slotId).map fun (e : TopoEntry) => e.digest).getD (Config.shake256 [] 64)
    partDigest := Config.shake256 s.partition.bytes 64 }
  let s := s.firstDigest
  let s := s.setReg .secState 0 (BitVec.ofNat 32 (k + 2 * bit other + 2 ^ 2 * svn + 2 ^ 8 * img.svn.toNat + 2 ^ 14 * 4))
  let s := s.bootTopology.bootPartition
  let s := (s.cages.filter fun kv => kv.2 == 2).foldl (fun s kv => s.raiseFree 0x05 (4 * kv.1) 0x01 none 0 0 kv.1) s
  let s := (List.range 144).foldl (replaceSpare (t.spareFail.map Fin.val)) s
  let s := t.coreFail.foldl (fun s c => s.fence c.val) s
  s.bootCistern t.eyes

/-- The cold boot (R455 to R457): the preferred slot is tried first. -/
def coldBoot (s : State) (slotId : Nat) (t : BootTests) : State :=
  let s := { s.dieless with slotId := slotId, tripPin := false, bootDue := false, sessions := [] }
  let k := s.slotPref % 2
  if s.accepts (s.slotImage k) then s.bootWith k t
  else if s.accepts (s.slotImage (1 - k)) then s.bootWith (1 - k) t
  else
    let s := { s with power := .keeper }.setReg .secState 0 (BitVec.ofNat 32 (2 ^ 2 * s.svnFuse + 2 ^ 14 * 6))
    (s.emit (.response 0 .signature (leBytes 1 k))).emit (.response 0 .signature (leBytes 1 (1 - k)))

/-! ### Loss of input power -/

/-- A cluster's standing as the fuse map gives it: core fences are lost (R20). -/
def fusedCluster (s : State) (n : Nat) : State :=
  let s := s.setFld .glbClmap n 31 16 0
  if s.fld .glbClmap n 9 8 = 1 then s.setFld .glbClmap n 9 8 0 else s

/-- Registers whose values lie in fuses, flash or media. -/
def fusedRegs : List Nat :=
  [Reg.glbIdent, Reg.glbSpare, Reg.glbClmap, Reg.kpcVid, Reg.kpcPlan, Reg.whState].map Reg.ctorIdx

/-- The keeper loses power (R438): fuses, flash and media remain. -/
def keeperLost (s : State) : State :=
  let plans := s.fld .kpcMaintState 0 31 2
  let slow := s.flag .kpcState 0 0
  let svn := s.svnFuse
  let d := s.dieless
  let s1 : State := { d with
    regs := d.regs.filter fun kv => fusedRegs.contains (kv.1 / 1048576)
    sump := [], sumpIrq := false, chrys := [], ceLast := [], clusterReset := [], gens := [], resetCount := [], digD := [], digN := 0,
    digQ := [], sessions := [], powerLog := [], hotFor := [], thermOn := [], hot110 := [], nandHot := [], inletAt := none,
    inletCap := false, tripPin := false, ticks := 0, powered := d.powered + d.ticks, power := .off, lost := false, bootDue := true,
    tap := .bypass }
  let s1 := (List.range 144).foldl fusedCluster s1
  ((s1.setFld .kpcMaintState 0 31 2 plans).setFlag .kpcState 0 0 slow).setFld .secState 0 7 2 svn

end State

open State

/-- SEC_SNAP (R460). -/
def execSecSnap (src : Src) (s : State) : Outcome := .next (s.busWrite src .secCmd 0 1 (s.secCheck 1) (secEff 1))

/-- ADVANCE_SVN (R456). -/
def execAdvanceSvn (src : Src) (v : Word) (s : State) : Outcome :=
  let v := BitVec.ofNat 32 (setBits v.toNat 3 0 2)
  .next (s.busWrite src .secCmd 0 v (s.secCheck v) (secEff v))

/-- SEC_SEAL (R461). -/
def execSecSeal (src : Src) (n : Fin 64) (s : State) : Outcome :=
  .next (s.busWrite src .secCtrl n.val 2 (s.sealCheck n.val 2) (sealEff n.val 2))

/-- SEC_UNSEAL (R461). -/
def execSecUnseal (src : Src) (n : Fin 64) (s : State) : Outcome :=
  .next (s.busWrite src .secCtrl n.val 4 (s.sealCheck n.val 4) (sealEff n.val 4))

/-- COLD_BOOT (R440, R453 to R459, R478): when one is due. -/
def execColdBoot (slotId : BitVec 8) (t : BootTests) (s : State) : Outcome :=
  if !s.bootDue || s.lost || s.power == .on then .next s else .next (s.coldBoot slotId.toNat t)

/-- POWER_LOSS_SIGNAL (R276, R472 to R474). -/
def execPowerLossSignal (s : State) : Outcome :=
  if s.lost || s.power == .off then .next s
  else
    if s.power = .on then
      -- Without a good hold-up it is open whether the well completes its sequence (R276, R277; log entry 1).
      let (k, s) := s.draw
      let s := if s.holdupOk || (Config.freeAt k 0).getLsbD 0 then s.stopWell 2 else s
      .next { s.powerDown with lost := true, bootDue := false }
    else .next { s with lost := true, bootDue := false }

/-- INPUT_STABLE_TIMER (R474): the input has stayed in range for 1 s. -/
def execInputStableTimer (s : State) : Outcome :=
  if s.lost then .next { s with lost := false, bootDue := true } else .next s

/-- HOLDUP_EXHAUSTED (R438, R475): the bank is drained while the input is lost. -/
def execHoldupExhausted (s : State) : Outcome := if s.lost then .next s.keeperLost else .next s

/-- PERST_ASSERT (R479). -/
def execPerstAssert (port : Fin 2) (s : State) : Outcome :=
  let up := s.portUp port.val
  let s := { s with perst := setInsert s.perst port.val }
  if up then .next (trigger ((s.portDown port.val).setFld .hifState 0 (16 * port.val + 9) (16 * port.val) 0) 3) else .next s

/-- PERST_DEASSERT (R479): the port may train. -/
def execPerstDeassert (port : Fin 2) (s : State) : Outcome := .next { s with perst := setErase s.perst port.val }

/-- TAP_INSTRUCTION (R480). -/
def execTapInstruction (op : TapOp) (s : State) : Outcome :=
  match op with
  | .other _ => .next { s with tap := if s.perst.contains 0 && s.perst.contains 1 then op else .bypass }
  | _ => .next { s with tap := op }

/-! ### PLDM firmware update (R453, R454) -/

/-- The slot that an update writes: the one that is not running, or with none running the one not preferred. -/
def updateSlot (s : State) : Nat := 1 - (if s.stage = 6 then s.slotPref % 2 else s.slotRun)

/-- The keeper answers management: from ROM when no image runs, otherwise from its firmware (R455). -/
def answers (s : State) : Bool := s.power != .off && s.stage != 0

/-- The keeper's firmware answers. -/
def answersAll (s : State) : Bool := answers s && s.stage != 6

/-- PLDM_FW_UPDATE (R453, R454). -/
def execPldmFwUpdate (c : FwComponent) (s : State) : Outcome :=
  if !answers s then .next s
  else match c with
    | .image i => .next ({ s with slots := s.slots.set (updateSlot s) i }.emit (.response 0x11 .ok []))
    | .topology t => .next ({ s with topology := t.foldl (fun (m : SMap TopoEntry) (x : Nat × TopoEntry) => m.set (x.1 % 256) x.2) [] }.emit (.response 0x11 .ok []))
    | .partition p => .next ({ s with partition := p }.emit (.response 0x11 .ok []))

/-- ACTIVATE (R454): the new firmware runs from the next cold boot. -/
def execActivate (s : State) : Outcome :=
  if answers s then .next ((s.writeDesc (updateSlot s)).emit (.response 0x12 .ok [])) else .next s

/-! ### SPDM -/

/-- A response to an SPDM request, numbered as log entry 33 says. What the standards compute in it is a free value. -/
def spdm (cmd : Nat) (req fixed : List Byte) (s : State) : Outcome :=
  if !answersAll s then .next s
  else
    let (k, s) := s.draw
    .next (s.emit (.response cmd .ok (fixed ++ Config.spdmBytes cmd k req)))

/-- GET_VERSION: SPDM 1.4. -/
def execGetVersion (s : State) : Outcome := spdm 0x101 [] [0x14] s
/-- GET_CAPABILITIES: a responder without pre-shared keys or mutual authentication. -/
def execGetCapabilities (s : State) : Outcome := spdm 0x102 [] [] s
/-- NEGOTIATE_ALGORITHMS: ML-DSA-65, SHA3-384, ML-KEM-768 and AES-256-GCM. -/
def execNegotiateAlgorithms (s : State) : Outcome := spdm 0x103 [] [] s
/-- GET_DIGESTS: of the certificate chain (R453). -/
def execGetDigests (s : State) : Outcome := spdm 0x104 Config.certChain [] s

/-- GET_CERTIFICATE: a part of the certificate chain (R453). -/
def execGetCertificate (off len : Nat) (s : State) : Outcome :=
  if answersAll s then .next (s.emit (.response 0x105 .ok ((Config.certChain.drop off).take len))) else .next s

/-- CHALLENGE: a signature with the identity key. -/
def execChallenge (nonce : List Byte) (s : State) : Outcome := spdm 0x106 nonce [] s

/-- The content of a measurement. -/
def measurement (s : State) (index : Nat) : List Byte :=
  match index with
  | 1 => Config.romDigest
  | 2 => leBytes 1 s.slotRun ++ leBytes 1 s.svnImage ++ s.fwDigest
  | 3 => leBytes 1 s.svnFuse ++ Config.pkDigest
  | 4 => leBytes 1 s.slotId ++ s.topoDigest
  | 5 => s.partDigest
  | 6 => s.digD ++ leBytes 8 s.digN
  | _ => (List.range 64).flatMap fun n => leBytes 1 (bit (s.sealed n)) ++ leBytes 2 (s.fld .secCtrl n 31 16)

/-- GET_MEASUREMENTS (R460): index 0 asks how many there are and 0xFF for all (log entry 33). A measurement of the digest
takes a snapshot. -/
def execGetMeasurements (index : Nat) (s : State) : Outcome :=
  if !answersAll s then .next s
  else
    let s := if index = 6 ∨ index = 0xFF then s.snap else s
    if index = 0 then spdm 0x107 [] [7] s
    else if index ≤ 7 then spdm 0x107 [] (measurement s index) s
    else if index = 0xFF then spdm 0x107 [] ((List.range 7).flatMap fun i => measurement s (i + 1)) s
    else .next (s.emit (.response 0x107 .badField []))

/-- KEY_EXCHANGE: a session opens. -/
def execKeyExchange (key : List Byte) (s : State) : Outcome :=
  if !answersAll s then .next s
  else spdm 0x108 key (leBytes 4 s.nextSession)
    { s with sessions := s.sessions ++ [(s.nextSession, false)], nextSession := s.nextSession + 1 }

/-- FINISH: an open session is established. -/
def execFinish (n : Nat) (s : State) : Outcome :=
  if !answersAll s then .next s
  else if s.sessions.contains (n, false) then
    spdm 0x109 [] [] { s with sessions := s.sessions.map fun x => if x.1 = n then (n, true) else x }
  else .next (s.emit (.response 0x109 .badField []))

/-- END_SESSION. -/
def execEndSession (n : Nat) (s : State) : Outcome :=
  if !answersAll s then .next s
  else if s.sessions.contains (n, true) then
    .next ({ s with sessions := s.sessions.filter fun x => x.1 != n }.emit (.response 0x10A .ok []))
  else .next (s.emit (.response 0x10A .badField []))

end Sys2Proof.Machine
end

