-- ==== Sys2Proof/Machine/Descriptor.lean ====
section
/-!
DEFINITION. Descriptor instructions that touch registers only, class 0x03 (R68, R69, R91).
-/

namespace Sys2Proof.Machine

open State

/-- TMV (R68). -/
def execTmv (c : CoreId) (w : IWord) (s : State) : Outcome :=
  issue 0x03 0x04 w none (IWord.isT w.dst && IWord.isT w.src1 && w.src2 == 0 && w.imm == 0)
    [.t w.dst.toNat, .t w.src1.toNat] c.val
    (fun s => .ok (s.modCore c.val fun k => k.setT w.dst.toNat (k.getT w.src1.toNat))) s

/-- TSF (R91). -/
def execTsf (c : CoreId) (w : IWord) (s : State) : Outcome :=
  issue 0x03 0x05 w none (IWord.isT w.dst && w.src2 == 0 && decide (w.imm.toNat < 256))
    [.t w.dst.toNat, .s w.src1.toNat] c.val
    (fun s => let k := s.core c.val
      match setField (k.getT w.dst.toNat) w.imm.toNat (k.getS w.src1).toNat with
      | .ok d => .ok (s.setCore c.val (k.setT w.dst.toNat d))
      | .error e => .bad s e) s

/-- TGF (R91). -/
def execTgf (c : CoreId) (w : IWord) (s : State) : Outcome :=
  issue 0x03 0x06 w none (IWord.isT w.src1 && w.src2 == 0 && decide (w.imm.toNat < 256))
    [.s w.dst.toNat, .t w.src1.toNat] c.val
    (fun s => let k := s.core c.val
      match getField (k.getT w.src1.toNat) w.imm.toNat with
      | some v => .ok (s.setCore c.val (k.setS w.dst (BitVec.ofNat 64 v)))
      | none => .bad s .badField) s

/-- TOF (R68): BASE moves modulo 2^57. -/
def execTof (c : CoreId) (w : IWord) (s : State) : Outcome :=
  issue 0x03 0x07 w none (IWord.isT w.dst && w.src2 == 0 && w.imm == 0)
    [.t w.dst.toNat, .s w.src1.toNat] c.val
    (fun s => let k := s.core c.val
      let d := k.getT w.dst.toNat
      .ok (s.setCore c.val (k.setT w.dst.toNat
        (d.put 56 0 ((d.base + (k.getS w.src1).toNat) % 2 ^ 57))))) s

/-- Role of TCK; the written role with RESID_V is the output of a VCH with RCAP. -/
def tckRole (imm : Nat) (d : Desc) : Role :=
  if imm = 0 then .read else if imm = 1 then (if d.residV then .rcap else .written) else .weight

/-- The descriptor registers that a descriptor's checks read. -/
def companions (d : Desc) : List RegRef := [.t d.scaleT, .t d.residT]

/-- TCK (R69): returned. -/
def execTck (c : CoreId) (w : IWord) (s : State) : Outcome :=
  issue 0x03 0x09 w none (w.dst == 0 && IWord.isT w.src1 && w.src2 == 0 && decide (w.imm.toNat < 3))
    [.t w.src1.toNat, .p 7] c.val
    (fun s => let k := s.core c.val
      let d := k.getT w.src1.toNat
      if k.isBusy (companions d) then .held []
      else .ok (s.returned c.val (checkDesc k.getT d (tckRole w.imm.toNat d)))) s

end Sys2Proof.Machine
end

