-- ==== Sys2Proof/Machine/Registers.lean ====
section
/-!
DEFINITION. Register accesses (R6 to R9, R464 to R469, R493): the check and the effect of a write to each register, BAR0
reads and writes, and the entries of command queues and management commands that make them.
-/

namespace Sys2Proof.Machine

/-- A key of a digest must lie between 1 and 2^61 - 2 (R405). -/
def badKey (r : Nat) : Bool := r == 0 || decide (2 ^ 61 - 1 ≤ r)

/-- Two ranges overlap. -/
def overlap (a n b m : Nat) : Bool := decide (a < b + m) && decide (b < a + n)

/-- RANGE outside two bounds. -/
def within2 (lo hi x : Nat) : Code := if x < lo ∨ hi < x then .range else .ok

namespace State

/-! ### Rings and areas of working memory -/

/-- A ring of a size must be aligned to it and lie in working memory. -/
def ringChecks (s : State) (a size : Nat) : List (Bool × Code) :=
  [(decide (a % size ≠ 0), .align), (decide (s.workSize < a + size), .range)]

/-- FE_SPILL_HI: the commit of the ring's address. -/
def spillHiCheck (s : State) (v : Word) : Code :=
  let a := s.wouldBe .feSpillLo 0 v
  firstCode (s.ringChecks a (32 * s.spillSize) ++ [(s.spillOn && a != s.spillBase, .state)])

/-- FE_SPILL_CFG. -/
def spillCfgCheck (s : State) (v : Word) : Code :=
  let k := bitsOf v.toNat 3 0
  let moves := k != s.fld .feSpillCfg 0 3 0
  if k < 4 ∨ 12 < k then .range
  else if moves then firstCode (s.ringChecks s.spillBase (32 * 2 ^ k) ++ [(s.spillOn, .state)]) else .ok

/-- A committed change of the spill ring's address or size empties it; records that wait may now be spilled. -/
def spillEff (r : Reg) (v : Word) (s : State) : State :=
  let old := (s.spillBase, s.spillSize)
  let s := s.store r 0 v
  let s := if (s.spillBase, s.spillSize) = old then s else (s.setReg .feSpillHead 0 0).setReg .feSpillTail 0 4096
  s.spillPump.composeAll

/-- XLT_FRING_HI. -/
def fringHiCheck (s : State) (v : Word) : Code :=
  let a := s.wouldBe .fringLo 0 v
  firstCode (s.ringChecks a (32 * s.fringSize) ++ [(!s.recs.isEmpty && a != s.addr .fringHi 0, .busy)])

/-- XLT_FRING_CFG. -/
def fringCfgCheck (s : State) (v : Word) : Code :=
  let k := bitsOf v.toNat 3 0
  let moves := k != s.fld .fringCfg 0 3 0
  if k < 4 ∨ 12 < k then .range
  else if moves then firstCode (s.ringChecks (s.addr .fringHi 0) (32 * 2 ^ k) ++ [(!s.recs.isEmpty, .busy)]) else .ok

/-- A committed change of the fault ring's address or size empties it. -/
def fringEff (r : Reg) (v : Word) (s : State) : State :=
  let old := (s.addr .fringHi 0, s.fringSize)
  let s := s.store r 0 v
  if (s.addr .fringHi 0, s.fringSize) = old then s
  else { (s.setReg .fringHead 0 0).setReg .fringTail 0 0 with ringPhase := true }

/-- RAS_CHRYS_HI: the ring's address without V. -/
def chrysHiCheck (s : State) (v : Word) : Code :=
  let a := s.wouldBe .chrysLo 0 v % 2 ^ 44
  firstCode (s.ringChecks a (2 ^ 20 * 2 ^ s.fld .chrysCfg 0 3 0) ++ [(!s.chrysWait.isEmpty, .busy)])

/-- RAS_CHRYS_CFG. -/
def chrysCfgCheck (s : State) (v : Word) : Code :=
  let k := bitsOf v.toNat 3 0
  if k < 1 ∨ 10 < k then .range
  else firstCode (s.ringChecks (s.addr .chrysHi 0 % 2 ^ 44) (2 ^ 20 * 2 ^ k) ++ [(!s.chrysWait.isEmpty, .busy)])

/-- A launch is suspended. -/
def anySuspended (s : State) : Bool := s.launches.any fun kv => kv.2.phase == .suspended

/-- FE_SCH_SAVE_HI (R365): the save area holds 8 × 2,304 slots. -/
def saveHiCheck (s : State) (v : Word) : Code :=
  let a := s.wouldBe .schSaveLo 0 v % 2 ^ 44
  firstCode [
    (v.getLsbD 31 && decide (a % 4096 ≠ 0), .align),
    (v.getLsbD 31 && decide (s.workSize < a + 8 * 2304 * 1028 * 1024), .range),
    (s.anySuspended, .busy)]

/-- XLT_CTX_n_ROOT_HI: an L2 table is 256 KiB. -/
def rootHiCheck (s : State) (n : Nat) (v : Word) : Code :=
  let a := s.wouldBe .ctxRootLo n v
  firstCode [(decide (a % 2 ^ 18 ≠ 0), .align), (decide (s.workSize < a + 2 ^ 18), .range), (s.ctxOn n, .state)]

/-! ### Queues -/

/-- Owners that a kind of queue may have (R327). -/
def ownerCount (kind : Nat) : Nat :=
  match kind with
  | 0 | 1 => 144 | 2 => 16 | 3 => 64 | _ => 2

/-- FE_Q_n_CFG (R327, R328). -/
def qCfgCheck (s : State) (q : Nat) (v : Word) : Code :=
  let f := bitsOf v.toNat
  let old := s.reg .feQCfg q
  let k := f 22 18
  let j := f 27 23
  let sets := v.getLsbD 0 && !s.qEn q
  firstCode [
    (decide (4 < f 3 1), .badField),
    (sets && (decide (s.addr .feQSqHi q % max 4096 (64 * 2 ^ k) ≠ 0) || decide (s.addr .feQCqHi q % max 4096 (32 * 2 ^ j) ≠ 0)), .align),
    (decide (ownerCount (f 3 1) ≤ f 11 4) || decide (k < 4) || decide (16 < k) || decide (j < 4) || decide (16 < j), .range),
    (s.qEn q && v != old && v != (old &&& 0xFFFFFFFE), .state)]

/-- Clearing EN stops fetching: entries not yet taken are forgotten. -/
def qCfgEff (q : Nat) (v : Word) (s : State) : State :=
  let s := s.store .feQCfg q v
  (if v.getLsbD 0 then s else { s with fetched := s.fetched.erase q }).composeAll

/-- Vectors of a function's MSI-X table. -/
def vectorCount (fn : Nat) : Nat := if fn = 0 then 2048 else 64

/-- FE_Q_n_IRQ. -/
def qIrqCheck (s : State) (q : Nat) (v : Word) : Code :=
  if bitsOf v.toNat 19 12 = 0 ∨ vectorCount (s.ctxFn (s.qCtx q)) ≤ bitsOf v.toNat 10 0 then .range else .ok

/-! ### Composers (R370) -/

/-- Another enabled composer uses a queue. -/
def outTaken (s : State) (k q : Nat) : Bool :=
  (List.range 16).any fun j => j != k && s.flag .cmpCtl j 0 && s.fld .cmpCtl j 12 1 == q

/-- The check of a write that sets EN. -/
def cmpOnCheck (s : State) (k : Nat) (v : Word) : Code :=
  let f := bitsOf v.toNat
  let q := f 12 1
  let ring := fun hi n => decide (s.addr hi k % max 4096 (64 * 2 ^ n) ≠ 0)
  let clusters := s.fld .cmpLaunch k 5 0
  firstCode [
    (ring .cmpChRingHi (f 17 13) || ring .cmpStRingHi (f 22 18) || decide (s.addr .cmpTemplateHi k % 64 ≠ 0) ||
      decide (s.addr .cmpBatchHi k % 32768 ≠ 0), .align),
    (decide (f 17 13 < 4) || decide (16 < f 17 13) || decide (f 22 18 < 4) || decide (16 < f 22 18) || decide (8 < f 26 23) ||
      decide (s.fld .cmpFill k 31 16 < s.fld .cmpFill k 15 0) || decide (s.fld .cmpFill k 31 16 < 512) ||
      decide (s.fld .cmpSteps k 15 0 = 0) || decide (s.fld .cmpSteps k 31 16 = 0) || decide (clusters = 0) || decide (36 < clusters), .range),
    (!s.qEn q || s.qKind q != 0 || s.outTaken k q, .state)]

/-- FE_CMP_k CTL. -/
def cmpCtlCheck (s : State) (k : Nat) (v : Word) : Code :=
  let old := s.reg .cmpCtl k
  if old.getLsbD 0 then (if v = old ∨ v = old &&& 0xFFFFFFFE then .ok else .state)
  else if v.getLsbD 0 then s.cmpOnCheck k v else .ok

/-- The other fields of a composer. -/
def cmpCheck (s : State) (k : Nat) : Code := if s.flag .cmpCtl k 0 then .state else .ok

/-! ### Regions, counters and digest streams -/

/-- HIF_RGN_r_CFG (R385). -/
def rgnCfgCheck (s : State) (r : Nat) (v : Word) : Code :=
  let old := s.reg .rgnCfg r
  let base := (s.reg .rgnBase r).toNat * 4096
  let size := s.fld .rgnSize r 18 0 * 4096
  let others := (List.range 256).any fun k => k != r && s.flag .rgnCfg k 0 &&
    overlap base size ((s.reg .rgnBase k).toNat * 4096) (s.fld .rgnSize k 18 0 * 4096)
  if old.getLsbD 0 then (if v.getLsbD 0 then .state else .ok)
  else if v.getLsbD 0 then firstCode [
    (decide (size = 0) || decide (262144 * 4096 < size) || decide (s.workSize < base + size) || others, .range),
    (!s.ctxOn (bitsOf v.toNat 6 1), .state)]
  else .ok

/-- TLK_CNT_i CFG. -/
def cntCfgCheck (s : State) (i : Nat) (v : Word) : Code :=
  let old := s.reg .cntCfg i
  let (base, size) := s.cntRange i
  let others := (List.range 256).any fun k => k != i && s.flag .cntCfg k 0 && overlap base size (s.cntRange k).1 (s.cntRange k).2
  if old.getLsbD 0 then (if v.getLsbD 0 then .state else .ok)
  else if v.getLsbD 0 then firstCode [
    (decide (size = 0) || decide (s.workSize < base + size) || others || (v.getLsbD 7 && badKey (s.cntKey i)), .range),
    (!s.ctxOn (bitsOf v.toNat 6 1), .state)]
  else .ok

/-- Setting EN of a counter starts its chunks afresh. -/
def cntCfgEff (i : Nat) (v : Word) (s : State) : State :=
  let fresh := v.getLsbD 0 && !s.flag .cntCfg i 0
  let s := s.store .cntCfg i v
  if fresh then { s.setFld .cntCfg i 22 21 0 with cntChunks := s.cntChunks.erase i } else s


/-- TLK_DS_s CFG. -/
def dsCfgCheck (s : State) (i : Nat) (v : Word) : Code :=
  let f := bitsOf v.toNat
  let old := s.reg .dsCfg i
  let size := s.fld .dsGeom i 4 0
  let (base, n) := s.dsRange i
  let others := (List.range 256).any fun k => k != i && s.flag .dsCfg k 0 && s.fld .dsCfg k 30 19 == f 30 19 &&
    overlap base n (s.dsRange k).1 (s.dsRange k).2
  if old.getLsbD 0 then (if v.getLsbD 0 then .state else .ok)
  else if v.getLsbD 0 then firstCode [
    (decide (143 < f 14 7) || decide (size = 0) || decide (16 < size) || decide (16 < s.fld .dsGeom i 8 5 + size) ||
      f 30 19 == s.node || badKey (s.reg64 .dsKeyLo .dsKeyHi i) || others, .range),
    (!s.ctxOn (f 6 1), .state)]
  else .ok

/-- Clearing EN of a stream ends its open disagreements with class SENDER at the receiver: a RESENT digest other than the
first one says so (log entry 75). -/
def endDisagreements (s : State) (i : Nat) : State :=
  (s.dsChunks.getD i []).foldl (fun s kv =>
    if kv.2.settling.isNone then s
    else (s.setDsChunk i kv.1 { kv.2 with settling := none, resent := none }).sendCtl
      (digestPkt (s.fld .dsCfg i 30 19) ((s.dsRange i).1 + 65536 * kv.1) ((kv.2.digest.getD 0 + 1) % digestP) true)) s

/-- Setting EN of a stream starts its chunks afresh and clears FAILED. -/
def dsCfgEff (i : Nat) (v : Word) (s : State) : State :=
  let fresh := v.getLsbD 0 && !s.flag .dsCfg i 0
  let s := (if v.getLsbD 0 then s else s.endDisagreements i).store .dsCfg i v
  if fresh then { s.setFlag .dsCfg i 31 false with dsChunks := s.dsChunks.erase i } else s

/-- TLK_RT_d (R399). -/
def rtCheck (v : Word) : Code :=
  let p := bitsOf v.toNat 5 0
  if (36 ≤ p ∧ p < 0x3E) ∨ 35 < bitsOf v.toNat 11 6 then .badField else .ok

/-! ### The other blocks -/

/-- RAS_SUMP_HEAD (R421). -/
def sumpHeadCheck (s : State) (v : Word) : Code :=
  let steps := ((s.reg .sumpTail 0).toNat + 0xFFFFFFFF - v.toNat) % 0xFFFFFFFF
  if v = 0 ∨ 2 ^ 31 < steps then .range else .ok

/-- RAS_GEN_SEL. -/
def genSelCheck (v : Word) : Code :=
  let kind := bitsOf v.toNat 3 0
  if domCount kind ≤ bitsOf v.toNat 15 4 then .range else .ok

/-- HIF_FN_f_WIN_w. -/
def fnWinCheck (s : State) (v : Word) : Code :=
  let size := v.toNat / 2 ^ 16
  if size ≠ 0 ∧ s.workSize < (v.toNat % 2 ^ 16 + size) * 2 ^ 28 then .range else .ok

/-- An egress window as it would be (R463). -/
def windowCode (cfg base size : Nat) : Code :=
  let kind := cfg / 2 % 4
  if kind = 3 then .badField
  else if cfg % 2 = 0 then .ok
  else if size = 0 then .range
  else if kind = 1 ∧ 2 ^ 56 < base + size * 4096 then .range
  else if kind = 2 ∧ 4096 < base / 4096 + size then .range else .ok

/-- A write to an egress window. -/
def windowCheck (s : State) (r : Reg) (i : Nat) (v : Word) : Code :=
  let cfg := (s.reg .winCfg i).toNat
  let base := s.addr .winBaseHi i * 4096
  let size := (s.reg .winSize i).toNat
  let code := match r with
    | .winCfg => windowCode v.toNat base size
    | .winBaseHi => windowCode cfg (s.wouldBe .winBaseLo i v * 4096) size
    | .winSize => windowCode cfg base v.toNat
    | _ => .ok
  firstCode [(code == Code.badField, .badField), (code == Code.range, .range), (s.sealed (i / 8), .state)]

/-- A core runs or waits. -/
def coreActive (s : State) (p : Nat) : Bool := (s.core p).run == .running || (s.core p).run == .waiting

/-- Effect of LZC_CTRL. -/
def lzcCtrlEff (p : Nat) (v : Word) (s : State) : State :=
  let s := if v.getLsbD 0 then s.modCore p fun c => { c with icache := [] } else s
  if v.getLsbD 1 then s.modCore p fun c => { c with dcache := [] } else s

/-- NUM_SR_SEED_HI (R63). -/
def seedCheck (s : State) (p : Nat) (v : Word) : Code := if s.wouldBe .numSeedLo p v = 0 then .range else .ok

/-- A write of the seed loads the generator. -/
def seedEff (p : Nat) (v : Word) (s : State) : State :=
  let seed := BitVec.ofNat 64 (s.wouldBe .numSeedLo p v)
  (s.store .numSeedHi p v).modCore p fun c => { c with srSeed := seed, srPos := 0 }

/-! ### Every register -/

/-- Why a write to a register is rejected, besides its reserved bits (R7); OK when it is not. -/
def regCheck (s : State) (r : Reg) (i : Nat) (v : Word) : Code :=
  let f := bitsOf v.toNat
  match r with
  | .kpcCap => within2 700 1250 (f 10 0)
  | .kpcMaintCfg => within2 1 168 (f 7 0)
  | .kpcMaintCmd => s.maintCheck v
  | .feSpillHi => s.spillHiCheck v
  | .feSpillCfg => s.spillCfgCheck v
  | .feSpillHead => s.spillHeadCheck v
  | .feQCfg => s.qCfgCheck i v
  | .feQSqHi | .feQCqHi => if s.qEn i then .state else .ok
  | .feQIrq => s.qIrqCheck i v
  | .feQCtrl => s.qCtrlCheck i v
  | .schCmd => s.schCheck v
  | .schBank => if i = s.schBankNo then .state else .ok
  | .cycleWord => if i / 4096 = s.schBankNo then .state else .ok
  | .schLimits => within2 10 10000 (f 13 0)
  | .schSaveHi => s.saveHiCheck v
  | .cmpCtl => s.cmpCtlCheck i v
  | .cmpTails => s.tailsCheck i v
  | .cmpFill | .cmpSteps | .cmpChRingHi | .cmpStRingHi | .cmpImageHi | .cmpTemplateHi | .cmpBatchHi | .cmpLaunch => s.cmpCheck i
  | .xltInv => s.invCheck v
  | .fringHi => s.fringHiCheck v
  | .fringCfg => s.fringCfgCheck v
  | .fringHead => s.fringHeadCheck v
  | .xltFcmp => s.fcmpCheck v
  | .ctxCfg => s.ctxCfgCheck i v
  | .ctxRootHi => s.rootHiCheck i v
  | .lkeTcmd => s.tcmdCheck v
  | .cmsHashBHi => s.hashCheck i v
  | .cmsThr => if v = 0 then .range else .ok
  | .hotCtrl => s.hotCheck i v
  | .cmsCtrl => s.snapCheck i v
  | .cmsSet => s.cmsSetCheck i v
  | .lcCmd => s.lcCheck false v
  | .migRate => within2 1 64 (f 7 0)
  | .foldCfg => if f 15 0 = 0 ∨ 60000 < f 15 0 ∨ f 23 16 = 0 then .range else .ok
  | .govCfg => if f 7 1 < 5 ∨ 90 < f 7 1 ∨ 3600 < f 23 8 then .range else .ok
  | .govBudget => if f 15 0 = 0 ∨ 4 * s.moduleBudget < f 15 0 then .range else .ok
  | .cisScrubCfg => scrubCfgCheck v
  | .poolCmd => s.poolCheck v
  | .welCmd => welCheck s v
  | .whScrubCfg => if f 15 8 < 5 ∨ 60 < f 15 8 ∨ f 31 16 < 20 ∨ 1000 < f 31 16 then .range else .ok
  | .hifCtx => if s.ctxWorks i then .busy else .ok
  | .fnWin => s.fnWinCheck v
  | .rgnCfg => s.rgnCfgCheck i v
  | .rgnMask | .rgnBase | .rgnSize => if s.flag .rgnCfg i 0 then .state else .ok
  | .lnkCtrl => s.lnkCtrlCheck i v
  | .rt => rtCheck v
  | .cntCfg => s.cntCfgCheck i v
  | .cntBase | .cntSize | .cntKeyLo | .cntKeyHi => if s.flag .cntCfg i 0 then .state else .ok
  | .cntCtrl => s.cntCtrlCheck i v
  | .dsCfg => s.dsCfgCheck i v
  | .dsBase | .dsGeom | .dsKeyLo | .dsKeyHi => if s.flag .dsCfg i 0 then .state else .ok
  | .sumpHead => s.sumpHeadCheck v
  | .sumpCfg => if f 19 12 = 0 then .range else .ok
  | .rasHang => within2 10 10000 (f 13 0)
  | .resetCmd => s.resetCmdCheck v
  | .genSel => genSelCheck v
  | .chrysHi => s.chrysHiCheck v
  | .chrysCfg => s.chrysCfgCheck v
  | .scanCfg => within2 1 168 (f 8 1)
  | .rasFence => s.fenceCheck v
  | .secCmd => s.secCheck v
  | .secCtrl => s.sealCheck i v
  | .winCfg | .winBaseHi | .winSize => s.windowCheck r i v
  | .numSeedHi => s.seedCheck i v
  | .lzcCtrl => if v ≠ 0 ∧ s.coreActive i then .busy else .ok
  | .mxuCtrl | .vcuCtrl => if s.coreActive i then .busy else .ok
  | .dmaCtrl => firstCode [(decide (f 4 0 = 0) || decide (16 < f 4 0), .range), (s.coreActive i, .busy)]
  | .dmaHaltLimit => within2 100 1000000 v.toNat
  | _ => .ok

/-- What an accepted write to a register does. -/
def regEff (r : Reg) (i : Nat) (v : Word) (s : State) : State :=
  match r with
  | .kpcMaintCmd => maintEff v s
  | .feSpillHi | .feSpillCfg => spillEff r v s
  | .feSpillHead => spillHeadEff v s
  | .feQCfg => qCfgEff i v s
  | .feQCtrl => qCtrlEff i v s
  | .schCmd => schEff v s
  | .cmpCtl => compose i 256 (s.store r i v)
  | .cmpTails => tailsEff i v s
  | .xltInv => invEff v s
  | .fringHi | .fringCfg => fringEff r v s
  | .xltFcmp => fcmpEff v s
  | .ctxCfg => ctxCfgEff i v s
  | .lkeTcmd => tcmdEff v s
  | .cmsHashBHi => hashEff i v s
  | .hotCtrl => hotEff i v s
  | .cmsCtrl => snapEff i v s
  | .cmsSet => cmsSetEff i v s
  | .lcCmd => lcEff v s
  | .migState => migAckEff i v s
  | .poolCmd => poolEff v s
  | .welCmd => welEffect v s
  | .rgnCtrl => rgnCtrlEff i v s
  | .lnkCtrl => lnkCtrlEff i v s
  | .cntCfg => cntCfgEff i v s
  | .cntCtrl => cntCtrlEff i v s
  | .dsCfg => dsCfgEff i v s
  | .resetCmd => resetCmdEff v s
  | .rasFence => fenceEff v s
  | .secCmd => secEff v s
  | .secCtrl => sealEff i v s
  | .numClear => if v.getLsbD 0 then s.setReg .numSatTotal i 0 else s
  | .numSeedHi => seedEff i v s
  | .lzcCtrl => lzcCtrlEff i v s
  | _ => s.store r i v

/-- An access to a cluster's window wakes the cluster that bears it (R443; log entry 35). -/
def wakeFor (s : State) (r : Reg) (i : Nat) : State :=
  if r.row.core then
    match (List.range 144).find? (s.bears · (i / r.row.n2)) with
    | some n => if s.fld .glbClmap n 9 8 = 3 || s.power ≠ .on then s else s.wake n
    | none => s
  else s

/-- A write to a register from any source. -/
def regWrite (s : State) (src : Src) (r : Reg) (i : Nat) (v : Word) : State :=
  let s := if s.arrives src then s.wakeFor r i else s
  s.busWrite src r i v (s.regCheck r i v) (regEff r i v)

/-! ### BAR0 -/

/-- Where a write to an offset that no register takes is recorded (R464, R466). -/
def strayLast (off : Nat) : Reg × Nat :=
  if 0x2000000 ≤ off then
    match windowCore off with
    | some p =>
      let o := off % 0x10000
      (if o < 0x4000 then .lzcLast else if o < 0x5000 then .numLast else if o < 0x6000 then .mxuLast
        else if o < 0x7000 then .vcuLast else if o < 0x8000 then .dmaLast else .synLast, p)
    | none => (.glbLast, 0)
  else match Block.at off with
    | some .kpc => (.kpcLast, 0)
    | some .fe => (.feLast, 0)
    | some .xlt => (.xltLast, 0)
    | some .lke =>
      if 0x610000 ≤ off ∧ off < 0x620000 then (.lkeEngLast, (off - 0x610000) / 0x400)
      else if 0x620000 ≤ off ∧ off < 0x620198 then (.lcLast, 0) else (.lkeLast, 0)
    | some .cis => (.cisLast, 0)
    | some .wel => if 0xA10000 ≤ off ∧ off < 0xA30000 then (.whLast, (off - 0xA10000) / 0x10000) else (.welLast, 0)
    | some .hif => (.hifLast, 0)
    | some .tlk => if 0xE10000 ≤ off ∧ off < 0xE12400 then (.lnkLast, (off - 0xE10000) / 0x100) else (.tlkLast, 0)
    | some .ras => (.rasLast, 0)
    | some .sec => (.secLast, 0)
    | _ => (.glbLast, 0)

/-- A write that no register takes is dropped with RANGE (R464, R466). -/
def strayWrite (s : State) (off : Nat) : State :=
  if 0x210000 ≤ off ∧ off < 0x250000 then s.recordFe ((off - 0x210000) / 0x40) .range
  else s.recordLast (strayLast off) .range

/-- A word of an MSI-X table is written (R347): clearing a vector's mask bit sends its pending message. -/
def msixWrite (s : State) (port fn word : Nat) (v : Word) : State :=
  let s := { s with msixTab := s.msixTab.set (port * 524288 + fn * 8192 + word) v }
  let k := msixKey port fn (word / 4)
  if word % 4 ≠ 3 then s
  else if v.getLsbD 0 then { s with msixMask := setInsert s.msixMask k }
  else { s with msixMask := setErase s.msixMask k }.msixSend k

def msixRead (s : State) (port fn word : Nat) : Word := s.msixTab.getD (port * 524288 + fn * 8192 + word) 0

/-- A word of a pending-bit array. -/
def pendWord (s : State) (port fn word : Nat) : Word :=
  BitVec.ofNat 32 ((List.range 32).map fun b => bit (s.msixPend.contains (msixKey port fn (32 * word + b))) * 2 ^ b).sum

/-- A port of a source; management and entries reach the tables of H0. -/
def portOf : Src → Nat
  | .host p _ => p.val
  | _ => 0

/-- A write to a doorbell page (R329). -/
def doorbellWrite (s : State) (src : Src) (q : Fin 4096) (o : Nat) (v : Word) : State :=
  let out := if o = 0 then execSqDoorbell src q v s
    else if o = 4 then execCqDoorbell src q v s else .next (s.recordFe q.val .range)
  match out with
  | .next s => s
  | _ => s

/-- A 4-byte write to BAR0 of PF0. -/
def write32 (s : State) (src : Src) (off : Nat) (v : Word) : State :=
  if 0x3000000 ≤ off then s.doorbellWrite src (Fin.ofNat 4096 ((off - 0x3000000) / 0x1000)) (off % 0x1000) v
  else if 0xC10000 ≤ off ∧ off < 0xC18000 then s.msixWrite (portOf src) 0 ((off - 0xC10000) / 4) v
  else if 0xC18000 ≤ off ∧ off < 0xC18100 then s
  else match regAt off with
    | some (r, i) => s.regWrite src r i v
    | none => s.strayWrite off

/-- A 4-byte write to BAR0 of a VF (R380). -/
def vfWrite (s : State) (src : Src) (fn off : Nat) (v : Word) : State :=
  if off < 0x1000000 then s.doorbellWrite src (Fin.ofNat 4096 (off / 0x1000)) (off % 0x1000) v
  else if off < 0x1000400 then s.msixWrite (portOf src) fn ((off - 0x1000000) / 4) v
  else if 0x1001000 ≤ off ∧ off < 0x1001008 then s
  else s.recordLast (.hifLast, 0) .range

/-- A 4-byte write to BAR0 of a function, or of management. -/
def put32 (s : State) (src : Src) (off : Nat) (v : Word) : State :=
  match src with
  | .host _ fn => if fn.val = 0 then s.write32 src off v else s.vfWrite src fn.val off v
  | _ => s.write32 src off v

/-- The code of the last write that an offset's set records (R467). -/
def lastCode (s : State) (off : Nat) : Code :=
  let l := if 0x3000000 ≤ off then (Reg.feLast, 0) else match regAt off with
    | some (r, i) => r.last i
    | none => strayLast off
  (Code.ofByte (s.fld l.1 l.2 7 0)).getD .ok

/-- The oldest held write takes effect once a record can wait for it (R460). -/
def releaseHeld (s : State) : State :=
  match s.held with
  | [] => s
  | h :: rest =>
    if 4096 ≤ s.digQ.length then s
    else
      let t := { s with held := [] }.put32 h.src h.off h.val
      let t := if h.src = .mgmt then t.emit (.response 0x04 (t.lastCode h.off) []) else t
      { t with held := t.held ++ rest }

/-- A BAR0 write of a size (R465). -/
def bar0Write (s : State) (src : Src) (off size : Nat) (v : DWord) : State :=
  let put := fun (s : State) (off : Nat) (v : Word) => s.put32 src off v
  if !s.arrives src then s
  else if s.holds src ∧ size = 4 ∧ off % 4 = 0 then s.holdWrite src off (v.setWidth 32)
  else if s.holds src ∧ size = 8 ∧ off % 8 = 0 then
    (s.holdWrite src off (v.setWidth 32)).holdWrite src (off + 4) ((v >>> 32).setWidth 32)
  else if size = 4 ∧ off % 4 = 0 then put s off (v.setWidth 32)
  else if size = 8 ∧ off % 8 = 0 then put (put s off (v.setWidth 32)) (off + 4) ((v >>> 32).setWidth 32)
  else s.recordLast (.glbLast, 0) .align

/-- A word of a doorbell page (R329). -/
def doorbellRead (s : State) (q o : Nat) : Word :=
  if o = 0 then BitVec.ofNat 32 (s.queue q).sqHead
  else if o = 4 then BitVec.ofNat 32 ((s.queue q).cqTail + 2 ^ 16 * bit (s.queue q).phase) else 0

/-- A word of the sump window (R421). -/
def sumpWord (s : State) (o : Nat) : Word :=
  match s.sump.get? (o / 64) with
  | some e => BitVec.ofNat 32 (leNat ((e.bytes.drop (o % 64)).take 4))
  | none => 0

/-- A word of the chrysalis buffer (R430). -/
def chrysWord (s : State) (o : Nat) : Word :=
  BitVec.ofNat 32 (leNat ((List.range 4).map fun k => chrysAt (o + k) s.chrys))

/-- A 4-byte read of BAR0 of PF0 (R464 to R466). -/
def read32 (s : State) (src : Src) (off : Nat) : Word × State :=
  if 0x3000000 ≤ off then (s.doorbellRead ((off - 0x3000000) / 0x1000) (off % 0x1000), s)
  else if 0xC10000 ≤ off ∧ off < 0xC18000 then (s.msixRead (portOf src) 0 ((off - 0xC10000) / 4), s)
  else if 0xC18000 ≤ off ∧ off < 0xC18100 then (s.pendWord (portOf src) 0 ((off - 0xC18000) / 4), s)
  else if 0x1010000 ≤ off ∧ off < 0x1050000 then (s.sumpWord (off - 0x1010000), s)
  else if 0x1100000 ≤ off ∧ off < 0x1200000 then (s.chrysWord (off - 0x1100000), s)
  else match regAt off with
    | some (r, i) => (s.wakeFor r i).readReg r i
    | none => (0, s)

/-- A 4-byte read of BAR0 of a VF (R380). -/
def vfRead (s : State) (src : Src) (fn off : Nat) : Word × State :=
  if off < 0x1000000 then (s.doorbellRead (off / 0x1000) (off % 0x1000), s)
  else if off < 0x1000400 then (s.msixRead (portOf src) fn ((off - 0x1000000) / 4), s)
  else if 0x1001000 ≤ off ∧ off < 0x1001008 then (s.pendWord (portOf src) fn ((off - 0x1001000) / 4), s)
  else (0, s.recordLast (.hifLast, 0) .range)

/-- Ranges that accept reads of 16, 32 and 64 bytes (R465). -/
def wideRange (off : Nat) : Bool :=
  (decide (0x1010000 ≤ off) && decide (off < 0x1050000)) || (decide (0x1100000 ≤ off) && decide (off < 0x1200000)) ||
    (decide (0x102000 ≤ off) && decide (off < 0x102400)) ||
    (match regAt off with | some (.dmaSrec, _) => true | _ => false)

/-- Read words one after another, the lower offset first. -/
def readWords (get : State → Nat → Word × State) (off : Nat) : Nat → State → List Byte × State
  | 0, s => ([], s)
  | n + 1, s =>
    let (v, s) := get s off
    let (bs, s) := readWords get (off + 4) n s
    (leBytes 4 v.toNat ++ bs, s)

/-- A BAR0 read of a size (R465). -/
def bar0Read (s : State) (src : Src) (off size : Nat) : State :=
  let get := fun (s : State) (off : Nat) => match src with
    | .host _ fn => if fn.val = 0 then s.read32 src off else s.vfRead src fn.val off
    | _ => s.read32 src off
  let narrow := (size == 4 || size == 8) && off % size == 0
  let wide := (size == 16 || size == 32 || size == 64) && off % size == 0 && !fromVf src && wideRange off
  if !s.arrives src then s
  else if narrow || wide then
    let (bs, s) := readWords get off (size / 4) s
    s.emit (.readData bs false)
  else s.emit .unsupported

/-! ### Command entries (R336) -/

/-- An offset lies in the sets that a command queue's owner may write. -/
def ownSets (kind owner off : Nat) : Bool :=
  if kind = 3 then
    decide (off < 0x10000) || (decide (0x20000 ≤ off) && decide (off < 0x20198)) ||
      (decide (0x10000 + 0x400 * owner ≤ off) && decide (off < 0x10000 + 0x400 * owner + 0x400))
  else decide (off < 0x10000) || (decide (0x10000 + 0x10000 * owner ≤ off) && decide (off < 0x20000 + 0x10000 * owner))

/-- The command that a write to a register starts: its kind and unit. WRITE_ROWS, FOLD, FLUSH, a MIGRATE with its slot
and the well's, hot-row and sketch commands run on; every other command ends with its write. -/
def startedBy (s : State) (r : Reg) (i : Nat) (v : Word) : Option (Nat × Nat) :=
  match r with
  | .lcCmd =>
    let op := v.toNat % 16
    if op = 2 ∨ op = 11 ∨ op = 12 then some (0, 0)
    else if op = 8 then some (4, bitsOf (s.lcA 0) 7 4)
    else some (5, 0)
  | .lkeTcmd => some (5, 0)
  | .welCmd => some (1, 0)
  | .hotCtrl => if v.getLsbD 31 then some (2, i) else if v.getLsbD 30 then some (5, 0) else none
  | .cmsCtrl => if v.getLsbD 0 then some (3, i) else none
  | _ => none

/-- A started command still runs. -/
def cmdRuns (s : State) (c : Nat × Nat) : Bool :=
  match c.1 with
  | 0 => s.lcRun.isSome
  | 1 => s.welRun.isSome
  | 2 => s.loadState c.2 == 1
  | 3 => s.flag .cmsCtrl c.2 2
  | 4 => s.fld .migState c.2 1 0 == 1
  | _ => false

/-- The RESULT of a command that has ended by the end of its entry's writes. -/
def cmdResult (s : State) (c : Nat × Nat) : Code :=
  match c.1 with
  | 0 => (Code.ofByte (s.fld .lcState 0 9 2)).getD .ok
  | 1 => (Code.ofByte (s.fld .welCmdState 0 9 2)).getD .ok
  | 4 => (Code.ofByte (s.fld .migState c.2 9 2)).getD .ok
  | _ => .ok

/-- The writes of an entry, one after another, up to its first rejected one: the code, the last command started, the state. -/
def entryWrites (base kind owner : Nat) : List (Nat × Nat) → Option (Nat × Nat) → State → Code × Option (Nat × Nat) × State
  | [], last, s => (.ok, last, s)
  | (off, val) :: rest, last, s =>
    if !ownSets kind owner off then (.range, last, s)
    else if off % 4 ≠ 0 then (.align, last, s.recordLast (.glbLast, 0) .align)
    else match regAt (base + off) with
      | none => (.range, last, s.strayWrite (base + off))
      | some (r, i) =>
        let v := BitVec.ofNat 32 val
        let s := s.regWrite .entry r i v
        let l := r.last i
        let code := (Code.ofByte (s.fld l.1 l.2 7 0)).getD .ok
        if code ≠ .ok then (code, last, s)
        else entryWrites base kind owner rest ((s.startedBy r i v).orElse fun _ => last) s

/-- What is wrong with a command entry before any write is made. -/
def cmdEntryCode (e : Entry) : Code :=
  let bs := e.bytes
  let n := fieldAt bs 1 1
  firstCode [
    (decide (fieldAt bs 0 1 ≠ 2), .badOpcode),
    (nonzeroAt bs 2 2 || nonzeroAt bs 8 8, .badField),
    (decide (n = 0) || decide (12 < n), .range),
    (e.poison, .poison)]

/-- An entry is performed. -/
def runEntry (s : State) (q : Nat) (e : Entry) : State :=
  let tag := fieldAt e.bytes 4 4
  let head := (s.queue q).sqHead
  let done := fun (s : State) (code : Code) => s.post q (plainRec q tag head code)
  let code := cmdEntryCode e
  if code ≠ .ok then done s code
  else
    let kind := s.qKind q
    let base := if kind = 3 then 0x600000 else 0xA00000
    let pairs := (List.range (fieldAt e.bytes 1 1)).map fun k => (fieldAt e.bytes (16 + 8 * k) 4, fieldAt e.bytes (20 + 8 * k) 4)
    match entryWrites base kind (s.qOwner q) pairs none s with
    | (.ok, none, s) => done s .ok
    | (.ok, some c, s) =>
      if s.cmdRuns c then { s with cmdJobs := s.cmdJobs ++ [⟨q, head, tag, c.1, c.2⟩] } else done s (s.cmdResult c)
    | (code, _, s) => done s code

end State

open State

/-! ### Commands -/

/-- DIGEST_FOLD (R459, R460): the oldest record that waits; a held write then takes effect. -/
def execDigestFold (s : State) : Outcome :=
  match s.digQ with
  | [] => .next s.releaseHeld
  | r :: rest => .next ({ s with digQ := rest }.foldRec r).releaseHeld

/-- REGISTER_WRITE (R464 to R468). -/
def execRegisterWrite (src : Src) (off : BitVec 26) (size : Nat) (v : DWord) (s : State) : Outcome :=
  .next (s.bar0Write src off.toNat size v)

/-- REGISTER_READ (R464 to R466). -/
def execRegisterRead (src : Src) (off : BitVec 26) (size : Nat) (s : State) : Outcome := .next (s.bar0Read src off.toNat size)

/-- CMD_ENTRY (R336): the owner takes the next entry of a command queue; it waits while digest records could be held. -/
def execCmdEntry (q : Fin 4096) (s : State) : Outcome :=
  let kind := s.qKind q.val
  if (kind ≠ 3 && kind ≠ 4) || (kind == 3 && s.inReset 3 (s.qOwner q.val)) || decide (4096 < s.digQ.length + 12) then .next s
  else match s.takeEntry q.val with
    | none => .next s
    | some (e, s) => .next (s.runEntry q.val e)

/-- ICINV (LZC_CTRL). -/
def execIcinv (src : Src) (c : CoreId) (s : State) : Outcome := .next (s.regWrite src .lzcCtrl c.val 1)

/-- DCINV (LZC_CTRL). -/
def execDcinv (src : Src) (c : CoreId) (s : State) : Outcome := .next (s.regWrite src .lzcCtrl c.val 2)

/-- NUM_CLEAR_SAT_TOTAL (NUM_CLEAR). -/
def execNumClearSatTotal (src : Src) (c : CoreId) (s : State) : Outcome := .next (s.regWrite src .numClear c.val 1)

/-- SR_SEED_LOAD (R63): a write of NUM_SR_SEED_HI. -/
def execSrSeedLoad (src : Src) (c : CoreId) (v : Word) (s : State) : Outcome := .next (s.regWrite src .numSeedHi c.val v)

/-- Management reaches an offset: with the dies down, the keeper's blocks only. -/
def mgmtReach (s : State) (off : Nat) : Bool :=
  s.power == .on || (s.power == .keeper && s.stage == 1 &&
    (match Block.at off with | some .glb | some .kpc | some .ras | some .sec => true | _ => false))

/-- REG_READ (R465). An offset that is not a multiple of 4 reads as unsupported, with a code that no rule names. -/
def execRegRead (off : BitVec 26) (s : State) : Outcome :=
  if !answersAll s then .next s
  else if off.toNat % 4 ≠ 0 || !mgmtReach s off.toNat then
    let (c, s) := s.drawCode
    .next (s.emit (.response 0x03 c []))
  else
    let (v, s) := s.read32 .mgmt off.toNat
    .next (s.emit (.response 0x03 .ok (leBytes 4 v.toNat)))

/-- REG_WRITE (R459, R467): it waits while 4,096 records wait, whatever it writes (log entry 80). -/
def execRegWrite (off : BitVec 26) (v : Word) (s : State) : Outcome :=
  if !answersAll s then .next s
  else if !mgmtReach s off.toNat then
    let (c, s) := s.drawCode
    .next (s.emit (.response 0x04 c []))
  else if off.toNat % 4 ≠ 0 then .next ((s.recordLast (.glbLast, 0) .align).emit (.response 0x04 .align []))
  else if decide (4096 ≤ s.digQ.length) || s.holds .mgmt then .next (s.holdWrite .mgmt off.toNat v)
  else
    let s := s.write32 .mgmt off.toNat v
    .next (s.emit (.response 0x04 (s.lastCode off.toNat) []))

/-- SUMP_READ (R421): the entry of a sequence number; no rule names the code when it is not held. -/
def execSumpRead (seq : Nat) (s : State) : Outcome :=
  if !answersAll s then .next s
  else match s.sump.get? (seq % 4096) with
    | some e =>
      if e.seq = seq then .next (s.emit (.response 0x05 .ok e.bytes))
      else
        let (c, s) := s.drawCode
        .next (s.emit (.response 0x05 c []))
    | none =>
      let (c, s) := s.drawCode
      .next (s.emit (.response 0x05 c []))

/-- Value of a PLDM sensor, numbered as log entry 33 says. -/
def sensor (s : State) (id : Nat) : Option Nat :=
  if id < 6 then some (s.fld .kpcTemp id 7 0)
  else match id with
    | 6 => some (s.fld .kpcTempMem 0 7 0)
    | 7 => some (s.fld .kpcTempMem 0 19 12)
    | 8 => some (s.fld .kpcTempInlet 0 7 0)
    | 9 => some (capBits 11 s.powerAvg)
    | 10 => some (s.view .kpcState 0)
    | _ => none

/-- PLDM_SENSOR_READ (R444). -/
def execPldmSensorRead (id : Nat) (s : State) : Outcome :=
  if !answersAll s then .next s
  else match sensor s id with
    | some v => .next (s.emit (.response 0x10 .ok (leBytes 4 v)))
    | none =>
      let (c, s) := s.drawCode
      .next (s.emit (.response 0x10 c []))

end Sys2Proof.Machine
end

