-- ==== Sys2Proof/Machine/Dispatch.lean ====
section
/-!
DEFINITION. One arm per constructor of Instr: the meaning of each command.
-/

namespace Sys2Proof.Machine

/-- The effect of a command on everything but the queue of waiting commands. -/
def exec (i : Instr) (s : State) : Host.Outcome State Fault Refusal :=
  match i with
  | .registerWrite src off size v => Sys2Proof.Machine.execRegisterWrite src off size v s
  | .digestFold => Sys2Proof.Machine.execDigestFold s
  | .nop c w => Sys2Proof.Machine.execNop c w s
  | .add c w => Sys2Proof.Machine.execAdd c w s
  | .sub c w => Sys2Proof.Machine.execSub c w s
  | .mul c w => Sys2Proof.Machine.execMul c w s
  | .mulh c w => Sys2Proof.Machine.execMulh c w s
  | .andI c w => Sys2Proof.Machine.execAndI c w s
  | .orI c w => Sys2Proof.Machine.execOrI c w s
  | .xor c w => Sys2Proof.Machine.execXor c w s
  | .shl c w => Sys2Proof.Machine.execShl c w s
  | .shr c w => Sys2Proof.Machine.execShr c w s
  | .sra c w => Sys2Proof.Machine.execSra c w s
  | .minI c w => Sys2Proof.Machine.execMinI c w s
  | .maxI c w => Sys2Proof.Machine.execMaxI c w s
  | .addi c w => Sys2Proof.Machine.execAddi c w s
  | .andi c w => Sys2Proof.Machine.execAndi c w s
  | .shli c w => Sys2Proof.Machine.execShli c w s
  | .shri c w => Sys2Proof.Machine.execShri c w s
  | .ldi c w => Sys2Proof.Machine.execLdi c w s
  | .lhi c w => Sys2Proof.Machine.execLhi c w s
  | .ldp c w => Sys2Proof.Machine.execLdp c w s
  | .cmp c w => Sys2Proof.Machine.execCmp c w s
  | .cmpi c w => Sys2Proof.Machine.execCmpi c w s
  | .sel c w => Sys2Proof.Machine.execSel c w s
  | .plg c w => Sys2Proof.Machine.execPlg c w s
  | .fadd c w => Sys2Proof.Machine.execFadd c w s
  | .fsub c w => Sys2Proof.Machine.execFsub c w s
  | .fmul c w => Sys2Proof.Machine.execFmul c w s
  | .fma c w => Sys2Proof.Machine.execFma c w s
  | .fci c w => Sys2Proof.Machine.execFci c w s
  | .fcf c w => Sys2Proof.Machine.execFcf c w s
  | .br c w => Sys2Proof.Machine.execBr c w s
  | .brt c w => Sys2Proof.Machine.execBrt c w s
  | .brf c w => Sys2Proof.Machine.execBrf c w s
  | .bal c w => Sys2Proof.Machine.execBal c w s
  | .jr c w => Sys2Proof.Machine.execJr c w s
  | .jal c w => Sys2Proof.Machine.execJal c w s
  | .dbn c w => Sys2Proof.Machine.execDbn c w s
  | .ldb c w => Sys2Proof.Machine.execLdb c w s
  | .ldh c w => Sys2Proof.Machine.execLdh c w s
  | .ldw c w => Sys2Proof.Machine.execLdw c w s
  | .ldd c w => Sys2Proof.Machine.execLdd c w s
  | .lxb c w => Sys2Proof.Machine.execLxb c w s
  | .lxh c w => Sys2Proof.Machine.execLxh c w s
  | .lxw c w => Sys2Proof.Machine.execLxw c w s
  | .stb c w => Sys2Proof.Machine.execStb c w s
  | .sth c w => Sys2Proof.Machine.execSth c w s
  | .stw c w => Sys2Proof.Machine.execStw c w s
  | .std c w => Sys2Proof.Machine.execStd c w s
  | .lsw c w => Sys2Proof.Machine.execLsw c w s
  | .lsd c w => Sys2Proof.Machine.execLsd c w s
  | .ssw c w => Sys2Proof.Machine.execSsw c w s
  | .ssd c w => Sys2Proof.Machine.execSsd c w s
  | .aad c w => Sys2Proof.Machine.execAad c w s
  | .acs c w => Sys2Proof.Machine.execAcs c w s
  | .asw c w => Sys2Proof.Machine.execAsw c w s
  | .inv c w => Sys2Proof.Machine.execInv c w s
  | .ina c w => Sys2Proof.Machine.execIna c w s
  | .loadDataReturn c => Sys2Proof.Machine.execLoadDataReturn c s
  | .coreHaltReexecute c => Sys2Proof.Machine.execCoreHaltReexecute c s
  | .tld c w => Sys2Proof.Machine.execTld c w s
  | .tls c w => Sys2Proof.Machine.execTls c w s
  | .tst c w => Sys2Proof.Machine.execTst c w s
  | .tss c w => Sys2Proof.Machine.execTss c w s
  | .tmv c w => Sys2Proof.Machine.execTmv c w s
  | .tsf c w => Sys2Proof.Machine.execTsf c w s
  | .tgf c w => Sys2Proof.Machine.execTgf c w s
  | .tof c w => Sys2Proof.Machine.execTof c w s
  | .tlp c w => Sys2Proof.Machine.execTlp c w s
  | .tck c w => Sys2Proof.Machine.execTck c w s
  | .wld c w => Sys2Proof.Machine.execWld c w s
  | .mst c w => Sys2Proof.Machine.execMst c w s
  | .mdr c w => Sys2Proof.Machine.execMdr c w s
  | .mtf c w => Sys2Proof.Machine.execMtf c w s
  | .inputStationary c w => Sys2Proof.Machine.execInputStationary c w s
  | .matrixStart c => Sys2Proof.Machine.execMatrixStart c s
  | .wldLoadDone c => Sys2Proof.Machine.execWldLoadDone c s
  | .matrixComplete c => Sys2Proof.Machine.execMatrixComplete c s
  | .vch c w w2 => Sys2Proof.Machine.execVch c w w2 s
  | .vchStart c => Sys2Proof.Machine.execVchStart c s
  | .vchComplete c => Sys2Proof.Machine.execVchComplete c s
  | .dma c w => Sys2Proof.Machine.execDma c w s
  | .fil c w => Sys2Proof.Machine.execFil c w s
  | .scp c w => Sys2Proof.Machine.execScp c w s
  | .dmaDescStart c start => Sys2Proof.Machine.execDmaDescStart c start s
  | .dmaShortHoldExpire c slot => Sys2Proof.Machine.execDmaShortHoldExpire c slot s
  | .dmaDescComplete c slot => Sys2Proof.Machine.execDmaDescComplete c slot s
  | .dmaResume c slot => Sys2Proof.Machine.execDmaResume c slot s
  | .dmaHaltTimeout st => Sys2Proof.Machine.execDmaHaltTimeout st s
  | .remoteWriteRetry tag => Sys2Proof.Machine.execRemoteWriteRetry tag s
  | .remoteWriteRetryLimit tag => Sys2Proof.Machine.execRemoteWriteRetryLimit tag s
  | .lkp c w w2 => Sys2Proof.Machine.execLkp c w w2 s
  | .lku c w w2 => Sys2Proof.Machine.execLku c w w2 s
  | .part e pkt => Sys2Proof.Machine.execPart e pkt s
  | .psum c pkt => Sys2Proof.Machine.execPsum c pkt s
  | .update e pkt => Sys2Proof.Machine.execUpdate e pkt s
  | .uack link pkt => Sys2Proof.Machine.execUack link pkt s
  | .rowPageInstall h => Sys2Proof.Machine.execRowPageInstall h s
  | .register src v => Sys2Proof.Machine.execRegister src v s
  | .retire src v => Sys2Proof.Machine.execRetire src v s
  | .cmsHashCommit src d v => Sys2Proof.Machine.execCmsHashCommit src d v s
  | .cmsSetEnable src n k v => Sys2Proof.Machine.execCmsSetEnable src n k v s
  | .cmsSnap src n v => Sys2Proof.Machine.execCmsSnap src n v s
  | .cmsSnapDone n => Sys2Proof.Machine.execCmsSnapDone n s
  | .hotLoad src n v => Sys2Proof.Machine.execHotLoad src n v s
  | .hotLoadDone n => Sys2Proof.Machine.execHotLoadDone n s
  | .hotSwitch src n v => Sys2Proof.Machine.execHotSwitch src n v s
  | .place src v => Sys2Proof.Machine.execPlace src v s
  | .writeRows src v => Sys2Proof.Machine.execWriteRows src v s
  | .writeRowsDone => Sys2Proof.Machine.execWriteRowsDone s
  | .begin src v => Sys2Proof.Machine.execBegin src v s
  | .seal src v => Sys2Proof.Machine.execSeal src v s
  | .advance src v => Sys2Proof.Machine.execAdvance src v s
  | .release src v => Sys2Proof.Machine.execRelease src v s
  | .abandon src v => Sys2Proof.Machine.execAbandon src v s
  | .instarRetire tid => Sys2Proof.Machine.execInstarRetire tid s
  | .migrate src v full => Sys2Proof.Machine.execMigrate src v full s
  | .migrationPassEnd m code => Sys2Proof.Machine.execMigrationPassEnd m code s
  | .migrationCutoverDone m => Sys2Proof.Machine.execMigrationCutoverDone m s
  | .migSlotAck src m v => Sys2Proof.Machine.execMigSlotAck src m v s
  | .dirset src v => Sys2Proof.Machine.execDirset src v s
  | .dirclr src v => Sys2Proof.Machine.execDirclr src v s
  | .fold src v => Sys2Proof.Machine.execFold src v s
  | .foldDone => Sys2Proof.Machine.execFoldDone s
  | .flush src v => Sys2Proof.Machine.execFlush src v s
  | .flushDone => Sys2Proof.Machine.execFlushDone s
  | .shadowFoldTimer => Sys2Proof.Machine.execShadowFoldTimer s
  | .pageWriteBack => Sys2Proof.Machine.execPageWriteBack s
  | .governorOverpace => Sys2Proof.Machine.execGovernorOverpace s
  | .cisternRequest ch off data err => Sys2Proof.Machine.execCisternRequest ch off data err s
  | .writeTurnTimeout ch sub => Sys2Proof.Machine.execWriteTurnTimeout ch sub s
  | .patrolScrub err => Sys2Proof.Machine.execPatrolScrub err s
  | .poolSet src v => Sys2Proof.Machine.execPoolSet src v s
  | .poolClear src v => Sys2Proof.Machine.execPoolClear src v s
  | .resetCtx src v => Sys2Proof.Machine.execResetCtx src v s
  | .alc c w => Sys2Proof.Machine.execAlc c w s
  | .fre c w => Sys2Proof.Machine.execFre c w s
  | .wellRead h => Sys2Proof.Machine.execWellRead h s
  | .wellWrite h => Sys2Proof.Machine.execWellWrite h s
  | .wellTrim h => Sys2Proof.Machine.execWellTrim h s
  | .nandReadDone h lpn ok => Sys2Proof.Machine.execNandReadDone h lpn ok s
  | .nandProgramDone h fail => Sys2Proof.Machine.execNandProgramDone h fail s
  | .nandEraseDone h fail => Sys2Proof.Machine.execNandEraseDone h fail s
  | .reclaim h => Sys2Proof.Machine.execReclaim h s
  | .wearLevel h => Sys2Proof.Machine.execWearLevel h s
  | .journalWrite h => Sys2Proof.Machine.execJournalWrite h s
  | .checkpointTimer h => Sys2Proof.Machine.execCheckpointTimer h s
  | .blockScrub h blk ber offsets => Sys2Proof.Machine.execBlockScrub h blk ber offsets s
  | .diePollTimeout h chan die => Sys2Proof.Machine.execDiePollTimeout h chan die s
  | .dieRebuildEnd h => Sys2Proof.Machine.execDieRebuildEnd h s
  | .wellMount holdup => Sys2Proof.Machine.execWellMount holdup s
  | .wellMountDone => Sys2Proof.Machine.execWellMountDone s
  | .checkpoint src v => Sys2Proof.Machine.execCheckpoint src v s
  | .shutdown src v => Sys2Proof.Machine.execShutdown src v s
  | .sanitize src v => Sys2Proof.Machine.execSanitize src v s
  | .sanitizeEraseDone => Sys2Proof.Machine.execSanitizeEraseDone s
  | .mount src v => Sys2Proof.Machine.execMount src v s
  | .sig c w => Sys2Proof.Machine.execSig c w s
  | .wat c w => Sys2Proof.Machine.execWat c w s
  | .rel c w => Sys2Proof.Machine.execRel c w s
  | .acq c w => Sys2Proof.Machine.execAcq c w s
  | .cwt c w => Sys2Proof.Machine.execCwt c w s
  | .bar c w => Sys2Proof.Machine.execBar c w s
  | .releasePerform c => Sys2Proof.Machine.execReleasePerform c s
  | .acquireComplete c => Sys2Proof.Machine.execAcquireComplete c s
  | .watWake c => Sys2Proof.Machine.execWatWake c s
  | .cwtWake c => Sys2Proof.Machine.execCwtWake c s
  | .waitTimeout c => Sys2Proof.Machine.execWaitTimeout c s
  | .fen c w => Sys2Proof.Machine.execFen c w s
  | .fenComplete c => Sys2Proof.Machine.execFenComplete c s
  | .endI c w => Sys2Proof.Machine.execEndI c w s
  | .flt c w => Sys2Proof.Machine.execFlt c w s
  | .mfs c w => Sys2Proof.Machine.execMfs c w s
  | .mts c w => Sys2Proof.Machine.execMts c w s
  | .cvt c w => Sys2Proof.Machine.execCvt c w s
  | .ici c w => Sys2Proof.Machine.execIci c w s
  | .icinv src c => Sys2Proof.Machine.execIcinv src c s
  | .dcinv src c => Sys2Proof.Machine.execDcinv src c s
  | .numClearSatTotal src c => Sys2Proof.Machine.execNumClearSatTotal src c s
  | .srSeedLoad src c v => Sys2Proof.Machine.execSrSeedLoad src c v s
  | .translationWalkDone st => Sys2Proof.Machine.execTranslationWalkDone st s
  | .faultRingWrite => Sys2Proof.Machine.execFaultRingWrite s
  | .fringHeadWrite src v => Sys2Proof.Machine.execFringHeadWrite src v s
  | .xltFcmp src v => Sys2Proof.Machine.execXltFcmp src v s
  | .xltInv src v => Sys2Proof.Machine.execXltInv src v s
  | .invalidationDone => Sys2Proof.Machine.execInvalidationDone s
  | .invalidationDrainTimeout => Sys2Proof.Machine.execInvalidationDrainTimeout s
  | .ctxEnableWrite src n v => Sys2Proof.Machine.execCtxEnableWrite src n v s
  | .atsInvalidation n lo pages => Sys2Proof.Machine.execAtsInvalidation n lo pages s
  | .atsTranslationResponse die n st va answer => Sys2Proof.Machine.execAtsTranslationResponse die n st va answer s
  | .sqDoorbell src q v => Sys2Proof.Machine.execSqDoorbell src q v s
  | .cqDoorbell src q v => Sys2Proof.Machine.execCqDoorbell src q v s
  | .entryFetch q => Sys2Proof.Machine.execEntryFetch q s
  | .launchEntry cl => Sys2Proof.Machine.execLaunchEntry cl s
  | .cmdEntry q => Sys2Proof.Machine.execCmdEntry q s
  | .launchStart l => Sys2Proof.Machine.execLaunchStart l s
  | .launchEnd l => Sys2Proof.Machine.execLaunchEnd l s
  | .irqTimer q => Sys2Proof.Machine.execIrqTimer q s
  | .launchRestart l => Sys2Proof.Machine.execLaunchRestart l s
  | .qwt c w => Sys2Proof.Machine.execQwt c w s
  | .qwtWake q => Sys2Proof.Machine.execQwtWake q s
  | .qpt c w => Sys2Proof.Machine.execQpt c w s
  | .yld c w => Sys2Proof.Machine.execYld c w s
  | .unblock src q => Sys2Proof.Machine.execUnblock src q s
  | .queueReset src q => Sys2Proof.Machine.execQueueReset src q s
  | .cycleEntryStart e => Sys2Proof.Machine.execCycleEntryStart e s
  | .makeWayWindow e => Sys2Proof.Machine.execMakeWayWindow e s
  | .frameEnd => Sys2Proof.Machine.execFrameEnd s
  | .schSwitch src => Sys2Proof.Machine.execSchSwitch src s
  | .schGo src => Sys2Proof.Machine.execSchGo src s
  | .schStop src => Sys2Proof.Machine.execSchStop src s
  | .prewake e cl => Sys2Proof.Machine.execPrewake e cl s
  | .clusterPark cl => Sys2Proof.Machine.execClusterPark cl s
  | .ageReserve l => Sys2Proof.Machine.execAgeReserve l s
  | .quantumExpire l => Sys2Proof.Machine.execQuantumExpire l s
  | .launchSuspend l => Sys2Proof.Machine.execLaunchSuspend l s
  | .launchResume l => Sys2Proof.Machine.execLaunchResume l s
  | .makeWayTimeout l => Sys2Proof.Machine.execMakeWayTimeout l s
  | .composerTailWrite src k v => Sys2Proof.Machine.execComposerTailWrite src k v s
  | .batchWaitExpire k => Sys2Proof.Machine.execBatchWaitExpire k s
  | .hostBar2Write port fn a bs => Sys2Proof.Machine.execHostBar2Write port fn a bs s
  | .hostBar2Read port fn a n => Sys2Proof.Machine.execHostBar2Read port fn a n s
  | .regionWrite port rid a bs poison => Sys2Proof.Machine.execRegionWrite port rid a bs poison s
  | .bar4Read port a n => Sys2Proof.Machine.execBar4Read port a n s
  | .regionClr src r => Sys2Proof.Machine.execRegionClr src r s
  | .vfFlr port fn => Sys2Proof.Machine.execVfFlr port fn s
  | .pfFlr port => Sys2Proof.Machine.execPfFlr port s
  | .hostSnoop h line => Sys2Proof.Machine.execHostSnoop h line s
  | .hostPortWaitTimeout port q => Sys2Proof.Machine.execHostPortWaitTimeout port q s
  | .copyEntry e => Sys2Proof.Machine.execCopyEntry e s
  | .copyJobStart start => Sys2Proof.Machine.execCopyJobStart start s
  | .copyJobEnd j => Sys2Proof.Machine.execCopyJobEnd j s
  | .flitReceive link f => Sys2Proof.Machine.execFlitReceive link f s
  | .write link pkt => Sys2Proof.Machine.execWrite link pkt s
  | .read link pkt => Sys2Proof.Machine.execRead link pkt s
  | .wack link pkt => Sys2Proof.Machine.execWack link pkt s
  | .rdata link pkt => Sys2Proof.Machine.execRdata link pkt s
  | .nak link pkt => Sys2Proof.Machine.execNak link pkt s
  | .hello link pkt => Sys2Proof.Machine.execHello link pkt s
  | .digest link pkt => Sys2Proof.Machine.execDigest link pkt s
  | .resend link pkt => Sys2Proof.Machine.execResend link pkt s
  | .verdict link pkt => Sys2Proof.Machine.execVerdict link pkt s
  | .resendTimeout w chunk => Sys2Proof.Machine.execResendTimeout w chunk s
  | .transactionTimeout tag => Sys2Proof.Machine.execTransactionTimeout tag s
  | .tlkCntClr src k => Sys2Proof.Machine.execTlkCntClr src k s
  | .linkTrain link => Sys2Proof.Machine.execLinkTrain link s
  | .retrain src link => Sys2Proof.Machine.execRetrain src link s
  | .disable src link => Sys2Proof.Machine.execDisable src link s
  | .laneFail link lane => Sys2Proof.Machine.execLaneFail link lane s
  | .laneFailoverDone link => Sys2Proof.Machine.execLaneFailoverDone link s
  | .linkDown link => Sys2Proof.Machine.execLinkDown link s
  | .pluggableInsert cage watts => Sys2Proof.Machine.execPluggableInsert cage watts s
  | .pluggableRemove cage => Sys2Proof.Machine.execPluggableRemove cage s
  | .hangSample hung idle => Sys2Proof.Machine.execHangSample hung idle s
  | .domainReset kind inst => Sys2Proof.Machine.execDomainReset kind inst s
  | .resetQuiesceDone kind inst missing => Sys2Proof.Machine.execResetQuiesceDone kind inst missing s
  | .resetProperDone kind inst => Sys2Proof.Machine.execResetProperDone kind inst s
  | .resetReturn kind inst => Sys2Proof.Machine.execResetReturn kind inst s
  | .resetPhaseTimeout kind inst => Sys2Proof.Machine.execResetPhaseTimeout kind inst s
  | .rasResetCmd src v => Sys2Proof.Machine.execRasResetCmd src v s
  | .deviceWarmReset t => Sys2Proof.Machine.execDeviceWarmReset t s
  | .chrysalisRingCopy => Sys2Proof.Machine.execChrysalisRingCopy s
  | .sumpIrq => Sys2Proof.Machine.execSumpIrq s
  | .ceRateMinute kind unit => Sys2Proof.Machine.execCeRateMinute kind unit s
  | .configParityError off => Sys2Proof.Machine.execConfigParityError off s
  | .coreFence c => Sys2Proof.Machine.execCoreFence c s
  | .rasFence src v => Sys2Proof.Machine.execRasFence src v s
  | .scanStep c fail last => Sys2Proof.Machine.execScanStep c fail last s
  | .powerSample watts => Sys2Proof.Machine.execPowerSample watts s
  | .thermalSample t => Sys2Proof.Machine.execThermalSample t s
  | .clusterWake cl => Sys2Proof.Machine.execClusterWake cl s
  | .clusterWakeDone cl => Sys2Proof.Machine.execClusterWakeDone cl s
  | .slackSample slack => Sys2Proof.Machine.execSlackSample slack s
  | .maintenancePoint m => Sys2Proof.Machine.execMaintenancePoint m s
  | .maintenanceDone => Sys2Proof.Machine.execMaintenanceDone s
  | .kpcMaintGo src v => Sys2Proof.Machine.execKpcMaintGo src v s
  | .coldBoot slotId t => Sys2Proof.Machine.execColdBoot slotId t s
  | .powerLossSignal => Sys2Proof.Machine.execPowerLossSignal s
  | .inputStableTimer => Sys2Proof.Machine.execInputStableTimer s
  | .perstAssert port => Sys2Proof.Machine.execPerstAssert port s
  | .tapInstruction op => Sys2Proof.Machine.execTapInstruction op s
  | .pldmFwUpdate c => Sys2Proof.Machine.execPldmFwUpdate c s
  | .activate => Sys2Proof.Machine.execActivate s
  | .secSnap src => Sys2Proof.Machine.execSecSnap src s
  | .advanceSvn src v => Sys2Proof.Machine.execAdvanceSvn src v s
  | .secSeal src n => Sys2Proof.Machine.execSecSeal src n s
  | .secUnseal src n => Sys2Proof.Machine.execSecUnseal src n s
  | .getVersion => Sys2Proof.Machine.execGetVersion s
  | .getCapabilities => Sys2Proof.Machine.execGetCapabilities s
  | .negotiateAlgorithms => Sys2Proof.Machine.execNegotiateAlgorithms s
  | .getDigests => Sys2Proof.Machine.execGetDigests s
  | .getCertificate off len => Sys2Proof.Machine.execGetCertificate off len s
  | .challenge nonce => Sys2Proof.Machine.execChallenge nonce s
  | .getMeasurements index => Sys2Proof.Machine.execGetMeasurements index s
  | .keyExchange key => Sys2Proof.Machine.execKeyExchange key s
  | .finish session => Sys2Proof.Machine.execFinish session s
  | .endSession session => Sys2Proof.Machine.execEndSession session s
  | .powerKeeper => Sys2Proof.Machine.execPowerKeeper s
  | .powerColdBoot => Sys2Proof.Machine.execPowerColdBoot s
  | .warmReset => Sys2Proof.Machine.execWarmReset s
  | .regRead off => Sys2Proof.Machine.execRegRead off s
  | .regWrite off v => Sys2Proof.Machine.execRegWrite off v s
  | .sumpRead seq => Sys2Proof.Machine.execSumpRead seq s
  | .pldmSensorRead id => Sys2Proof.Machine.execPldmSensorRead id s
  | .lookupUnitStart c => Sys2Proof.Machine.execLookupUnitStart c s
  | .clusterParkDone cl => Sys2Proof.Machine.execClusterParkDone cl s
  | .hostLinkDown port => Sys2Proof.Machine.execHostLinkDown port s
  | .hostLinkUp port rate width link => Sys2Proof.Machine.execHostLinkUp port rate width link s
  | .perstDeassert port => Sys2Proof.Machine.execPerstDeassert port s
  | .msixUnmask port fn vec => Sys2Proof.Machine.execMsixUnmask port fn vec s
  | .registerRead src off size => Sys2Proof.Machine.execRegisterRead src off size s
  | .spillHeadWrite src v => Sys2Proof.Machine.execSpillHeadWrite src v s
  | .failoverPatternReceived link lane => Sys2Proof.Machine.execFailoverPatternReceived link lane s
  | .welCmdDone code => Sys2Proof.Machine.execWelCmdDone code s
  | .destinationReserve tid group e pages shadows => Sys2Proof.Machine.execDestinationReserve tid group e pages shadows s
  | .holdupExhausted => Sys2Proof.Machine.execHoldupExhausted s

end Sys2Proof.Machine
end

