-- ==== Sys2Proof/Machine/Tick.lean ====
section
/-!
DEFINITION. What the passing of one keeper tick of 20 ns does while no command waits (log entry 8).
-/

namespace Sys2Proof.Machine

namespace State

/-- Arithmetic-clock cycles in a keeper tick: 35 at 1.75 GHz, 32 at 1.60 GHz (R97, R452). -/
def tickCycles (s : State) : Nat := if s.flag .kpcState 0 0 then 32 else 35

/-- The counters of a core that count cycles: SYN_WAIT_CYC while it waits, MXU_LOAD_STALL while its next MST is held only by
its shadow. -/
def coreTick (s : State) (p n : Nat) : State :=
  let s := if (s.core p).wait.isSome then s.bump .synWaitCyc p n else s
  if loadHeld s p then s.bump .mxuLoadStall p n else s

/-- A tick of keeper time (R438). While the dies are powered the arithmetic clock runs, and write-budget tokens are added
at GOV_BUDGET / 4,320 bytes a tick up to their cap (R234), and each sub-channel of the cistern serves a request (R251,
log entry 67). -/
def tick (s : State) : State :=
  match s.power with
  | .off => s
  | .keeper => { s with ticks := s.ticks + 1 }
  | .on =>
    let n := s.tickCycles
    let s := (s.cores.foldl (fun s kv => s.coreTick kv.1 n) s).serveSubs
    { s with
      ticks := s.ticks + 1
      cycle := s.cycle + n
      tokens := min s.tokenCap (s.tokens + (s.fld .govBudget 0 15 0 : Nat)) }

end State

end Sys2Proof.Machine
end

