-- ==== Sys2Proof/WellFormed.lean ====
section
/-!
DEFINITION. Well-formed commands: the bounds that the senders of the module's inputs keep, as the spec gives them. `step`
does not check them: a statement that needs one has it as a premise.
-/

namespace Sys2Proof

/-- Packet types of R396. -/
def Packet.types : List Nat := [0x01, 0x02, 0x03, 0x04, 0x10, 0x11, 0x12, 0x13, 0x14, 0x20, 0x21, 0x22, 0x23]

/-- The fields of a header fit the places that R396 gives them, and the body its LEN. -/
def Packet.wf (p : Packet) : Bool :=
  decide (p.dst < 2 ^ 12) && decide (p.hops < 2 ^ 4) && decide (p.src < 2 ^ 12) && decide (p.type < 2 ^ 8) &&
  decide (p.tag < 2 ^ 32) && decide (p.pmask < 2 ^ 32) && decide (p.addr < 2 ^ 64) && decide (p.arg < 2 ^ 64) &&
  decide (p.body.length ≤ 2048)

/-- A packet of a row's own type. -/
def Packet.wfAs (t : Nat) (p : Packet) : Bool := p.wf && p.type == t

/-- A flit has 256 bytes (R390). -/
def Flit.wf (f : Flit) : Bool := f.bytes.length == 256

/-- A page holds 2,048 bytes in 32 granules (R207, R223). -/
def MovedPage.wf (p : MovedPage) : Bool := p.data.length == 2048 && p.poison.all fun g => decide (g < 32)

/-- Readings of six dies, the 12 LPDDR6 packages and eight NAND packages (R446). -/
def Temps.wf (t : Temps) : Bool := t.dies.length == 6 && t.mem.length == 12 && t.nand.length == 8

/-- A measurement of the slack of 144 logical clusters, of two lanes of 36 links, and margins of one byte (R448). -/
def Measures.wf (m : Measures) : Bool := m.slack.length == 144 && m.lanes.length == 36 && decide (m.cistern.rest < 256)

/-- A topology entry names 36 links (R457). -/
def TopoEntry.wf (t : TopoEntry) : Bool :=
  decide (t.nbrs.length ≤ 36) && t.routes.all (fun r => decide (r.1 < 4096)) && t.digest.length == 64

/-- The parts of a component fit their places (R453, R457). -/
def FwComponent.wf : FwComponent → Bool
  | .image i => i.digest.length == 64
  | .topology t => t.all fun e => decide (e.1 < 256) && e.2.wf
  | .partition p => p.bytes.length == 64

/-- A host write or read of 1 to 4,096 bytes that stays within its BAR (R374). -/
def span (bits a n : Nat) : Bool := decide (1 ≤ n) && decide (n ≤ 4096) && decide (a + n ≤ 2 ^ bits)

/-- The bounds of a command's operands; a command without operands to bound is well formed. -/
def Instr.wf : Instr → Bool
  | .registerWrite _ off size _ => decide (1 ≤ size) && decide (size ≤ 8) && decide (off.toNat + size ≤ 2 ^ 26)
  | .registerRead _ off size => span 26 off.toNat size
  | .hostBar2Write _ _ a bs => span 41 a.toNat bs.length
  | .hostBar2Read _ _ a n => span 41 a.toNat n
  | .regionWrite _ _ a bs _ => span 38 a.toNat bs.length
  | .bar4Read _ a n => span 38 a.toNat n
  | .hostSnoop _ line => match line with | some l => l.length == 64 | none => true
  | .inputStationary c w => (instrOf c (IWord.ofBits w) 0 (IWord.func w) (IWord.cls w)).isNone
  | .flitReceive _ f => f.wf
  | .part _ p => match p with | some p => p.wfAs 0x03 | none => true
  | .psum _ p => match p with | some p => p.wfAs 0x12 | none => true
  | .update _ p => match p with | some p => p.wfAs 0x04 | none => true
  | .uack _ p => p.wfAs 0x13
  | .write _ p => p.wfAs 0x01
  | .read _ p => p.wfAs 0x02
  | .wack _ p => p.wfAs 0x10
  | .rdata _ p => p.wfAs 0x11
  | .nak _ p => p.wfAs 0x14
  | .hello _ p => p.wfAs 0x20
  | .digest _ p => p.wfAs 0x21
  | .resend _ p => p.wfAs 0x22
  | .verdict _ p => p.wfAs 0x23
  | .destinationReserve _ _ _ pages _ => pages.all MovedPage.wf
  | .thermalSample t => t.wf
  | .maintenancePoint m => m.wf
  | .pldmFwUpdate c => c.wf
  | .challenge nonce => nonce.length == 32
  | .keyExchange key => key.length == 1184
  | _ => true

end Sys2Proof
end

