-- ==== Sys2Proof/Safety.lean ====
section
/-!
DEFINITION. The terms in which the statements are made: sound states, what issues, and what is left unchanged.
-/

namespace Sys2Proof.Machine

namespace State

/-- Every memory is in canonical form: cistern working memory, host memory and each scratchpad. -/
def memWf (s : State) : Bool := s.cis.wf && s.host.wf && s.pads.all fun kv => kv.2.wf

/-- Keys of sealed contexts come from the numbers already given out, and no two contexts share one (R461). -/
def keysWf (s : State) : Bool := s.keys.all (fun kv => decide (kv.2 < s.nextKey)) && decide (s.keys.map Prod.snd).Nodup

/-- What every step keeps: canonical memories, keys of sealed contexts that are never shared, and preferred firmware slots
that exist (R453). -/
def Inv (s : State) : Prop := s.memWf = true ∧ s.keysWf = true ∧ (s.bootDescs.1.pref < 2 ∧ s.bootDescs.2.pref < 2)

/-- Only a core differs, and it is now `k`. -/
def CoreOnly (s t : State) (p : Nat) (k : Core) : Prop :=
  t.core p = k ∧ (∀ q, q ≠ p → t.core q = s.core q) ∧ { t with cores := s.cores } = s


/-- The state after the fetch of an instruction's words. -/
def afterFetch (s : State) (p : Nat) (w2 : Option DWord) : State := (s.fetch p w2.isSome).2

end State

/-- A core as an instruction that is complete leaves it: it runs, goes on at an address, and counts the instruction. -/
def Core.goOn (k : Core) (pc : BitVec 57) : Core := { k with run := .running, pc := pc, retired := k.retired + 1, heldBy := [] }

/-- An instruction reaches its own operation on core `p`: the core can issue, the words are fetched without error, the core
does not make way here, no dependence mark holds it (R83), and no register it names is still to be written (R81). -/
structure Issues (s : State) (p : Nat) (w : IWord) (w2 : Option DWord) (regs : List RegRef) : Prop where
  can : s.canIssue p = true
  fetches : (s.fetch p w2.isSome).1 = .ok
  stays : ((s.afterFetch p w2).askedWay p && w.yld) = false
  marker : State.markerOk w2 = true
  order : (w.dep && !((s.afterFetch p w2).dmaJobs p).isEmpty) = false
  free : ((s.afterFetch p w2).core p).isBusy regs = false

/-- Command `i` completes on core `p`: it answers a next state in which that core alone differs, and has gone on at `pc`
with the registers of `k`. -/
def Completes (i : Instr) (s : State) (p : Nat) (w2 : Option DWord) (k : Core) (pc : BitVec 57) : Prop :=
  ∃ t, exec i s = .next t ∧ State.CoreOnly (s.afterFetch p w2) t p (k.goOn pc)

/-- The context of core `p` translates `va` to working memory at `a` without a walk, and may touch `n` bytes there
(R303, R310, R462). -/
structure Local (s : State) (p va n : Nat) (write : Bool) (a : Nat) : Prop where
  on : s.ctxOn (s.core p).ctx = true
  hit : ∃ l, s.tlbHit p (s.core p).ctx va = some l ∧ (write = true → l.wr = true) ∧ s.place l va = .cis a
  may : s.mayTouch (s.core p).ctx a n = true

/-- The state after a core's TLB has answered. -/
def State.afterTlb (s : State) (p va : Nat) : State := s.tlbTouch p (s.core p).ctx va

/-- One byte of working memory as a request under a key reads it (R462). -/
def State.byteAs (s : State) (key x : Nat) : List Byte := s.cisBytes x 1 key

/-- Memory after `bs` is stored at `a`: the bytes stored read as they were stored, every other byte of working memory as
before, and the granules that the store does not touch keep their contents and their key. -/
def State.Stored (s t : State) (a : Nat) (bs : List Byte) : Prop :=
  (∀ i, (h : i < bs.length) → t.byteAs (s.keyAt a) (a + i) = [bs[i]]) ∧
  (∀ x, x < a ∨ a + bs.length ≤ x → t.byteAs (s.keyAt a) x = s.byteAs (s.keyAt a) x) ∧
  (∀ x, x / 64 ∉ granules a bs.length → t.cis.read x = s.cis.read x ∧ t.cisKey.getD (x / 64) 0 = s.cisKey.getD (x / 64) 0)

/-- Command `i` completes on core `p` and stores `bs` at `a` in working memory: besides that core and those bytes nothing
differs. -/
def CompletesStore (i : Instr) (s : State) (p : Nat) (k : Core) (pc : BitVec 57) (a : Nat) (bs : List Byte) : Prop :=
  let s1 := s.afterFetch p none
  ∃ t, exec i s = .next t ∧ t.core p = k.goOn pc ∧ (∀ q, q ≠ p → t.core q = s1.core q) ∧ s1.Stored t a bs ∧
    { t with cores := s1.cores, cis := s1.cis, cisKey := s1.cisKey } = s1

/-- The same for the scratchpad of the core: the bytes stored, and nothing else of any scratchpad. -/
def CompletesPadStore (i : Instr) (s : State) (p : Nat) (k : Core) (pc : BitVec 57) (a : Nat) (bs : List Byte) : Prop :=
  let s1 := s.afterFetch p none
  ∃ t, exec i s = .next t ∧ t.core p = k.goOn pc ∧ (∀ q, q ≠ p → t.core q = s1.core q) ∧
    (∀ i, (h : i < bs.length) → (t.pad p).read (a + i) = bs[i]) ∧
    (∀ x, x < a ∨ a + bs.length ≤ x → (t.pad p).read x = (s1.pad p).read x) ∧
    (∀ q, q ≠ p → t.pad q = s1.pad q) ∧
    { t with cores := s1.cores, pads := s1.pads } = s1

/-- A core takes one more unit instruction of a class and function into program order (R82). -/
def Core.Queues (k k' : Core) (cls func : Nat) (w : IWord) (w2 : DWord) : Prop :=
  ∃ j, k'.jobs = k.jobs ++ [j] ∧ k'.nextJob = k.nextJob + 1 ∧ j.id = k.nextJob ∧ j.pc = k.pc ∧ j.cls = cls ∧ j.func = func ∧
    j.w = w ∧ j.w2 = w2 ∧ j.prog = .queued

/-- A register write arrives at its register, has no reserved bit set, passes the register's own check, and finds no write of
its sender held and room for its digest record (R7, R8, R460). -/
structure Accepted (s : State) (src : Src) (r : Reg) (i : Nat) (v : Word) (check : Code) : Prop where
  reach : s.reaches src r = true
  whole : State.fromVf src = false
  first : s.holds src = false
  reserved : v.toNat &&& (0xFFFFFFFF ^^^ r.known) = 0
  code : check = .ok
  room : notConfig r v = true ∨ s.digQ.length < 4096

/-- What every accepted write leaves beside its own effect: OK as the last write's status, and its digest record (R7, R459). -/
def State.noted (t : State) (src : Src) (r : Reg) (i : Nat) (v : Word) : State := (t.recordLast (r.last i) .ok).fold src r i v

end Sys2Proof.Machine
end

