-- ==== Sys2Proof/Certificates/Slice0/Obligations.lean ====
section
/-!
DEFINITION. The statements about the module.
-/

open Sys2Proof Sys2Proof.Machine

/-- A step takes the command at the front of the queue and is exec of it on the state with the queue's rest. -/
def Obligations.StepRunsTheFrontCommand : Prop :=
  ∀ (c : Instr) (rest : List Instr) (s : State), s.pending = c :: rest → step s = exec c { s with pending := rest }

/-- Keeper time counts ticks of 20 ns from cold reset while no command waits (R438); with the dies powered the arithmetic
clock advances by 35 cycles, or 32 under fallback (R97, R452), the governor's tokens grow (R234), and memory changes only by what
the cistern's sub-channels have waiting (R251). The tick itself is the model's choice (log entry 8). -/
def Obligations.IdleStepIsAKeeperTick : Prop :=
  ∀ s : State, s.pending = [] →
    ∃ t, step s = .next t ∧ t.pending = [] ∧
      (s.power = .off → t = s) ∧
      (s.power = .keeper → t = { s with ticks := s.ticks + 1 }) ∧
      (s.power = .on → t.ticks = s.ticks + 1 ∧ t.cycle = s.cycle + (if s.flag .kpcState 0 0 then 32 else 35) ∧
        t.tokens = min s.tokenCap (s.tokens + (s.fld .govBudget 0 15 0 : Nat)) ∧ t.cores = s.cores ∧ t.pads = s.pads ∧
        (s.subs = [] → t.cis = s.cis ∧ t.host = s.host))

/-- Integer arithmetic, logic and shifts on two registers (R87).
The forms with one register or none and an immediate (R87), and NOP.
Compares, the select and the predicate logic (R87). -/
def Obligations.ScalarIntegerResults : Prop :=
  (
    ∀ (c : CoreId) (w : IWord) (s : State), Issues s c.val w none (sRegs [w.dst, w.src1, w.src2]) → w.imm = 0 →
      let k := (s.afterFetch c.val none).core c.val
      let a := k.getS w.src1
      let b := k.getS w.src2
      let done := fun (i : Instr) (v : DWord) => Completes i s c.val none (k.setS w.dst v) (k.pc + 8)
      done (.add c w) (a + b) ∧ done (.sub c w) (a - b) ∧ done (.mul c w) (a * b) ∧
      done (.mulh c w) (BitVec.ofInt 64 (a.toInt * b.toInt / 2 ^ 64)) ∧
      done (.andI c w) (a &&& b) ∧ done (.orI c w) (a ||| b) ∧ done (.xor c w) (a ^^^ b) ∧
      done (.shl c w) (a <<< (b.toNat % 64)) ∧ done (.shr c w) (a >>> (b.toNat % 64)) ∧
      done (.sra c w) (BitVec.ofInt 64 (a.toInt / 2 ^ (b.toNat % 64))) ∧
      done (.minI c w) (BitVec.ofInt 64 (min a.toInt b.toInt)) ∧
      done (.maxI c w) (BitVec.ofInt 64 (max a.toInt b.toInt))) ∧
  (
    ∀ (c : CoreId) (w : IWord) (s : State),
      let k := (s.afterFetch c.val none).core c.val
      let a := k.getS w.src1
      let done := fun (i : Instr) (v : DWord) => Completes i s c.val none (k.setS w.dst v) (k.pc + 8)
      (Issues s c.val w none (sRegs [w.dst, w.src1]) → w.src2 = 0 →
        done (.addi c w) (a + w.imm.signExtend 64) ∧ done (.andi c w) (a &&& w.imm.setWidth 64) ∧
        (w.imm.toNat < 64 → done (.shli c w) (a <<< w.imm.toNat) ∧ done (.shri c w) (a >>> w.imm.toNat))) ∧
      (Issues s c.val w none (sRegs [w.dst]) → w.src1 = 0 → w.src2 = 0 →
        done (.ldi c w) (w.imm.signExtend 64) ∧
        done (.lhi c w) (BitVec.ofNat 64 (w.imm.toNat * 2 ^ 32 + (k.getS w.dst).toNat % 2 ^ 32))) ∧
      (Issues s c.val w none [] → w.dst = 0 → w.src1 = 0 → w.src2 = 0 → w.imm = 0 →
        Completes (.nop c w) s c.val none k (k.pc + 8))) ∧
  (
    ∀ (c : CoreId) (w : IWord) (s : State),
      let k := (s.afterFetch c.val none).core c.val
      let a := k.getS w.src1
      let b := k.getS w.src2
      let d := w.dst.toNat
      (Issues s c.val w none (.p d :: sRegs [w.src1, w.src2]) → d < 8 → w.imm.toNat < 8 →
        Completes (.cmp c w) s c.val none (k.setP d (condition w.imm.toNat a b)) (k.pc + 8)) ∧
      (Issues s c.val w none (.p d :: sRegs [w.src1]) → d < 8 → w.src2.toNat < 8 →
        Completes (.cmpi c w) s c.val none (k.setP d (condition w.src2.toNat a (w.imm.signExtend 64))) (k.pc + 8)) ∧
      (Issues s c.val w none (.p w.imm.toNat :: sRegs [w.dst, w.src1, w.src2]) → w.imm.toNat < 8 →
        Completes (.sel c w) s c.val none (k.setS w.dst (if k.getP w.imm.toNat then a else b)) (k.pc + 8)) ∧
      (Issues s c.val w none [.p d, .p w.src1.toNat, .p w.src2.toNat] → d < 8 → w.src1.toNat < 8 → w.src2.toNat < 8 →
        w.imm.toNat < 4 →
        Completes (.plg c w) s c.val none (k.setP d (predOp w.imm.toNat (k.getP w.src1.toNat) (k.getP w.src2.toNat)))
          (k.pc + 8)) ∧
      (∀ x y : DWord, condition 0 x y = (x == y) ∧ condition 1 x y = (x != y) ∧ condition 2 x y = decide (x.toInt < y.toInt) ∧
        condition 3 x y = decide (y.toInt ≤ x.toInt) ∧ condition 4 x y = decide (x.toNat < y.toNat) ∧
        condition 5 x y = decide (y.toNat ≤ x.toNat)) ∧
      (∀ x y : Bool, predOp 0 x y = (x && y) ∧ predOp 1 x y = (x || y) ∧ predOp 2 x y = (x ^^ y) ∧ predOp 3 x y = (x && !y)))

/-- FP32 arithmetic and the conversions (R87): each result is the exact value rounded once. -/
def Obligations.ScalarFloatResults : Prop :=
  ∀ (c : CoreId) (w : IWord) (s : State),
    let k := (s.afterFetch c.val none).core c.val
    let a := fp (k.getS w.src1)
    let b := fp (k.getS w.src2)
    let done := fun (i : Instr) (v : DWord) => Completes i s c.val none (k.setS w.dst v) (k.pc + 8)
    (Issues s c.val w none (sRegs [w.dst, w.src1, w.src2]) → w.imm = 0 →
      done (.fadd c w) (fpRes (a.add b)) ∧ done (.fsub c w) (fpRes (a.sub b)) ∧ done (.fmul c w) (fpRes (a.mul b)) ∧
      done (.fma c w) (fpRes ((fp (k.getS w.dst)).add (a.mul b)))) ∧
    (Issues s c.val w none (sRegs [w.dst, w.src1]) → w.src2 = 0 → w.imm = 0 →
      done (.fci c w) (fpRes (.ofInt (k.getS w.src1).toInt)) ∧ done (.fcf c w) (fpToInt a)) ∧
    fpToInt .nan = 0 ∧ fpToInt (.inf true) = BitVec.ofInt 64 (-2 ^ 63) ∧ fpToInt (.inf false) = BitVec.ofInt 64 (2 ^ 63 - 1) ∧
    fpRes .nan = 0x7FC00000

/-- s0 reads as zero and p0 as 1, whatever is written to them (R66). -/
def Obligations.HardwiredRegisters : Prop :=
  ∀ (k : Core) (v : DWord) (b : Bool) (n : BitVec 6),
    k.getS 0 = 0 ∧ k.getP 0 = true ∧ k.setS 0 v = k ∧ k.setP 0 b = k ∧ (k.setS n v).getS 0 = 0 ∧
    (n ≠ 0 → (k.setS n v).getS n = v)

/-- Branches and jumps (R88). -/
def Obligations.BranchTargets : Prop :=
  ∀ (c : CoreId) (w : IWord) (s : State),
    let k := (s.afterFetch c.val none).core c.val
    let a := k.getS w.src1
    let off := k.pc + (w.imm.signExtend 64).setWidth 57 * 8
    let ret : DWord := (k.pc + 8).setWidth 64
    let go := fun (i : Instr) (k' : Core) (pc : BitVec 57) => Completes i s c.val none k' pc
    (Issues s c.val w none [] → w.dst = 0 → w.src1 = 0 → w.src2 = 0 → go (.br c w) k off) ∧
    (Issues s c.val w none [.p w.src1.toNat] → w.dst = 0 → w.src1.toNat < 8 → w.src2 = 0 →
      go (.brt c w) k (if k.getP w.src1.toNat then off else k.pc + 8) ∧
      go (.brf c w) k (if k.getP w.src1.toNat then k.pc + 8 else off)) ∧
    (Issues s c.val w none (sRegs [w.dst]) → w.src1 = 0 → w.src2 = 0 →
      go (.bal c w) (k.setS w.dst ret) off ∧
      go (.dbn c w) (k.setS w.dst (k.getS w.dst - 1)) (if k.getS w.dst = 1 then k.pc + 8 else off)) ∧
    (Issues s c.val w none (sRegs [w.src1]) → w.dst = 0 → w.src2 = 0 → w.imm = 0 → a.toNat % 8 = 0 →
      go (.jr c w) k (a.setWidth 57)) ∧
    (Issues s c.val w none (sRegs [w.dst, w.src1]) → w.src2 = 0 → w.imm = 0 → a.toNat % 8 = 0 →
      go (.jal c w) (k.setS w.dst ret) (a.setWidth 57))

/-- A load of device memory that the data cache holds answers at once: a scalar load zero- or sign-extended, a descriptor
load with its 32 bytes (R89, R286, R292).
A scalar load or a descriptor load of local cistern that misses the data cache completes for the core and leaves a pending
load with the bytes read at its point of performance and the line that it fetches; the register waits for them (R81, R89,
R286, R292).
The data of a core's oldest performed load returns: its register takes it, the interlock on it ends, and a line that the
load fetched enters the data cache, the oldest of 512 leaving; poisoned data ends the launch. The oldest being a parameter
slot, its resolution goes on (R81, R85, R89, R286, R292, R418). -/
def Obligations.LoadsReadAndReturn : Prop :=
  (
    ∀ (c : CoreId) (w : IWord) (s : State) (a : Nat) (bs : List Byte),
      let s1 := s.afterFetch c.val none
      let va := devAddr (s1.core c.val) w
      let s2 := s1.afterTlb c.val va
      let k := s2.core c.val
      let hit := fun (i : Instr) (n : Nat) (k' : Core) =>
        va % n = 0 → Local s1 c.val va n false a → s2.loadUnperformed c.val = false → s2.dcacheHit c.val a n = some bs →
        Completes i s c.val none k' (k.pc + 8)
      (Issues s c.val w none (sRegs [w.dst, w.src1]) → w.src2 = 0 →
        let d := fun (sg : Bool) => k.setS w.dst (extend bs sg)
        hit (.ldb c w) 1 (d false) ∧ hit (.ldh c w) 2 (d false) ∧ hit (.ldw c w) 4 (d false) ∧ hit (.ldd c w) 8 (d false) ∧
        hit (.lxb c w) 1 (d true) ∧ hit (.lxh c w) 2 (d true) ∧ hit (.lxw c w) 4 (d true)) ∧
      (Issues s c.val w none [.t w.dst.toNat, .s w.src1.toNat] → w.src2 = 0 → w.dst.toNat < 32 →
        hit (.tld c w) 32 (k.setT w.dst.toNat (BitVec.ofNat 256 (leNat bs))))) ∧
  (
    ∀ (c : CoreId) (w : IWord) (s : State) (a : Nat),
      let s1 := s.afterFetch c.val none
      let va := devAddr (s1.core c.val) w
      let s2 := s1.afterTlb c.val va
      let k := s2.core c.val
      let line := (s2.cisRead (a / 64 * 64) 64).1
      let load := fun (i : Instr) (cls func n : Nat) (kind : LoadKind) (r : RegRef) =>
        va % n = 0 → Local s1 c.val va n false a → s2.loadUnperformed c.val = false → s2.dcacheHit c.val a n = none →
        s2.cisBad a n = false →
        Completes i s c.val none { k with
          busy := r :: k.busy
          loads := k.loads ++ [⟨kind, k.pc, cls, func, some (s2.cisRead a n).1, false, none,
            some (va / 64 * 64, a / 64 * 64, line), k.ctx, s2.epoch k.ctx, va⟩] } (k.pc + 8)
      (Issues s c.val w none (sRegs [w.dst, w.src1]) → w.src2 = 0 →
        let d := w.dst.toNat
        load (.ldb c w) 2 0 1 (.scalar d 1 false) (.s d) ∧ load (.ldh c w) 2 1 2 (.scalar d 2 false) (.s d) ∧
        load (.ldw c w) 2 2 4 (.scalar d 4 false) (.s d) ∧ load (.ldd c w) 2 3 8 (.scalar d 8 false) (.s d) ∧
        load (.lxb c w) 2 4 1 (.scalar d 1 true) (.s d) ∧ load (.lxh c w) 2 5 2 (.scalar d 2 true) (.s d) ∧
        load (.lxw c w) 2 6 4 (.scalar d 4 true) (.s d)) ∧
      (Issues s c.val w none [.t w.dst.toNat, .s w.src1.toNat] → w.src2 = 0 → w.dst.toNat < 32 →
        load (.tld c w) 3 0 32 (.desc w.dst.toNat) (.t w.dst.toNat))) ∧
  (
    ∀ (c : CoreId) (s : State) (l : PendLoad),
      ((s.core c.val).loads.find? fun l => l.data.isSome || (l.kind.isSlot && l.tag.isNone)) = some l →
      let k := { s.core c.val with loads := (s.core c.val).loads.erase l }
      let filled := fun (k : Core) => match l.fill with
        | some (va, pa, ds) => { k with dcache := (⟨va, pa, ds⟩ :: k.dcache.filter fun d => d.pa != pa).take 512 }
        | none => k
      let done := fun (k' : Core) => exec (.loadDataReturn c) s = .next (s.setCore c.val k')
      (∀ bs, l.data = some bs → l.poison = false →
        (∀ d n sg, l.kind = .scalar d n sg → done (filled ((k.setS (BitVec.ofNat 6 d) (extend bs sg)).freeBusy (.s d)))) ∧
        (∀ d, l.kind = .desc d → done (filled ((k.setT d (BitVec.ofNat 256 (leNat bs))).freeBusy (.t d))))) ∧
      (l.kind.isSlot = false → l.poison = true →
        exec (.loadDataReturn c) s = .next ((s.setCore c.val k).faultCore c.val l.cls l.func l.pc .poison (some l.va))) ∧
      (l.kind.isSlot = true → exec (.loadDataReturn c) s = .next (slotMore (s.setCore c.val k) c.val l)))

/-- Stores write the low bytes of s(SRC2), or a descriptor register, at the address and nothing else (R68, R89, R292).
The atomics replace 8 bytes of local cistern in one step and return the old value (R90). -/
def Obligations.StoresAndAtomics : Prop :=
  (
    ∀ (c : CoreId) (w : IWord) (s : State) (a : Nat), s.cis.wf = true →
      let s1 := s.afterFetch c.val none
      let va := devAddr (s1.core c.val) w
      let k := (s1.afterTlb c.val va).core c.val
      let store := fun (i : Instr) (bs : List Byte) =>
        va % bs.length = 0 → Local s1 c.val va bs.length true a →
        CompletesStore i s c.val (State.dcacheStore k a bs) (k.pc + 8) a bs
      (Issues s c.val w none (sRegs [w.src1, w.src2]) → w.dst = 0 →
        let low := fun (n : Nat) => leBytes n (k.getS w.src2).toNat
        store (.stb c w) (low 1) ∧ store (.sth c w) (low 2) ∧ store (.stw c w) (low 4) ∧ store (.std c w) (low 8)) ∧
      (Issues s c.val w none [.s w.src1.toNat, .t w.src2.toNat] → w.dst = 0 → w.src2.toNat < 32 →
        store (.tst c w) (leBytes 32 (k.getT w.src2.toNat).toNat))) ∧
  (
    ∀ (c : CoreId) (w : IWord) (s : State) (a : Nat), s.cis.wf = true →
      Issues s c.val w none (sRegs [w.dst, w.src1, w.src2]) →
      let s1 := s.afterFetch c.val none
      let va := devAddr (s1.core c.val) w
      let s2 := s1.afterTlb c.val va
      let k := s2.core c.val
      let old := s2.word64 a
      va % 8 = 0 → Local s1 c.val va 8 true a → s2.loadUnperformed c.val = false → s2.cisBad a 8 = false →
      let done := fun (i : Instr) (func : Nat) (v : DWord) =>
        let d := State.dcacheDrop k a
        CompletesStore i s c.val { d with
          busy := .s w.dst.toNat :: d.busy
          loads := d.loads ++ [⟨.scalar w.dst.toNat 8 false, k.pc, 2, func, some (s2.cisRead a 8).1, false, none, none, k.ctx,
            s2.epoch k.ctx, va⟩] } (k.pc + 8) a (leBytes 8 v.toNat)
      done (.aad c w) 0x20 (old + k.getS w.src2) ∧
      done (.acs c w) 0x21 (if old = k.getS w.dst then k.getS w.src2 else old) ∧
      done (.asw c w) 0x22 (k.getS w.src2))

/-- Loads from the scratchpad of the core (R68, R287).
Stores to the scratchpad of the core (R68, R287). -/
def Obligations.ScratchpadAccesses : Prop :=
  (
    ∀ (c : CoreId) (w : IWord) (s : State),
      let s1 := s.afterFetch c.val none
      let k := s1.core c.val
      let a := padAddr k w
      let ok := fun (n : Nat) => a % n = 0 ∧ a + n ≤ 2 ^ 20 ∧ s1.padReadWaits c.val a n = [] ∧ (s1.padRead c.val a n).2 = false
      let val := fun (n : Nat) => leNat ((s1.pad c.val).readN a n)
      (Issues s c.val w none (sRegs [w.dst, w.src1]) → w.src2 = 0 →
        (ok 4 → Completes (.lsw c w) s c.val none (k.setS w.dst (BitVec.ofNat 64 (val 4))) (k.pc + 8)) ∧
        (ok 8 → Completes (.lsd c w) s c.val none (k.setS w.dst (BitVec.ofNat 64 (val 8))) (k.pc + 8))) ∧
      (Issues s c.val w none [.t w.dst.toNat, .s w.src1.toNat] → w.src2 = 0 → w.dst.toNat < 32 → ok 32 →
        Completes (.tls c w) s c.val none (k.setT w.dst.toNat (BitVec.ofNat 256 (val 32))) (k.pc + 8))) ∧
  (
    ∀ (c : CoreId) (w : IWord) (s : State), s.memWf = true →
      let s1 := s.afterFetch c.val none
      let k := s1.core c.val
      let a := padAddr k w
      let store := fun (i : Instr) (bs : List Byte) =>
        a % bs.length = 0 → a + bs.length ≤ 2 ^ 20 → s1.padWriteWaits c.val a bs.length = [] →
        CompletesPadStore i s c.val k (k.pc + 8) a bs
      (Issues s c.val w none (sRegs [w.src1, w.src2]) → w.dst = 0 →
        store (.ssw c w) (leBytes 4 (k.getS w.src2).toNat) ∧ store (.ssd c w) (leBytes 8 (k.getS w.src2).toNat)) ∧
      (Issues s c.val w none [.s w.src1.toNat, .t w.src2.toNat] → w.dst = 0 → w.src2.toNat < 32 →
        store (.tss c w) (leBytes 32 (k.getT w.src2.toNat).toNat)))

/-- The fields of a word stand at their bits, both ways, and a word is the instruction that its class and function assign;
with an unassigned class or function it spells none and is the word of a BAD_OPCODE (R70 to R74).
A misaligned access is rejected with ALIGN and changes neither registers nor memory (R77, R89).
A set unused bit or an unassigned field value rejects any of these instructions with BAD_FIELD, and nothing but the
record of the fault and the end of the launch happens (R71, R73, R77). -/
def Obligations.RejectedInstructionsFault : Prop :=
  (
    ∀ (c : CoreId) (cls func : BitVec 6) (w : IWord) (x w2 : DWord),
      let word := IWord.toBits cls func w
      IWord.cls word = cls.toNat ∧ IWord.func word = func.toNat ∧ IWord.ofBits word = w ∧
      IWord.toBits (BitVec.ofNat 6 (IWord.cls x)) (BitVec.ofNat 6 (IWord.func x)) (IWord.ofBits x) = x ∧
      (∀ i, instrOf c w w2 func.toNat cls.toNat = some i → decodeInstr c word w2 = i) ∧
      (instrOf c w w2 func.toNat cls.toNat = none → decodeInstr c word w2 = .inputStationary c word)) ∧
  (
    ∀ (c : CoreId) (w : IWord) (s : State),
      let s1 := s.afterFetch c.val none
      let va := devAddr (s1.core c.val) w
      let bad := fun (i : Instr) (func : Nat) =>
        exec i s = .next (s1.faultCore c.val 2 func (s1.core c.val).pc .align) ∧
        (s1.faultCore c.val 2 func (s1.core c.val).pc .align).cis = s.cis
      (Issues s c.val w none (sRegs [w.dst, w.src1]) → w.src2 = 0 →
        (va % 2 ≠ 0 → bad (.ldh c w) 1 ∧ bad (.lxh c w) 5) ∧ (va % 4 ≠ 0 → bad (.ldw c w) 2 ∧ bad (.lxw c w) 6) ∧
        (va % 8 ≠ 0 → bad (.ldd c w) 3)) ∧
      (Issues s c.val w none (sRegs [w.src1, w.src2]) → w.dst = 0 →
        (va % 2 ≠ 0 → bad (.sth c w) 9) ∧ (va % 4 ≠ 0 → bad (.stw c w) 10) ∧ (va % 8 ≠ 0 → bad (.std c w) 11))) ∧
  (
    ∀ (c : CoreId) (w : IWord) (s : State),
      let s1 := s.afterFetch c.val none
      let bad := fun (i : Instr) (cls func : Nat) => exec i s = .next (s1.faultCore c.val cls func (s1.core c.val).pc .badField)
      (Issues s c.val w none (sRegs [w.dst, w.src1, w.src2]) → w.imm ≠ 0 →
        bad (.add c w) 0 1 ∧ bad (.sub c w) 0 2 ∧ bad (.mul c w) 0 3 ∧ bad (.fma c w) 0 0x1B) ∧
      (Issues s c.val w none (sRegs [w.src1]) → w.dst ≠ 0 → bad (.jr c w) 1 4) ∧
      (Issues s c.val w none (sRegs [w.dst, w.src1]) → w.src2 ≠ 0 → bad (.ldb c w) 2 0 ∧ bad (.ldd c w) 2 3) ∧
      (∀ (st : State) (cls func : Nat) (pc : BitVec 57), let t := st.faultCore c.val cls func pc .badField
        (t.core c.val).run = .stopped ∧ (t.core c.val).fault = .badField ∧ (t.core c.val).faultPc = pc ∧
        (t.core c.val).s = (st.core c.val).s ∧ (t.core c.val).t = (st.core c.val).t ∧ t.cis = st.cis ∧ t.pads = st.pads ∧
        t.host = st.host))

/-- Cache instructions: INV discards the data-cache lines that overlap a range of addresses, those that pending loads will
fill included, INA all of them, and ICI the instruction cache (R97, R292). -/
def Obligations.CacheInvalidations : Prop :=
  ∀ (c : CoreId) (w : IWord) (s : State),
    let k := (s.afterFetch c.val none).core c.val
    let va := (k.getS w.src1).toNat % 2 ^ 57
    let n := (k.getS w.src2).toNat
    let out := fun (x : Nat) => decide (0 < n) && decide (x < va + n) && decide (va < x + 64)
    let unfilled := fun (f : Nat → Bool) => k.loads.map fun l =>
      { l with fill := l.fill.bind fun y => if f y.1 then none else some y }
    (Issues s c.val w none (sRegs [w.src1, w.src2]) → w.dst = 0 → w.imm = 0 →
      Completes (.inv c w) s c.val none { k with dcache := k.dcache.filter (fun d => !out d.va), loads := unfilled out }
        (k.pc + 8)) ∧
    (Issues s c.val w none [] → w.dst = 0 → w.src1 = 0 → w.src2 = 0 → w.imm = 0 →
      Completes (.ina c w) s c.val none { k with dcache := [], loads := unfilled fun _ => true } (k.pc + 8) ∧
      Completes (.ici c w) s c.val none { k with icache := [] } (k.pc + 8))

/-- Moves, field accesses and the check of tensor descriptors (R68, R69, R91).
A field that TSF sets is the field that TGF reads, and the other fields stay (R91). -/
def Obligations.DescriptorRegisters : Prop :=
  (
    ∀ (c : CoreId) (w : IWord) (s : State),
      let k := (s.afterFetch c.val none).core c.val
      let d := k.getT w.dst.toNat
      let x := k.getT w.src1.toNat
      let v := (k.getS w.src1).toNat
      let put := fun (i : Instr) (y : Desc) => Completes i s c.val none (k.setT w.dst.toNat y) (k.pc + 8)
      (Issues s c.val w none [.t w.dst.toNat, .t w.src1.toNat] → w.dst.toNat < 32 → w.src1.toNat < 32 → w.src2 = 0 →
        w.imm = 0 → put (.tmv c w) x) ∧
      (Issues s c.val w none [.t w.dst.toNat, .s w.src1.toNat] → w.dst.toNat < 32 → w.src2 = 0 →
        (w.imm.toNat < 256 → ∀ y, setField d w.imm.toNat v = .ok y → put (.tsf c w) y) ∧
        (w.imm = 0 → put (.tof c w) (d.put 56 0 ((d.base + v) % 2 ^ 57)))) ∧
      (Issues s c.val w none [.s w.dst.toNat, .t w.src1.toNat] → w.src1.toNat < 32 → w.src2 = 0 → w.imm.toNat < 256 →
        ∀ y, getField x w.imm.toNat = some y → Completes (.tgf c w) s c.val none (k.setS w.dst (BitVec.ofNat 64 y)) (k.pc + 8)) ∧
      (Issues s c.val w none [.t w.src1.toNat, .p 7] → w.dst = 0 → w.src1.toNat < 32 → w.src2 = 0 → w.imm.toNat < 3 →
        k.isBusy (companions x) = false →
        ∀ code, checkDesc k.getT x (tckRole w.imm.toNat x) = code →
          Completes (.tck c w) s c.val none ({ k with cst := BitVec.ofNat 64 code.toNat }.setP 7 (code == Code.ok)) (k.pc + 8))) ∧
  (
    ∀ (d y : Desc) (i v : Nat), setField d i v = .ok y →
      (i ≠ 14 → getField y i = some v) ∧ (i = 14 → getField y i = some (v % 2 ^ 32)) ∧
      ∀ j, j ≠ i → getField y j = getField d j)

/-- Parameter slots are read once every earlier load is performed, one into a scalar register and four into a descriptor
register; when each has given its value the instruction completes with them. A slot beyond the block's count is rejected
(R85, R86).
The value of a direct slot is its 8 bytes of the parameter block, and of an indirect one the 8 bytes at the address that
these hold, cut to a multiple of 8; a code ends the read with that code (R85, R340). -/
def Obligations.ParameterSlots : Prop :=
  (
    ∀ (c : CoreId) (w : IWord) (s : State) (l : Nat) (x : Launch),
      let s1 := s.afterFetch c.val none
      let k := s1.core c.val
      let n := w.imm.toNat
      s1.launchOf c.val = some (l, x) → s1.loadUnperformed c.val = false → n < 256 → w.src1 = 0 → w.src2 = 0 →
      (Issues s c.val w none (sRegs [w.dst]) →
        (∀ v t, n < paramCount x → slotRun s1 c.val x.param x.ind [] none [n] = (.done [v] none, t) →
          exec (.ldp c w) s = .next ((t.modCore c.val fun k => k.setS w.dst v).retire c.val (k.pc + 8))) ∧
        (paramCount x ≤ n → exec (.ldp c w) s = .next (s1.faultCore c.val 0 0x13 k.pc .range))) ∧
      (Issues s c.val w none [.t w.dst.toNat] → w.dst.toNat < 32 →
        (∀ v0 v1 v2 v3 t, n + 4 ≤ paramCount x → n + 4 ≤ 256 →
          slotRun s1 c.val x.param x.ind [] none [n, n + 1, n + 2, n + 3] = (.done [v0, v1, v2, v3] none, t) →
          exec (.tlp c w) s = .next ((t.modCore c.val fun k => k.setT w.dst.toNat (BitVec.ofNat 256
            (v0.toNat + 2 ^ 64 * v1.toNat + 2 ^ 128 * v2.toNat + 2 ^ 192 * v3.toNat))).retire c.val (k.pc + 8))) ∧
        (paramCount x < n + 4 → exec (.tlp c w) s = .next (s1.faultCore c.val 3 8 k.pc .range)))) ∧
  (
    ∀ (s t : State) (p param ind i : Nat),
      let run := slotRun s p param ind [] none [i]
      (∀ v, slotRead s p (param + 64 + 8 * i) = (.value v, t) →
        (ind.testBit i = false → run = (.done [v] none, t)) ∧
        (ind.testBit i = true → ∀ u,
          (∀ x, slotRead t p (v.toNat % 2 ^ 57 / 8 * 8) = (.value x, u) → run = (.done [x] none, u)) ∧
          (∀ code va, slotRead t p (v.toNat % 2 ^ 57 / 8 * 8) = (.err code va, u) → run = (.done [0] (some (code, va)), u)))) ∧
      (∀ code va, slotRead s p (param + 64 + 8 * i) = (.err code va, t) → run = (.done [0] (some (code, va)), t)))

/-- The translation that a class 0x08 instruction makes finds a semaphore in working memory. -/
def SemaphoreAt (s t : State) (p va a : Nat) (write : Bool) : Prop := s.semaphore p va write = (.ok a, t)

/-- SIG adds to a semaphore and REL stores, at once when every earlier access of the core is complete, and otherwise both
wait as releases (R294, R296, R301). -/
def Obligations.ReleasesPublish : Prop :=
  ∀ (c : CoreId) (w : IWord) (s t : State) (a : Nat), Issues s c.val w none (sRegs [w.src1, w.src2]) → w.dst = 0 → w.imm = 0 →
    let s1 := s.afterFetch c.val none
    let k := s1.core c.val
    let va := (k.getS w.src1).toNat % 2 ^ 57
    let v := k.getS w.src2
    va % 8 = 0 →
    (SemaphoreAt s1 t c.val va a true →
      (s1.releaseReady c.val = true →
        exec (.sig c w) s = .next (((t.cisWrite a (leBytes 8 (t.word64 a + v).toNat)).modCore c.val fun k =>
          State.dcacheDrop k a).retire c.val (k.pc + 8))) ∧
      (s1.releaseReady c.val = false → s1.askedWay c.val = false →
        exec (.sig c w) s = .next (s1.beginWait c.val (.release (.sig va v))))) ∧
    (∀ l, s1.xlateNow c.val k.ctx va true = (.ok l, t) → t.place l va = .cis a → t.mayTouch k.ctx a 8 = true →
      (s1.releaseReady c.val = true →
        exec (.rel c w) s = .next (((t.cisWrite a (leBytes 8 v.toNat)).modCore c.val fun k =>
          State.dcacheStore k a (leBytes 8 v.toNat)).retire c.val (k.pc + 8))) ∧
      (s1.releaseReady c.val = false → s1.askedWay c.val = false →
        exec (.rel c w) s = .next (s1.beginWait c.val (.release (.rel va v)))))

/-- WAT takes a semaphore that meets its threshold and shows OK; with CONSUME it subtracts the threshold in the same step;
otherwise it waits with its address in SYN_WADDR (R294, R298, R299). -/
def Obligations.WatTakesOrWaits : Prop :=
  ∀ (c : CoreId) (w : IWord) (s t : State) (a : Nat),
    Issues s c.val w none (.p 7 :: sRegs [w.dst, w.src1, w.src2]) → bitsOf w.imm.toNat 15 2 = 0 →
    let s1 := s.afterFetch c.val none
    let k := s1.core c.val
    let va := (k.getS w.src1).toNat % 2 ^ 57
    let thr := k.getS w.src2
    va % 8 = 0 → SemaphoreAt s1 t c.val va a (w.imm.getLsbD 1) → t.cisBad a 8 = false →
    (w.imm.getLsbD 1 = false → thr.toInt ≤ (t.word64 a).toInt →
      exec (.wat c w) s = .next (((t.acquire c.val w.dst.toNat (t.word64 a) (w.imm.getLsbD 0)).returned c.val .ok).retire c.val
        (k.pc + 8))) ∧
    (w.imm.getLsbD 1 = true → thr.toInt ≤ (t.word64 a).toInt → t.earlierConsumer a t.nextWatch = false →
      exec (.wat c w) s = .next (((((t.cisWrite a (leBytes 8 (t.word64 a - thr).toNat)).modCore c.val fun k =>
        State.dcacheDrop k a).acquire c.val w.dst.toNat (t.word64 a) (w.imm.getLsbD 0)).returned c.val .ok).retire c.val
        (k.pc + 8))) ∧
    ((t.word64 a).toInt < thr.toInt → t.askedWay c.val = false →
      ∃ u, exec (.wat c w) s = .next u ∧ (u.core c.val).run = .waiting ∧ (u.core c.val).waddr = va ∧
        (u.core c.val).pc = (t.core c.val).pc ∧ u.cis = t.cis ∧
        (u.core c.val).wait = some (.wat va a thr (w.imm.getLsbD 1) (w.imm.getLsbD 0) w.dst.toNat
          (bitsOf w.imm.toNat 31 16) t.nextWatch))

/-- ACQ of this module's cistern reads its value at its point of performance and waits for ACQUIRE_COMPLETE, which writes the
register and, under DCI, clears the data cache (R294, R297).
The end of an acquire's wait (R297). -/
def Obligations.AcquiresReadAndComplete : Prop :=
  (
    ∀ (c : CoreId) (w : IWord) (s t : State) (a : Nat) (l : Leaf), Issues s c.val w none (sRegs [w.dst, w.src1]) → w.src2 = 0 →
      w.imm.toNat < 2 →
      let s1 := s.afterFetch c.val none
      let k := s1.core c.val
      let va := (k.getS w.src1).toNat % 2 ^ 57
      va % 8 = 0 → s1.xlateNow c.val k.ctx va false = (.ok l, t) → t.place l va = .cis a → t.mayTouch k.ctx a 8 = true →
      t.loadUnperformed c.val = false → t.cisBad a 8 = false →
      ∃ u, exec (.acq c w) s = .next u ∧ (u.core c.val).run = .waiting ∧ (u.core c.val).waddr = va ∧
        (u.core c.val).wait =
          some (.acq va (some (t.word64 a, false)) (w.imm.getLsbD 0) w.dst.toNat none (t.epoch k.ctx) false) ∧
        u.cis = t.cis ∧ u.pads = t.pads ∧ u.host = t.host) ∧
  (
    ∀ (c : CoreId) (s : State) (va : Nat) (v : DWord) (dci host : Bool) (dst epoch : Nat) (tag : Option Nat),
      (s.core c.val).wait = some (.acq va (some (v, false)) dci dst tag epoch host) →
      let k := (s.core c.val).setS (BitVec.ofNat 6 dst) v
      ∃ t, exec (.acquireComplete c) s = .next t ∧
        s.CoreOnly t c.val ({ (if dci then State.dcacheClear k else k) with wait := none }.goOn (k.pc + 8)))

/-- CWT reads an arrival counter, and WAT_WAKE and CWT_WAKE end the waits whose condition is met (R298, R299).
A WAT or CWT whose condition is not met ends once its timeout has passed, with TIMEOUT shown in CST and p7, the last value
in its register and the count of timeouts raised; with the condition met, or without a timeout, it goes on waiting (R295). -/
def Obligations.CounterWaitsEnd : Prop :=
  (
    ∀ (c : CoreId) (w : IWord) (s : State),
      let s1 := s.afterFetch c.val none
      let k := s1.core c.val
      let kind := bitsOf w.imm.toNat 2 1
      let idx := bitsOf w.imm.toNat 15 4
      let v := s1.counter c.val kind idx
      let thr := k.getS w.src2
      (Issues s c.val w none (.p 7 :: sRegs [w.dst, w.src2]) → w.src1 = 0 → w.imm.getLsbD 3 = false → kind ≠ 3 →
        idx < State.counterCount kind → s1.counterOwned k.ctx kind idx = true → (kind = 2 → s1.fld .cntCfg idx 22 21 ≠ 2) →
        (thr.toNat ≤ v → ∃ t, exec (.cwt c w) s = .next t ∧ State.CoreOnly s1 t c.val
          ((let k' := k.setS (BitVec.ofNat 6 w.dst.toNat) (BitVec.ofNat 64 v)
            { (if w.imm.getLsbD 0 then State.dcacheClear k' else k') with cst := 0 }.setP 7 true).goOn (k.pc + 8))) ∧
        (v < thr.toNat → s1.askedWay c.val = false → ∃ t, exec (.cwt c w) s = .next t ∧ State.CoreOnly s1 t c.val { k with
          run := .waiting, waddr := kind + 4 * idx,
          wait := some (.cwt kind idx thr (w.imm.getLsbD 0) w.dst.toNat (bitsOf w.imm.toNat 31 16)) })) ∧
      (∀ kind idx thr dci dst tmo, (s.core c.val).wait = some (.cwt kind idx thr dci dst tmo) →
        thr.toNat ≤ s.counter c.val kind idx →
        ∃ t, exec (.cwtWake c) s = .next t ∧ (t.core c.val).wait = none ∧ (t.core c.val).run = .running ∧
          (t.core c.val).pc = (s.core c.val).pc + 8 ∧
          (t.core c.val).getS (BitVec.ofNat 6 dst) =
            (if BitVec.ofNat 6 dst = 0 then 0 else BitVec.ofNat 64 (s.counter c.val kind idx))) ∧
      (∀ va a thr dci dst tmo order, (s.core c.val).wait = some (.wat va a thr false dci dst tmo order) →
        thr.toInt ≤ (s.word64 a).toInt → s.cisBad a 8 = false →
        ∃ t, exec (.watWake c) s = .next t ∧ (t.core c.val).wait = none ∧ (t.core c.val).run = .running ∧
          (t.core c.val).pc = (s.core c.val).pc + 8 ∧ t.cis = s.cis ∧
          (t.core c.val).getS (BitVec.ofNat 6 dst) = (if BitVec.ofNat 6 dst = 0 then 0 else s.word64 a))) ∧
  (
    ∀ (c : CoreId) (s : State) (dst tmo : Nat) (met dci : Bool) (v : DWord),
      ((∃ va a thr consume order, (s.core c.val).wait = some (.wat va a thr consume dci dst tmo order) ∧
          met = s.watMet a thr consume order ∧ v = s.word64 a) ∨
        (∃ kind idx thr, (s.core c.val).wait = some (.cwt kind idx thr dci dst tmo) ∧
          met = decide (thr.toNat ≤ s.counter c.val kind idx) ∧ v = BitVec.ofNat 64 (s.counter c.val kind idx))) →
      (met = true ∨ tmo = 0 → exec (.waitTimeout c) s = .next s) ∧
      (met = false → tmo ≠ 0 → ∃ t, exec (.waitTimeout c) s = .next t ∧
        State.CoreOnly { s with regs := t.regs } t c.val
          (({ (s.core c.val).setS (BitVec.ofNat 6 dst) v with cst := 0x0A, wait := none }.setP 7 false).goOn ((s.core c.val).pc + 8)) ∧
        (∀ r i, (r, i) ≠ (Reg.synTmo, c.val) → t.reg r i = s.reg r i) ∧
        t.reg .synTmo c.val = BitVec.ofNat 32 (min 0xFFFFFFFF ((s.reg .synTmo c.val).toNat + 1))))

/-- FEN completes at once when the earlier stores and adds of the core are complete, else it waits until FEN_COMPLETE (R289).
The last core to arrive at a barrier closes the episode and every core of it goes on behind its BAR (R300). -/
def Obligations.FencesAndBarriers : Prop :=
  (
    ∀ (c : CoreId) (w : IWord) (s : State),
      let s1 := s.afterFetch c.val none
      let k := s1.core c.val
      (Issues s c.val w none [] → w.dst = 0 → w.src1 = 0 → w.src2 = 0 → w.imm = 0 →
        (s1.fenReady c.val = true → Completes (.fen c w) s c.val none k (k.pc + 8)) ∧
        (s1.fenReady c.val = false → ∃ t, exec (.fen c w) s = .next t ∧
          State.CoreOnly s1 t c.val { k with run := .waiting, wait := some .fen })) ∧
      ((s.core c.val).wait = some .fen →
        (s.fenReady c.val = true → ∃ t, exec (.fenComplete c) s = .next t ∧
          s.CoreOnly t c.val ({ s.core c.val with wait := none }.goOn ((s.core c.val).pc + 8))) ∧
        (s.fenReady c.val = false → exec (.fenComplete c) s = .next s))) ∧
  (
    ∀ (c : CoreId) (w : IWord) (s : State) (l : Nat) (x : Launch) (d : Core),
      Issues s c.val w none (sRegs [w.src1]) → w.dst = 0 → w.src2 = 0 → w.imm.toNat < 16 →
      let s1 := s.afterFetch c.val none
      let k := s1.core c.val
      s1.launchOf c.val = some (l, x) → x.passed.contains c.val = false → s1.fenReady c.val = true →
      s1.askedWay c.val = false →
      (k.getS w.src1 = 1 → x.cores ≠ [] → x.barriers.get? w.imm.toNat = none →
        ∃ t, exec (.bar c w) s = .next t ∧ (t.core c.val).run = .running ∧ (t.core c.val).pc = k.pc + 8 ∧
          (t.core c.val).wait = none) ∧
      (∀ q, q ≠ c.val → k.getS w.src1 = 2 → 2 ≤ x.cores.length → x.barriers.get? w.imm.toNat = some ⟨2, [q]⟩ → d = s1.core q →
        d.wait = some (.bar w.imm.toNat false 2 true) →
        ∃ t, exec (.bar c w) s = .next t ∧ (t.core c.val).run = .running ∧ (t.core c.val).pc = k.pc + 8 ∧
          (t.core q).run = .running ∧ (t.core q).pc = d.pc + 8 ∧ (t.core q).wait = none ∧
          (∃ y, t.launch l = some y ∧ y.barriers.get? w.imm.toNat = none)))

/-- MFS reads the system registers, MTS writes CST alone, CVT converts pointers, and FLT ends the launch with the code it
names (R96, R97, R323, R324).
END does not complete while a unit instruction of the core is outstanding; then the core is idle and has ended (R95). -/
def Obligations.SystemInstructionsAndEnd : Prop :=
  (
    ∀ (c : CoreId) (w : IWord) (s : State),
      let s1 := s.afterFetch c.val none
      let k := s1.core c.val
      let v := k.getS w.src1
      (Issues s c.val w none (sRegs [w.dst]) → w.src1 = 0 → w.src2 = 0 → w.imm.toNat < 4096 →
        (∀ x, s1.sysReg c.val w.imm.toNat = some x → Completes (.mfs c w) s c.val none (k.setS w.dst (BitVec.ofNat 64 x)) (k.pc + 8)) ∧
        (s1.sysReg c.val w.imm.toNat = none → exec (.mfs c w) s = .next (s1.faultCore c.val 0x3F 2 k.pc .badField))) ∧
      (Issues s c.val w none (sRegs [w.src1]) → w.dst = 0 → w.src2 = 0 →
        (w.imm = 4 → v.toNat ≤ 0x13 → Completes (.mts c w) s c.val none { k with cst := v } (k.pc + 8)) ∧
        (w.imm = 4 → 0x13 < v.toNat → exec (.mts c w) s = .next (s1.faultCore c.val 0x3F 3 k.pc .range)) ∧
        (w.imm ≠ 4 → w.imm.toNat < 4096 → exec (.mts c w) s = .next (s1.faultCore c.val 0x3F 3 k.pc .badField))) ∧
      (Issues s c.val w none (sRegs [w.dst, w.src1]) → w.src2 = 0 →
        (∀ r t, w.imm = 0 → s1.toHost c.val (v.toNat % 2 ^ 57) = (.ok r, t) →
          exec (.cvt c w) s = .next ((t.modCore c.val fun k => k.setS w.dst (BitVec.ofNat 64 r)).retire c.val (k.pc + 8))) ∧
        (∀ r t, w.imm = 1 → s1.toModule c.val v.toNat = (.ok r, t) →
          exec (.cvt c w) s = .next ((t.modCore c.val fun k => k.setS w.dst (BitVec.ofNat 64 r)).retire c.val (k.pc + 8)))) ∧
      (Issues s c.val w none [] → w.dst = 0 → w.src1 = 0 → w.src2 = 0 → ∀ code, Code.ofByte w.imm.toNat = some code →
        code ≠ .ok → w.imm.toNat ≤ 0x13 → ∃ t, exec (.flt c w) s = .next t ∧
          (t.core c.val).run = .stopped ∧ (t.core c.val).fault = code ∧ (t.core c.val).faultPc = k.pc ∧
          ∀ l x, s1.launchOf c.val = some (l, x) → x.phase = .running → ∃ y, t.launch l = some y ∧ y.phase = .ending ∧ y.code = code)) ∧
  (
    ∀ (c : CoreId) (w : IWord) (s : State), Issues s c.val w none [] → w.dst = 0 → w.src1 = 0 → w.src2 = 0 → w.imm = 0 →
      let s1 := s.afterFetch c.val none
      let k := s1.core c.val
      (k.jobs = [] → ∃ t, exec (.endI c w) s = .next t ∧
        State.CoreOnly s1 t c.val { k with run := .idle, pc := k.pc + 8, retired := k.retired + 1, heldBy := [], ended := true }) ∧
      (k.jobs ≠ [] → s1.askedWay c.val = false →
        exec (.endI c w) s = .next (s1.setCore c.val { k with heldBy := k.jobs.map (·.id) })))

/-- The matrix instructions take their place in the queue when their checks pass and it has room, and leave the arrays' state
in program order: a loaded tile in each shadow, and after SWP the shadow as the active tile (R82, R103, R105, R108, R110).
MTF writes the 24 tile flags at once when no matrix instruction is outstanding, and otherwise waits in the queue with its
register interlocked (R81, R109).
A full matrix queue holds an MDR and shows the core WAITING on the instructions that have not started (R82).
An input-stationary pass runs on a core that no launch holds, and leaves its arrays without tiles; in a launch its word,
like every other word that spells no instruction, is rejected with BAD_OPCODE under its own CLASS and FUNC (R73, R101, R126). -/
def Obligations.MatrixInstructionsDispatch : Prop :=
  (
    ∀ (c : CoreId) (w : IWord) (s : State),
      let s1 := s.afterFetch c.val none
      let k := s1.core c.val
      let d := k.getT w.src1.toNat
      let arrays := maskArrays (mxMask w)
      Issues s c.val w none [.t w.src1.toNat] → w.dst = 0 → w.src1.toNat < 32 → w.src2 = 0 → s1.queued c.val 4 < 8 →
      (w.imm.toNat < 32 → k.isBusy (companionsOf d) = false → wldCode s1 c.val w = .ok →
        ∃ k', Completes (.wld c w) s c.val none k' (k.pc + 8) ∧ k.Queues k' 4 0 w 0 ∧
          { k' with jobs := k.jobs, nextJob := k.nextJob, arrds := k.arrds } = k ∧
          ∀ a ∈ arrays, ∃ i, (k'.arrds.getD a ⟨none, none, none, none⟩).shadow =
            some ⟨wldWide w, d.format, d.scaling, d.ext0, colsOf (wldWide w) d.ext1 i⟩) ∧
      (w.imm.toNat < 2 ^ 17 → mstOut w ≠ 3 → (d.scaling ≠ 0 → k.isBusy [.t d.scaleT] = false) → mstCode s1 c.val w = .ok →
        ∃ k', Completes (.mst c w) s c.val none k' (k.pc + 8) ∧ k.Queues k' 4 1 w 0 ∧
          { k' with jobs := k.jobs, nextJob := k.nextJob, arrds := k.arrds } = k ∧
          ∀ a ∈ arrays, mstSwp w = true → (k'.arrds.getD a ⟨none, none, none, none⟩).active = (s1.arrd c.val a).shadow ∧
            (k'.arrds.getD a ⟨none, none, none, none⟩).shadow = none) ∧
      (w.imm.toNat < 2 ^ 13 → mdrCode s1 c.val w = .ok →
        ∃ k', Completes (.mdr c w) s c.val none k' (k.pc + 8) ∧ k.Queues k' 4 2 w 0 ∧
          { k' with jobs := k.jobs, nextJob := k.nextJob } = k)) ∧
  (
    ∀ (c : CoreId) (w : IWord) (s : State), Issues s c.val w none (sRegs [w.dst]) → w.src1 = 0 → w.src2 = 0 → w.imm = 0 →
      let s1 := s.afterFetch c.val none
      let k := s1.core c.val
      (∀ j ∈ k.jobs, j.id < k.nextJob) →
      (s1.jobsOf c.val [4] = [] →
        Completes (.mtf c w) s c.val none { k.setS w.dst (BitVec.ofNat 64 (tileFlags s1 c.val)) with
          nextJob := k.nextJob + 1 } (k.pc + 8)) ∧
      (∀ j js, s1.jobsOf c.val [4] = j :: js → j.func ≠ 3 → s1.queued c.val 4 < 8 →
        ∃ k', Completes (.mtf c w) s c.val none k' (k.pc + 8) ∧ k.Queues k' 4 3 w 0 ∧ k'.busy = .s w.dst.toNat :: k.busy)) ∧
  (
    ∀ (c : CoreId) (w : IWord) (s : State), Issues s c.val w none [.t w.src1.toNat] → w.dst = 0 → w.src1.toNat < 32 → w.src2 = 0 →
      w.imm.toNat < 2 ^ 13 →
      let s1 := s.afterFetch c.val none
      8 ≤ s1.queued c.val 4 → mdrCode s1 c.val w = .ok → s1.askedWay c.val = false →
      ∃ t, exec (.mdr c w) s = .next t ∧ State.CoreOnly s1 t c.val { s1.core c.val with run := .waiting, heldBy := s1.queuedIds c.val 4 }) ∧
  (
    ∀ (c : CoreId) (w : DWord) (s : State),
      ((s.core c.val).launch = none → ∃ t, exec (.inputStationary c w) s = .next t ∧
        s.CoreOnly t c.val { s.core c.val with arrs := [], arrds := [] }) ∧
      ((s.core c.val).launch.isSome = true → Issues s c.val { IWord.ofBits w with dep := false } none [] →
        let s1 := s.afterFetch c.val none
        exec (.inputStationary c w) s =
          .next (s1.faultCore c.val (IWord.cls w) (IWord.func w) (s1.core c.val).pc .badOpcode)))

/-- The matrix instruction at the head of the queue starts when R113 lets it and is held otherwise; an MST under SWP makes each
loaded tile the active one (R105, R113).
A weight load that completes leaves its tile in the shadow of each array named; a bad residual list leaves the shadows as
they were and ends the launch with BAD_FIELD (R50, R103).
A matrix instruction that completes leaves the queue; an MST changes only the banks of its arrays and writes no memory,
and an MDR changes only the scratchpad of its core (R105, R108, R118). -/
def Obligations.MatrixUnitRuns : Prop :=
  (
    ∀ (c : CoreId) (s : State) (j : Job),
      ((s.jobsOf c.val [4]).find? fun j => j.prog == .queued) = some j → s.job c.val j.id = some j →
      (mxReady s c.val j = false → exec (.matrixStart c) s = .next s) ∧
      (mxReady s c.val j = true → j.func = 0 → ∃ t, exec (.matrixStart c) s = .next t ∧
        t.job c.val j.id = some { j with prog := .running } ∧ { t with cores := s.cores } = s) ∧
      (mxReady s c.val j = true → j.func = 2 → ∃ t, exec (.matrixStart c) s = .next t ∧
        t.job c.val j.id = some { j with prog := .running } ∧ { t with cores := s.cores, regs := s.regs } = s) ∧
      (mxReady s c.val j = true → j.func = 1 → ∃ t y, exec (.matrixStart c) s = .next t ∧
        t.job c.val j.id = some y ∧ y.prog = .running ∧ { t with cores := s.cores, regs := s.regs } = s ∧
        ∀ a ∈ maskArrays (mxMask j.w), mstSwp j.w = true →
          (t.arr c.val a).active = (s.arr c.val a).shadow ∧ (t.arr c.val a).shadow = none)) ∧
  (
    ∀ (c : CoreId) (s : State) (j : Job),
      ((s.jobsOf c.val [4]).find? fun j => j.func == 0 && j.prog == .running) = some j →
      let d := j.main
      let entries := residEntries s c.val j
      (residOk (d.rowBlocks * d.ext1) none entries = true →
        ∃ t, exec (.wldLoadDone c) s = .next t ∧ t.job c.val j.id = none ∧ t.pads = s.pads ∧ t.cis = s.cis ∧
          ∀ a ∈ maskArrays (mxMask j.w), ∃ x, (t.arr c.val a).shadow = some x ∧ x.sig.fmt = d.format ∧
            x.sig.scaling = d.scaling ∧ x.sig.ext0 = d.ext0 ∧ x.sig.wide = wldWide j.w ∧ x.tscale = d.tscale ∧
            (t.arr c.val a).active = (s.arr c.val a).active) ∧
      (residOk (d.rowBlocks * d.ext1) none entries = false →
        ∃ t, exec (.wldLoadDone c) s = .next t ∧ t.job c.val j.id = none ∧ (t.core c.val).fault = .badField ∧
          ∀ a, t.arr c.val a = s.arr c.val a)) ∧
  (
    ∀ (c : CoreId) (s : State) (j : Job),
      ((s.jobsOf c.val [4]).find? fun j => j.prog == .running && decide (j.func ≠ 0)) = some j →
      ∃ t, exec (.matrixComplete c) s = .next t ∧ t.job c.val j.id = none ∧ t.cis = s.cis ∧ t.host = s.host ∧
        (∀ q, q ≠ c.val → t.core q = s.core q ∧ t.pad q = s.pad q) ∧
        (j.func = 1 → t.pads = s.pads ∧ ∀ a, a ∉ j.tiles.map Prod.fst → t.arr c.val a = s.arr c.val a) ∧
        (j.func ≠ 1 → ∀ a, t.arr c.val a = s.arr c.val a))

/-- A VCH takes its place in the queue when its checks pass; under DIRECT it pairs with the one forwarding MST that has no
partner (R128, R145, R147).
A queued VCH starts when R149 lets it, taking its table and latched operands, and one that completes leaves the queue, changes memory in its core's scratchpad only,
and none of it when it has no output, no row results and no map (R149, R151). -/
def Obligations.VectorChainsRun : Prop :=
  (
    ∀ (c : CoreId) (w : IWord) (w2 : DWord) (s : State),
      let s1 := s.afterFetch c.val (some w2)
      let k := s1.core c.val
      let ch := Chain.of w2
      let busy := if ch.rcap then .s (vSb w + 7) :: k.busy else k.busy
      Issues s c.val w (some w2) ((vNamed w ch).map .t ++ (List.range 8).map (fun i => .s (vSb w + i))) → vchFields w w2 = true →
      k.isBusy ((vCompanions k.getT w ch).map .t) = false → s1.queued c.val 5 < 8 →
      (vSrc w ≠ 2 → vchCode s1 c.val w ch none = .ok →
        ∃ k', Completes (.vch c w w2) s c.val (some w2) k' (k.pc + 16) ∧ k.Queues k' 5 0 w w2 ∧ k'.busy = busy ∧
          { k' with jobs := k.jobs, nextJob := k.nextJob, busy := k.busy } = k) ∧
      (∀ m, vSrc w = 2 → s1.unpaired c.val = [m] → m.id < k.nextJob → vchCode s1 c.val w ch (some m) = .ok →
        ∃ k' j, Completes (.vch c w w2) s c.val (some w2) k' (k.pc + 16) ∧ k'.jobs.getLast? = some j ∧ j.pair = some m.id ∧
          j.id = k.nextJob ∧ k'.busy = busy ∧
          ∀ x ∈ k.jobs, x.id = m.id → { x with pair := some k.nextJob } ∈ k'.jobs)) ∧
  (
    ∀ (c : CoreId) (s : State) (j : Job),
      (((s.jobsOf c.val [5]).find? fun j => j.prog == .queued) = some j → s.job c.val j.id = some j → vSrc j.w ≠ 2 →
        (vchReady s c.val j = true → ∃ t, exec (.vchStart c) s = .next t ∧
          t.job c.val j.id = some (s.startVch c.val j) ∧ { t with cores := s.cores, regs := s.regs } = s) ∧
        (vchReady s c.val j = false → exec (.vchStart c) s = .next s)) ∧
      (((s.jobsOf c.val [5]).find? fun j => j.prog == .running) = some j → (vSrc j.w = 2 → j.fwd.isSome = true) →
        ∃ t, exec (.vchComplete c) s = .next t ∧ t.job c.val j.id = none ∧ t.cis = s.cis ∧ t.host = s.host ∧
          (∀ q, q ≠ c.val → t.core q = s.core q ∧ t.pad q = s.pad q) ∧
          (vNout j.w = true → (Chain.of j.w2).rwov = false → (Chain.of j.w2).smap = false → t.pads = s.pads ∧
            t.padPoison = s.padPoison)))

/-- DMA, FIL and SCP take the lowest free descriptor slot when their checks pass and a slot is free (R157 to R160).
A DMA that starts leaves the queue: one whose page is not in the TLB walks for it, and a short one is held at the issue
stage; one held by a hazard, or behind an older one at the issue stage, stays (R161, R162, R165, R311). -/
def Obligations.DescriptorsDispatchAndStart : Prop :=
  (
    ∀ (c : CoreId) (w : IWord) (s : State),
      let s1 := s.afterFetch c.val none
      let k := s1.core c.val
      let ok := fun (i : Instr) (func : Nat) (ds : List Desc) =>
        dmaCode s1 c.val func w = .ok → k.isBusy (((ds.filter fun d => d.scaling != 0).map Desc.scaleT).map .t) = false →
        (s1.dmaJobs c.val).length < s1.fld .dmaCtrl c.val 4 0 →
        ∃ k', Completes i s c.val none k' (k.pc + 8) ∧ k.Queues k' 6 func w 0 ∧
          k'.jobs.getLast?.map (·.slot) = some (freeSlot s1 c.val) ∧
          { k' with jobs := k.jobs, nextJob := k.nextJob, srec := k.srec } = k
      let a := k.getT w.src1.toNat
      let b := k.getT w.dst.toNat
      (Issues s c.val w none [.t w.dst.toNat, .t w.src1.toNat] → w.dst.toNat < 32 → w.src1.toNat < 32 → w.src2 = 0 → w.imm = 0 →
        ok (.dma c w) 0 [a, b] ∧ ok (.scp c w) 2 [a, b]) ∧
      (Issues s c.val w none [.t w.dst.toNat, .s w.src1.toNat] → w.dst.toNat < 32 → w.src2 = 0 → w.imm.toNat < 4 →
        ok (.fil c w) 1 [b])) ∧
  (
    ∀ (c : CoreId) (slot : Fin 16) (quota : Option Nat) (s : State) (j : Job), slotJob s c.val slot.val = some j →
      s.job c.val j.id = some j → j.prog = .queued →
      (dmaReady s c.val j = false ∨ stageFree s c.val j = false → exec (.dmaDescStart c ⟨slot, quota⟩) s = .next s) ∧
      (dmaReady s c.val j = true → stageFree s c.val j = true → j.func = 0 → j.target = 3 →
        s.ctxOn (s.core c.val).ctx = true →
        let va := j.dev.rowAddr 0 % 2 ^ 57
        (s.tlbHit c.val (s.core c.val).ctx va = none →
          ∃ t, exec (.dmaDescStart c ⟨slot, quota⟩) s = .next t ∧
            t.job c.val j.id = some { j with prog := .walking va (s.epoch (s.core c.val).ctx), quota := quota } ∧
            { t with cores := s.cores } = s.missed (.dma c.val slot.val)) ∧
        (∀ l a, s.tlbHit c.val (s.core c.val).ctx va = some l → j.toPad = true → s.place l va = .cis a →
          dmaSize j.padSide < 4096 →
          ∃ t, exec (.dmaDescStart c ⟨slot, quota⟩) s = .next t ∧
            t.job c.val j.id = some { j with prog := .short, target := 0, quota := quota } ∧
            { t with cores := s.cores, regs := s.regs } = s)))

/-- A fill of one row writes its pattern over the row and nothing else, and has then only to complete (R159).
The rest of a descriptor's life: a short one whose hold ends issues its pieces, a halted one whose record was completed walks again, and one
whose requests are complete leaves its slot (R165, R176, R283). -/
def Obligations.DescriptorsGoOnAndComplete : Prop :=
  (
    ∀ (c : CoreId) (slot : Fin 16) (s : State) (j : Job), s.memWf = true → slotJob s c.val slot.val = some j →
      s.job c.val j.id = some j → j.prog = .queued → j.func = 1 → dmaReady s c.val j = true → stageFree s c.val j = true →
      let d := j.desc j.w.dst.toNat
      let v := (j.scal.headD 0).toNat
      d.rank = 0 →
      ∃ t, exec (.dmaDescStart c ⟨slot, none⟩) s = .next t ∧ (∃ y, t.job c.val j.id = some y ∧ y.prog = .issued) ∧
        (∀ i, i < d.rowBytes → (t.pad c.val).read (d.base + i) = BitVec.ofNat 8 (v / 2 ^ (8 * (i % filWidth j.w)))) ∧
        (∀ x, x < d.base ∨ d.base + d.rowBytes ≤ x → (t.pad c.val).read x = (s.pad c.val).read x) ∧
        (∀ q, q ≠ c.val → t.pad q = s.pad q ∧ t.core q = s.core q) ∧ t.cis = s.cis ∧ t.host = s.host) ∧
  (
    ∀ (c : CoreId) (slot : Fin 16) (s : State) (j : Job), slotJob s c.val slot.val = some j → s.job c.val j.id = some j →
      (j.prog = .short → j.target ≠ 3 → j.func = 0 →
        exec (.dmaShortHoldExpire c slot) s = .next (dmaRun c.val j.id (dmaLeft j) s)) ∧
      (j.prog ≠ .short → exec (.dmaShortHoldExpire c slot) s = .next s) ∧
      (∀ r va since, j.prog = .halted r va since true →
        ∃ t, exec (.dmaResume c slot) s = .next t ∧
          t.job c.val j.id = some { j with prog := .walking va (s.epoch (s.core c.val).ctx) } ∧
          { t with cores := s.cores } = s.missed (.dma c.val slot.val)) ∧
      (j.prog = .issued → (∀ kv ∈ s.txns, ∀ a, kv.2.owner ≠ .dma c.val j.id a) → (∀ x ∈ s.hostWaits, ∀ a, x.owner ≠ .dma c.val j.id a) →
        ∃ t, exec (.dmaDescComplete c slot) s = .next t ∧ t.job c.val j.id = none ∧ { t with cores := s.cores } = s))

/-- LKP and LKU take their place in the queue of the lookup unit when their checks pass and it has room, wait when it is full,
and are rejected with the first failing check's code (R82, R184, R190, R193).
The first lookup whose bytes are free starts. It writes neither memory nor tables. Bad lists end its launch with RANGE; a
GATHER of one row sends one part to the row's home engine (R178, R194, R195, R197). -/
def Obligations.LookupUnitRuns : Prop :=
  (
    ∀ (c : CoreId) (w : IWord) (w2 : DWord) (s : State),
      let s1 := s.afterFetch c.val (some w2)
      let k := s1.core c.val
      let run := fun (lku : Bool) (i : Instr) =>
        let x := LkExt.of lku w2
        Issues s c.val w (some w2) ((lkReads w x ++ lkWrites lku w x).map .t) → lkFields lku w w2 = true →
        (lkCode s1 c.val lku w x = .ok → s1.queued c.val 7 < 32 →
          ∃ k', Completes i s c.val (some w2) k' (k.pc + 16) ∧ k.Queues k' 7 (bit lku) w w2 ∧
            { k' with jobs := k.jobs, nextJob := k.nextJob } = k) ∧
        (lkCode s1 c.val lku w x = .ok → 32 ≤ s1.queued c.val 7 → s1.askedWay c.val = false →
          ∃ t, exec i s = .next t ∧ State.CoreOnly s1 t c.val { k with run := .waiting, heldBy := s1.queuedIds c.val 7 }) ∧
        (lkCode s1 c.val lku w x ≠ .ok →
          exec i s = .next (s1.faultCore c.val 7 (bit lku) k.pc (lkCode s1 c.val lku w x)))
      run false (.lkp c w w2) ∧ run true (.lku c w w2)) ∧
  (
    ∀ (c : CoreId) (s : State) (j : Job) (t : Table),
      ((s.jobsOf c.val [7]).find? fun j => j.prog == .queued && padClear (s.before c.val j.id) j) = some j →
      s.job c.val j.id = some j → s.table (lkTid j.w) = some t →
      let l := readLists s c.val j
      ∃ u, exec (.lookupUnitStart c) s = .next u ∧ u.cis = s.cis ∧ u.host = s.host ∧ u.tables = s.tables ∧ u.pages = s.pages ∧
        (badLists l (lkSkip j.w) t.rows = true → (u.core c.val).run = .stopped ∧ (u.core c.val).fault = .range) ∧
        (∀ row e, badLists l (lkSkip j.w) t.rows = false → j.func = 0 → lkOp j.w = 0 → (lkExt j).wgt = none → l.idx = [row] →
          row < t.rows → s.homeOf (lkTid j.w) t (t.groupOf row) = (s.node, e) → (s.core c.val).bags = [] →
          (s.core c.val).bagWaits = [] → 4 * j.cols ≤ 65536 →
          u.partsOf e = s.partsOf e ++ [⟨.core c.val j.id 0, lkTid j.w, j.target, e, if (lkExt j).raw then 3 else 0,
            [(row, l.wgt 0)], [], 0, 0, false, [], 0, false, false, [], []⟩] ∧
          u.job c.val j.id = some { j with prog := .running }))

/-- A home engine takes a part, pools a row that is cached and answers with a partial sum; it takes an add of a shadowed table
and the row gains its shadow, and the LKU completes with its last add; an add that another module has applied counts the same
(R183, R187, R191, R196, R197, R231). -/
def Obligations.EnginesServePartsAndAdds : Prop :=
  (∀ (e : Fin 64) (s : State) (p : RowPart) (t : Table) (row : Nat) (w : Word) (c job bag id off : Nat),
    s.partsOf e.val = [p] → p.begun = false → p.items = [(row, w)] → p.op < 2 → p.vec = [] → p.count = 0 → p.subs = 0 →
    p.flags = 0 → p.sender = .core c job bag → s.inReset 3 e.val = false → s.table p.tid = some t → row < t.rows →
    t.serves p.inst = true → s.duty e.val p.tid t (t.groupOf row) = .mine → s.hotCopy e.val (s.hotHalf e.val) p.tid row p.inst = none →
    s.rowAt p.tid t p.inst row = .at_ id off →
    let v := s.rowVals p.tid t p.inst row (s.rowBytes t (.at_ id off)).1 (s.rowBytes t (.at_ id off)).2
    ∃ u x, exec (.part e none) s = .next u ∧ u.psums = s.psums ++ [x] ∧ u.partsOf e.val = [] ∧ x.core = c ∧ x.job = job ∧
      x.bag = bag ∧ x.code = .ok ∧ x.count = 1 ∧ x.bad = (p.bad || v.2) ∧
      x.vec = (v.1.zipIdx.map fun (y, i) => f32Word (Config.freeAt s.free i) y) ∧
      u.cis = s.cis ∧ u.host = s.host ∧ u.cores = s.cores ∧ u.tables = s.tables) ∧
  (∀ (e : Fin 64) (s : State) (a : Add) (t : Table) (c job bag : Nat) (j : Job),
    s.addsOf e.val = [a] → a.begun = false → a.sender = .core c job bag → s.job c job = some j →
    s.inReset 3 e.val = false → s.table a.tid = some t → t.serves a.inst = true → t.upd = true → a.row < t.rows →
    t.shadowed = true → (t.mirror = false ∨ t.ostate = 0) → s.duty e.val a.tid t (t.groupOf a.row) = .mine →
    s.shadowOf a.tid a.row a.inst = none → a.vec.length = t.elems →
    (s.poolUsed (e.val / 32) + 4 * t.elems) * 10 ≤ s.poolBytes * 9 →
    ∃ u, exec (.update e none) s = .next u ∧ u.addsOf e.val = [] ∧
      u.shadows = s.shadows ++ [⟨a.tid, a.row, [a.inst], e.val, a.vec.map fun w => toF32 (FVal.zero.add (ofF32 w)), s.ticks,
        a.bad, false, none⟩] ∧
      (j.done ≤ 1 → u.job c job = none) ∧ u.cis = s.cis ∧ u.pads = s.pads ∧ u.pages = s.pages) ∧
  (∀ (l : Fin 36) (p : Packet) (s s1 : State) (x : Txn) (c job : Nat) (j : Job),
    p.type = 0x13 → p.dst = s.node → s.takeTxn p = (some x, s1) → x.owner = .update c job → s1.job c job = some j →
    j.done ≤ 1 → (∀ kv ∈ s1.cores, kv.2.lkWaits = []) → (s1.core c).lkWaits = [] →
    ∃ u, exec (.uack l p) s = .next u ∧ u.job c job = none ∧ u.cis = s.cis ∧ u.pads = s.pads ∧ u.txns = s1.txns)

/-- A partial sum that is not a bag's last is added to it, and the last one completes the bag: its elements are written in the
output format, and the LKP is complete with its last bag (R187 to R189, R196, R197). -/
def Obligations.PartialSumsFillTheirBags : Prop :=
  ∀ (c : CoreId) (s : State) (x : Psum) (j : Job) (b : Bag), s.memWf = true →
    s.psums.find? (fun x => x.core == c.val) = some x → s.job c.val x.job = some j → x.code = .ok →
    (s.core c.val).bags.find? (fun b => b.job == x.job && b.bag == x.bag) = some b →
    (∀ n, b.left = n + 2 → (s.core c.val).bags = [b] → ∃ t, exec (.psum c none) s = .next t ∧ t.psums = s.psums.erase x ∧
      (t.core c.val).bags = [{ b with
        left := n + 1, vec := State.addSums s.free b.vec x.vec, count := b.count + x.count, flags := b.flags ||| x.flags, bad := b.bad || x.bad, raw := if x.raw.isEmpty then b.raw else x.raw }] ∧
      t.pads = s.pads ∧ t.cis = s.cis) ∧
    (b.left = 1 → b.vec = [] → x.vec ≠ [] → (lkExt j).flg = none → (lkExt j).raw = false → lkOp j.w ≠ 2 →
      (s.core c.val).bags = [b] → (s.core c.val).bagWaits = [] →
      let d := j.desc j.w.dst.toNat
      let bs := pack d.ebits (outCodes (d.fmt.getD .fp32) (s.free + 1) (x.vec.map ofF32)).1
      ∃ t, exec (.psum c none) s = .next t ∧ t.psums = s.psums.erase x ∧ (t.core c.val).bags = [] ∧
        (∀ i, (h : i < bs.length) → (t.pad c.val).read (d.rowAddr b.bag + i) = bs[i]) ∧
        (∀ a, a < d.rowAddr b.bag ∨ d.rowAddr b.bag + bs.length ≤ a → (t.pad c.val).read a = (s.pad c.val).read a) ∧
        (∀ q, q ≠ c.val → t.pad q = s.pad q) ∧ t.cis = s.cis ∧ (j.done ≤ 1 → t.job c.val x.job = none) ∧
        (2 ≤ j.done → t.job c.val x.job = some { j with done := j.done - 1 }))

/-- Once it has reached GOV_LAG the first page in log order is written back: the well half of its engine gains a WRITE, and the
tokens go down by the page's bytes; over the pace when an add has waited 10 ms for a shadow while folds wait for the dirty
limit (R233 to R235). The oldest shadow is folded into its row's page when its time has come (R229, R230). -/
def Obligations.GovernorWritesAndFolds : Prop :=
  (∀ (s : State) (id : Nat) (p : Page), s.wellShut = false → s.dirtyFirst = some (id, p) → s.page id = some p →
    let wrote := fun (t : State) (above : Bool) => ∃ l, (t.well (p.engine / 32)).reqs =
        (s.well (p.engine / 32)).reqs ++ [.write l id (p.data.getD [])] ∧ (∀ l', p.lpn = some l' → l = l') ∧
      t.page id = some { p with lpn := some l, writing := true, above := above } ∧
      t.tokens = max (-s.tokenCap) (s.tokens - 4320 * 2048) ∧ t.overBytes = s.overBytes + (if above then 2048 else 0) ∧
      { t with pages := s.pages, wells := s.wells, tokens := s.tokens, overBytes := s.overBytes } = s
    (s.lagged p = true → (s.flag .govCfg 0 0 = true ∨ 0 < s.tokens) →
      ∃ t, exec .pageWriteBack s = .next t ∧ wrote t (s.flag .govCfg 0 0 && decide (s.tokens ≤ 0))) ∧
    (s.lagged p = false ∨ (s.flag .govCfg 0 0 = false ∧ s.tokens ≤ 0) → exec .pageWriteBack s = .next s) ∧
    (s.dirtyFull = true → heldLong s = true → ∃ t, exec .governorOverpace s = .next t ∧ wrote t true) ∧
    (s.dirtyFull = false ∨ heldLong s = false → exec .governorOverpace s = .next s)) ∧
  (∀ (s : State) (x : Shadow) (t : Table) (inst id off : Nat) (p : Page) (d : List Byte),
    s.shadows = [x] → x.due = false → x.insts = [inst] → s.parts = [] → s.adds = [] → s.repacks = [] →
    (∀ kv ∈ s.pages, kv.2.swept = false) → s.table x.tid = some t →
    s.foldHeld x.tid t x = false → s.rowAt x.tid t inst x.row = .at_ id off → s.page id = some p → p.insts = [inst] →
    p.data = some d → State.rowPoison p off t.rowSize = false → x.bad = false →
    let bs := (s.rowBytes t (.at_ id off)).1
    (t.scaleOf bs).isZero = false →
    let new := State.foldBytes t x.engine (s.foldPos.getD x.engine 0) s.free bs
      (((t.values bs).zip x.vec).map fun (v, w) => rnd32 (v.add (ofF32 w)))
    ∃ u, exec .shadowFoldTimer s = .next u ∧ u.shadows = [] ∧
      u.pageData id = some (d.take off ++ new ++ d.drop (off + new.length)) ∧
      (∀ q, q ≠ id → u.pageData q = s.pageData q) ∧ u.cis = s.cis ∧ u.tables = s.tables)

/-- REGISTER describes a table, RETIRE removes it with its shadows and directory entries; hash constants, sketch sets, snapshots
and hot loads and switches take effect as their registers are written (R177, R180, R181, R200, R202, R204, R205). -/
def Obligations.TableAndStoreCommands : Prop :=
  ∀ (src : Src) (v : Word) (s : State),
    let acc := fun (r : Reg) (i : Nat) (v : Word) (check : Code) (c : Instr) (t : State) =>
      Accepted s src r i v check → exec c s = .next (t.noted src r i v)
    (let v1 := BitVec.ofNat 32 (setBits v.toNat 1 0 1)
      let tid := bitsOf v1.toNat 11 2
      acc .lkeTcmd 0 v1 (s.registerCheck tid) (.register src v) (s.setTable tid (s.tableOf s.tstage))) ∧
    (let v2 := BitVec.ofNat 32 (setBits v.toNat 1 0 2)
      let tid := bitsOf v2.toNat 11 2
      ∀ t, s.table tid = some t → Accepted s src .lkeTcmd 0 v2 (s.retireCheck tid) →
        ∃ u, exec (.retire src v) s = .next u ∧ u.table tid = none ∧ (∀ kv ∈ u.dir, kv.1 / 2 ^ 42 ≠ tid) ∧
          (∀ x ∈ u.shadows, x.tid = tid → ∀ i ∈ t.live, i ∉ x.insts) ∧ u.cis = s.cis ∧ u.cores = s.cores) ∧
    (∀ d : Fin 4, let u := s.store .cmsHashBHi d.val v
      acc .cmsHashBHi d.val v (s.hashCheck d.val v) (.cmsHashCommit src d v) { u with
        cmsHash := s.cmsHash.set d.val (u.reg64 .cmsHashALo .cmsHashAHi d.val, u.reg64 .cmsHashBLo .cmsHashBHi d.val) }) ∧
    (∀ (n : Fin 64) (i : Fin 16), let v1 := v ||| 0x80000000
      let k := 16 * n.val + i.val
      s.cmsOn k = false → acc .cmsSet k v1 (s.cmsSetCheck k v1) (.cmsSetEnable src n i v) { s.store .cmsSet k v1 with
        sketches := s.sketches.erase k }) ∧
    (∀ n : Fin 64, let v1 := v ||| 1
      acc .cmsCtrl n.val v1 (s.snapCheck n.val v1) (.cmsSnap src n v) ((s.store .cmsCtrl n.val v1).setFlag .cmsCtrl n.val 2 true)) ∧
    (∀ n : Fin 64, let v1 := v ||| 0x80000000
      acc .hotCtrl n.val v1 (s.hotCheck n.val v1) (.hotLoad src n v)
        (((s.setHot n.val { State.Hot.setInactive (s.flag .lkeState n.val 0) (s.hot n.val) [] with
          load := some (s.addr .hotListHi n.val, bitsOf v1.toNat 19 0, 0) }).setFld .lkeState n.val 2 1 1).setReg .hotStatus n.val
            0)) ∧
    (∀ n : Fin 64, let v1 := v ||| 0x40000000
      let h := s.hot n.val
      let one := s.flag .lkeState n.val 0
      acc .hotCtrl n.val v1 (s.hotCheck n.val v1) (.hotSwitch src n v)
        (((s.setHot n.val (if one then { h with h1 := [] } else { h with h0 := [] })).setFlag .lkeState n.val 0 (!one)).setFld
          .lkeState n.val 2 1 0))

/-- The lifecycle commands change their table's instars, its directory, or begin what runs on (R209, R216, R217, R223 to R230,
R236). -/
def Obligations.LifecycleCommands : Prop :=
  ∀ (src : Src) (v : Word) (full : Bool) (s : State),
    let word := fun (op : Nat) => (BitVec.ofNat 32 (setBits v.toNat 3 0 op) : Word)
    let tid := bitsOf v.toNat 13 4
    let key := State.dirKey tid s.lcGroup
    let a0 := s.lcA 0
    let e := s.lcA 3
    let acc := fun (op : Nat) (full : Bool) (c : Instr) (u : State) =>
      Accepted s src .lcCmd 0 (word op) (s.lcCheck full (word op)) → exec c s = .next (u.noted src .lcCmd 0 (word op))
    acc 12 false (.flush src v) (({ s with lcRun := some (.flush (s.shadowRows fun _ => true) none .ok), lcWait := none } : State).setFld .lcState 0 9
      0 1) ∧
    ∀ t, s.table tid = some t →
      acc 1 false (.place src v) (s.setTable tid { t with packCur := a0.testBit 0 }) ∧
      acc 2 false (.writeRows src v) ((({ s with lcRun := some (.write tid (a0.testBit 0) s.batchAt e), lcWait := none } : State).setFld .lcState 0 9
        0 1).setFld .lcState 0 31 10 0) ∧
      (a0.testBit 0 = false → acc 3 false (.begin src v) (s.setTable tid { t with
        other := (t.cur + 1) % 65536, ostate := 1, clone := false, mirror := a0.testBit 1, packOther := a0.testBit 2,
        touched := true })) ∧
      acc 4 false (.seal src v) (s.setTable tid { t with ostate := 2 }) ∧
      acc 5 false (.advance src v) (s.setTable tid { t with
        cur := t.other, other := t.cur, packCur := t.packOther, packOther := t.packCur,
        ostate := if a0.testBit 3 then 4 else 3 }) ∧
      acc 6 false (.release src v) (s.setTable tid { t with ostate := 3 }) ∧
      acc 7 false (.abandon src v) (s.endOther tid t) ∧
      (let slot := bitsOf a0 7 4
        let dst := (bitsOf e 11 0, bitsOf e 17 12)
        let prior := (s.dir.get? key).map fun d => (d.kind, d.node, d.engine)
        acc 8 full (.migrate src v full) (((({ s with
          dir := s.dir.set key ⟨2, dst.1, dst.2, (s.homeOf tid t s.lcGroup).2, prior⟩,
          migs := s.migs.set slot ⟨tid, s.lcGroup, dst.1, dst.2, s.groupPages tid s.lcGroup, [], false⟩ } : State).setReg .migState
            slot (BitVec.ofNat 32 (1 + 1024 * tid))).setReg .migPages slot 0).setReg .migPasses slot 0)) ∧
      (let node := if bitsOf e 19 18 = 0 then s.node else bitsOf e 11 0
       acc 9 false (.dirset src v) { s with dir := s.dir.set key ⟨bitsOf e 19 18, node, bitsOf e 17 12, 0, none⟩ }) ∧
      acc 10 false (.dirclr src v) { s with dir := s.dir.erase key } ∧
      acc 11 false (.fold src v) (({ s with lcRun := some (.fold tid (s.shadowRows (· == tid)) .ok), lcWait := none } : State).setFld .lcState 0 9 0 1)

/-- What runs on after a lifecycle command ends as the spec says: batches, folds, flushes, snapshots, hot loads, retiring
instars and migrations; a destination makes room for what comes (R202, R204, R217, R218, R223, R228 to R230, R236). -/
def Obligations.LifecycleEvents : Prop :=
  ∀ (s : State), s.cmdJobs = [] →
    let ended := fun (code : Code) => ({ s with lcRun := none } : State).setReg .lcState 0
      (BitVec.ofNat 32 (setBits (s.reg .lcState 0).toNat 9 0 (2 + 4 * code.toNat)))
    (∀ tid o a, s.lcRun = some (.write tid o a 0) → exec .writeRowsDone s = .next (ended .ok)) ∧
    (∀ tid code, s.lcRun = some (.fold tid [] code) → exec .foldDone s = .next (ended code)) ∧
    (∀ m code, s.lcRun = some (.flush [] (some m) code) → s.dirtyBefore m = [] → exec .flushDone s = .next (ended code)) ∧
    (∀ n : Fin 64, s.flag .cmsCtrl n.val 2 = true → s.cmsSets n.val = [] → s.snapWait.getD n.val [] = [] →
      ∃ t, exec (.cmsSnapDone n) s = .next t ∧ t.flag .cmsCtrl n.val 2 = false ∧ t.cis = s.cis ∧
        t.snapSeq.getD n.val 0 = s.snapSeq.getD n.val 0 + 1) ∧
    (∀ (n : Fin 64) a pos, (s.hot n.val).load = some (a, 0, pos) →
      ∃ t, exec (.hotLoadDone n) s = .next t ∧ t.fld .lkeState n.val 2 1 = 2 ∧ t.hot n.val = { s.hot n.val with load := none } ∧
        t.cis = s.cis) ∧
    (∀ (tid : Fin 1024) t, s.table tid.val = some t → t.ostate = 3 →
      (s.pinCount tid.val t.other = 0 → ∃ u, exec (.instarRetire tid) s = .next u ∧
        u.table tid.val = some { t with ostate := 0, mirror := false, clone := false, packOther := false } ∧ u.cis = s.cis) ∧
      (s.pinCount tid.val t.other ≠ 0 → exec (.instarRetire tid) s = .next s)) ∧
    (∀ (m : Fin 8) x, s.migs.get? m.val = some x → x.cutting = false →
      (x.delta.length ≤ 128 → s.lostCopy x = false → s.wellShut = false → ∃ u, exec (.migrationPassEnd m .ok) s = .next u ∧
        u.migs.get? m.val = some { x with copying := x.delta, delta := [], cutting := true } ∧
        u.reg .migPasses m.val = BitVec.ofNat 32 (s.fld .migPasses m.val 6 0 + 1) ∧
        { u with regs := s.regs, migs := s.migs } = s) ∧
      (∀ code, code ≠ .ok → ∃ u, exec (.migrationPassEnd m code) s = .next u ∧ u.migs.get? m.val = none ∧ u.pages = s.pages ∧
        { u with regs := s.regs, migs := s.migs, dir := s.dir } = s)) ∧
    (∀ (m : Fin 8) x t, s.migs.get? m.val = some x → x.cutting = true → s.table x.tid = some t →
      s.partsOf (s.homeOf x.tid t x.group).2 = [] → s.addsOf (s.homeOf x.tid t x.group).2 = [] →
      s.cutReady x t (s.homeOf x.tid t x.group).2 = true →
      (s.cutOver m.val x t (s.homeOf x.tid t x.group).2).isSome = true →
      ∃ u, exec (.migrationCutoverDone m) s = .next u ∧ u.migs.get? m.val = none ∧
        u.dir.get? (State.dirKey x.tid x.group) = some ⟨3, x.node, x.engine, 0, none⟩ ∧ u.cis = s.cis) ∧
    (∀ (src : Src) (m : Fin 8) (v : Word), let v1 := v ||| 0x80000000
      Accepted s src .migState m.val v1 .ok → s.flag .migState m.val 31 = true → exec (.migSlotAck src m v) s =
        .next (((s.setFld .migState m.val 1 0 0).setFlag .migState m.val 31 false).noted src .migState m.val v1)) ∧
    (∀ (tid : Fin 1024) (group : Nat) (e : Fin 64) (pages : List MovedPage) (shadows : List MovedShadow) (t : Table) (u : State),
      s.table tid.val = some t → s.dir.length < 65536 →
      let key := State.dirKey tid.val group
      pages.foldl (fun o m => o.bind fun s => bringPage tid.val group e.val s m)
        (some { s with dir := s.dir.set key ⟨0, s.node, e.val, 0, none⟩ }) = some u →
      exec (.destinationReserve tid group e pages shadows) s = .next { u with
        shadows := u.shadows ++ shadows.map fun x => ⟨tid.val, x.row, [x.inst], e.val, x.vec, s.ticks, false, false, none⟩ } ∧
      u.dir.get? key = some ⟨0, s.node, e.val, 0, none⟩ ∧ u.shadows = s.shadows ∧ u.cis = s.cis ∧ u.tables = s.tables) ∧
    (∀ (h : Fin 2) lpn data rest id p, (s.well h.val).arrived = (lpn, .ok, data) :: rest →
      s.pages.find? (fun kv => kv.2.lpn == some lpn && kv.2.engine / 32 == h.val && kv.2.miss) = some (id, p) →
      (s.setPages p).length < 16 → s.parts = [] → s.adds = [] → (s.shadows.filter (·.due)) = [] → s.repacks = [] →
      (∀ kv ∈ s.pages, kv.2.swept = false) → s.hots = [] → s.lcRun = none →
      ∃ u, exec (.rowPageInstall h) s = .next u ∧ u.page id = some { p with
          miss := false, data := some data, fresh := [], used := s.order } ∧
        (u.well h.val).arrived = rest ∧ (∀ q, q ≠ id → u.page q = s.page q) ∧ u.cis = s.cis)

/-- With the channel in service, no read waiting and its sub-channel turned to reads, a request is performed: a write of a whole
access stores its bytes at their place of working memory and joins the writes that wait; a read is answered with what the
code makes of the access: clean, poisoned, corrected and counted, or poisoned, counted and reported. A write that has waited
long enough turns its sub-channel, which serves one write, and the patrol scrub goes on by one access (R238 to R243, R249 to
R251). -/
def Obligations.CisternAccesses : Prop :=
  ∀ (ch : Fin 48) (off : Nat) (err : AccessErr) (s : State), s.cisReady = true → s.inReset 6 ch.val = false →
    s.cisQ.getD ch.val [] = [] →
    let k := State.subOf ch.val off
    (s.outstanding ch.val < 256 → (s.sub k).writing = false → (s.sub k).reads = [] →
      ∀ a, s.workAddr ch.val (off / 64 * 64) = some a → a % 64 = 0 → s.cis.wf = true →
      (∀ bs : List Byte, off % 64 = 0 → bs.length = 64 → (s.sub k).writes.length < 31 →
        ∃ t, exec (.cisternRequest ch off (some bs) err) s = .next t ∧ s.Stored t a bs ∧
          (t.sub k).writes = (s.sub k).writes ++ [off] ∧
          { t with cis := s.cis, cisKey := s.cisKey, cisPoison := s.cisPoison, subs := s.subs } = s) ∧
      (let got := decodeAccess (misread err (encodeAccess (s.cisRead a 64).1 (s.cisRead a 64).2))
       ∃ t, exec (.cisternRequest ch off none err) s = .next t ∧
        t.cisOut = s.cisOut ++ [(ch.val, ⟨off / 64 * 64, got.2, decide (got.1 = .poison ∨ got.1 = .bad)⟩)] ∧
        (got.1 = .clean ∨ got.1 = .poison → { t with cisOut := s.cisOut, subs := s.subs } = s) ∧
        (got.1 = .corrected → s.Stored t a got.2 ∧
          { t with cis := s.cis, cisKey := s.cisKey, cisPoison := s.cisPoison, cisOut := s.cisOut, subs := s.subs } =
            s.bump .chCe ch.val 1) ∧
        (got.1 = .bad → t.cisPoison.contains (a / 64) = true ∧
          t.reg .sumpTail 0 = BitVec.ofNat 32 (State.nextSeq (s.reg .sumpTail 0).toNat)))) ∧
    (∀ sub : Fin 2, let k := 2 * ch.val + sub.val
      ((s.sub k).writes = [] → exec (.writeTurnTimeout ch sub) s = .next s) ∧
      (∀ w ws, (s.sub k).writes = w :: ws → ∃ t, exec (.writeTurnTimeout ch sub) s = .next t ∧
        t.sub k = { s.sub k with writes := ws, writing := !ws.isEmpty } ∧ (∀ j, j ≠ k → t.sub j = s.sub j) ∧
        { t with subs := s.subs } = s)) ∧
    (s.flag .cisScrubCfg 0 8 = false → exec (.patrolScrub err) s = .next s) ∧
    (s.flag .cisScrubCfg 0 8 = true →
      let c := s.scrubPos / 2 ^ 29
      let o := s.scrubPos % 2 ^ 29 * 64
      s.inReset 6 c = false → (s.sub (State.subOf c o)).reads = [] →
      ∃ t, exec (.patrolScrub err) s = .next t ∧ t.scrubPos = (s.scrubPos + 1) % (48 * 2 ^ 29) ∧
        let u := (s.readAccess c o err).1
        { t with scrubPos := u.scrubPos, regs := u.regs } = u)

/-- POOL_SET makes a pool of free blocks of its largest class, POOL_CLEAR removes one, RESET_CTX frees every block of a context;
ALC takes a block out of a free one of its size or larger and returns its address, and FRE gives a block back (R92, R93, R252,
R254). -/
def Obligations.PoolsAllocateAndFree : Prop :=
  (∀ (src : Src) (v : Word) (s : State),
    let word := fun (op : Nat) => (BitVec.ofNat 32 (setBits v.toNat 1 0 op) : Word)
    let ctx := bitsOf v.toNat 7 2
    let key := 16 * ctx + bitsOf v.toNat 11 8
    let acc := fun (op : Nat) (c : Instr) (u : State) =>
      Accepted s src .poolCmd 0 (word op) (s.poolCheck (word op)) → exec c s = .next (u.noted src .poolCmd 0 (word op))
    acc 1 (.poolSet src v) { s with pools := s.pools.set key ⟨s.poolField 0 8, s.poolField 8 8, s.poolField 16 2,
      s.poolField 18 1 == 1, s.poolField 20 4, Pool.fresh (s.poolField 0 8) (s.poolField 8 8) (s.poolField 16 2), []⟩ } ∧
    acc 2 (.poolClear src v) { s with pools := s.pools.erase key } ∧
    acc 3 (.resetCtx src v) { s with pools := s.pools.mapV fun k x => if k / 16 = ctx then x.freeAll else x } ∧
    ∀ x : Pool, x.freeAll.used = [] ∧ (x.merge = false → ∀ kv ∈ x.used, (x.freeAll.free.get? kv.1).isSome = true)) ∧
  (∀ (c : CoreId) (w : IWord) (s : State) (x : Pool) (kls : Nat), Issues s c.val w none (.p 7 :: sRegs [w.dst, w.src1]) →
    w.src2 = 0 → w.imm.toNat < 16 →
    let s1 := s.afterFetch c.val none
    let k := s1.core c.val
    let size := (k.getS w.src1).toNat
    let key := 16 * k.ctx + w.imm.toNat
    s1.pools.get? key = some x → 0 < size → size ≤ Pool.bytes (Pool.top x.classes) → x.fit size = some kls →
    (x.candidates kls ≠ [] → ∃ t a b j y, exec (.alc c w) s = .next t ∧ (b, j) ∈ x.free ∧ kls ≤ j ∧ b ≤ a ∧
      a + Pool.bytes kls ≤ b + Pool.bytes j ∧ t.pools.get? key = some y ∧ y.used = x.used.set a kls ∧
      t.core c.val = ({ k.setS w.dst (BitVec.ofNat 64 a) with cst := 0 }.setP 7 true).goOn (k.pc + 8) ∧ t.cis = s1.cis) ∧
    (x.candidates kls = [] → ∃ t, exec (.alc c w) s = .next t ∧
      t.core c.val = ({ k.setS w.dst 0 with cst := 6 }.setP 7 false).goOn (k.pc + 8) ∧ t.pools = s1.pools)) ∧
  (∀ (c : CoreId) (w : IWord) (s : State), Issues s c.val w none (sRegs [w.src1]) → w.dst = 0 → w.src2 = 0 → w.imm = 0 →
    let s1 := s.afterFetch c.val none
    let k := s1.core c.val
    let a := (k.getS w.src1).toNat
    (∀ i x kls, (s1.ctxPools k.ctx).find? (fun kv => (kv.2.used.get? a).isSome) = some (i, x) → x.used.get? a = some kls →
      x.merge = false → ∃ t, exec (.fre c w) s = .next t ∧ t.core c.val = k.goOn (k.pc + 8) ∧
        t.pools = s1.pools.set i { x with used := x.used.erase a, free := x.free.set a kls } ∧
        { t with cores := s1.cores, pools := s1.pools } = s1) ∧
    ((s1.ctxPools k.ctx).find? (fun kv => (kv.2.used.get? a).isSome) = none →
      (s1.ctxPools k.ctx).any (fun kv => (kv.2.free.get? a).isSome) = false →
      exec (.fre c w) s = .next (s1.faultCore c.val 0x0A 1 k.pc .range)))

/-- Nothing waits for a row page, a shadow or a clean page: no part, add, due fold, candidate of repacking, page to return, hot
load or lifecycle command. -/
def Quiet (s : State) : Prop :=
  s.parts = [] ∧ s.adds = [] ∧ s.shadows.filter (·.due) = [] ∧ s.repacks = [] ∧ (∀ kv ∈ s.pages, kv.2.swept = false) ∧
    s.hots = [] ∧ s.lcRun = none

/-- The first request of a half is taken: a READ is answered from the write buffer or with zeros, or reads the flash, or is
answered with STATE while the well is shut; a WRITE enters the buffer and is acknowledged when the hold-up is good, waits while
programs are deferred and is refused by a READ_ONLY half; a TRIM takes the page out of the map (R262, R263, R265, R269, R281,
R446).
The half's own work: reclaiming empties the full stripe block with the fewest valid codewords, wear levelling moves the
coldest data, the journal and the checkpoint come to hold the map, a scrub keeps its read levels, and a lost die is rebuilt; what
programs flash waits while programs are deferred (R262 to R264, R266, R267, R269 to R272, R274, R446). -/
def Obligations.WellRequestsAndUpkeep : Prop :=
  (
    ∀ (h : Fin 2) (s : State) (r : WellReq) (rest : List WellReq),
      let w := s.well h.val
      w.reqs = r :: rest →
      (∀ lpn, r = .read lpn →
        (s.wellShut = true → ∃ t, exec (.wellRead h) s = .next t ∧
          t.well h.val = { w with reqs := rest, arrived := w.arrived ++ [(lpn, .state, [])] } ∧ { t with wells := s.wells } = s) ∧
        (s.wellShut = false → s.wellUp = true → w.lost.contains lpn = true → ∃ t, exec (.wellRead h) s = .next t ∧
          t.well h.val = { w with reqs := rest, arrived := w.arrived ++ [(lpn, .media, [])] } ∧ { t with wells := s.wells } = s) ∧
        (s.wellShut = false → s.wellUp = true → w.lost.contains lpn = false →
          (∀ d, w.quick lpn = some d → ∃ t, exec (.wellRead h) s = .next t ∧
            t.well h.val = { w with reqs := rest, arrived := w.arrived ++ [(lpn, .ok, d)] } ∧ { t with wells := s.wells } = s) ∧
          (w.quick lpn = none → ∃ t, exec (.wellRead h) s = .next t ∧
            t.well h.val = { w with reqs := rest, reads := w.reads ++ [w.readOf lpn (w.map.getD lpn 0)] } ∧
            { t with wells := s.wells, regs := s.regs, free := s.free } = s))) ∧
      (∀ lpn page data, r = .write lpn page data → s.wellUp = true → s.wellShut = false → w.buf.length < 12288 →
        (s.defers h.val = true → exec (.wellWrite h) s = .next s) ∧
        (s.defers h.val = false → s.wellMode h.val ≠ 2 → ((w.map.get? lpn).isSome = true ∨ w.map.length < 5859375000) →
          ∃ t, exec (.wellWrite h) s = .next t ∧
            (s.holdupOk = false ∨ Quiet s → t.well h.val = { w with
              reqs := rest, buf := w.buf ++ [⟨lpn, page, data, s.holdupOk⟩], lost := setErase w.lost lpn }) ∧
            (s.holdupOk = false → { t with wells := s.wells } = s) ∧
            (s.holdupOk = true → Quiet s → { t with wells := s.wells, pages := s.pages } = s ∧
              ∀ p, s.page page = some p → t.page page = some { p with
                writing := false, dirty := p.again, again := none, above := false })) ∧
        (s.defers h.val = false → s.wellMode h.val = 2 → ∃ t, exec (.wellWrite h) s = .next t ∧
          t.well h.val = { w with reqs := rest } ∧ ∀ p, s.page page = some p →
            t.page page = some { p with writing := false, again := none, above := false } ∧ t.tokens = s.tokens + 4320 * 2048)) ∧
      (∀ lpn, r = .trim lpn → s.wellUp = true → s.wellShut = false →
        ∃ t, exec (.wellTrim h) s = .next t ∧ (t.well h.val).map.get? lpn = none ∧
          (∀ q, q ≠ lpn → (t.well h.val).map.get? q = w.map.get? q) ∧ (t.well h.val).reqs = rest ∧
          (t.well h.val).lpnFree = w.lpnFree ++ [lpn] ∧ (t.well h.val).cells = w.cells ∧ { t with wells := s.wells, regs := s.regs } = s)) ∧
  (
    ∀ (h : Fin 2) (s : State),
      let w := s.well h.val
      let w0 := w.mark s.serviceDays
      let only := fun (t : State) => t.pages = s.pages ∧ t.cis = s.cis ∧ t.cores = s.cores ∧ ∀ g, g ≠ h.val → t.well g = s.well g
      (stripeCount ≤ w.freeStripes * 50 → exec (.reclaim h) s = .next s) ∧
      (∀ n, w.freeStripes * 50 < stripeCount → w.emptiest = some n → s.defers h.val = false →
        ∃ t, exec (.reclaim h) s = .next t ∧ t.flag .whState h.val 3 = true ∧ only t ∧
          t.well h.val = (w0.vacate h.val n false).getD w) ∧
      (w.eraseMax ≤ w.eraseMin + 300 → exec (.wearLevel h) s = .next s) ∧
      (∀ n, w.eraseMin + 300 < w.eraseMax → w.coldest = some n → s.defers h.val = false →
        ∃ t, exec (.wearLevel h) s = .next t ∧ only t ∧ t.well h.val = (w0.vacate h.val n true).getD w) ∧
      (s.defers h.val = true → exec (.journalWrite h) s = .next s ∧ exec (.checkpointTimer h) s = .next s) ∧
      (s.wellUp = true → s.defers h.val = false → w.unacked = [] →
        (∀ v, w0.journal h.val 0 = some v → ∃ t, exec (.journalWrite h) s = .next t ∧ t.well h.val = v ∧ v.jmap = w.map ∧
          v.map = w.map ∧ v.pend = [] ∧ only t) ∧
        (∀ v, w0.checkpoint h.val = some v → ∃ t, exec (.checkpointTimer h) s = .next t ∧ t.well h.val = v ∧ v.jmap = w.map ∧
          v.map = w.map ∧ v.pend = [] ∧ v.touched = [] ∧ only t)) ∧
      (∀ blk ber offsets n, s.wellUp = true → s.flag .whScrubCfg h.val 0 = true → (w.blk blk).stripe = some n →
        (w.stripe n).pos ≠ 0 → (w.stripe n).gone = false → offsets.length = 7 → ber < s.fld .whScrubCfg h.val 15 8 →
        (w.blk blk).reads + (w.stripe n).pos < 1000 * s.fld .whScrubCfg h.val 31 16 →
        exec (.blockScrub h blk ber offsets) s = .next (s.setWell h.val (w.setBlk blk { w.blk blk with
          offsets := offsets, hot := w.tempOf (blk / 2 ^ 16), reads := (w.blk blk).reads + (w.stripe n).pos,
          rot := ((w.blk blk).rot + 1) % 8 }))) ∧
      (∀ (chan : Fin 16) (die : Fin 8), w.failed.contains (8 * chan.val + die.val) = false →
        ∃ t, exec (.diePollTimeout h chan die) s = .next t ∧ (t.well h.val).failed = w.failed ++ [8 * chan.val + die.val] ∧
          (t.well h.val).rebuilding = setInsert w.rebuilding ((8 * chan.val + die.val) % 8) ∧ (t.well h.val).map = w.map ∧
          (t.well h.val).cells = w.cells ∧ only t) ∧
      (∀ g rest, w.rebuilding = g :: rest → s.defers h.val = false →
        let ns := (w.stripes.filter fun kv => kv.2.group == g && !kv.2.gone &&
          kv.2.blks.any fun cb => (w.dead g).contains cb.1).map (·.1)
        (∀ v, w0.rebuild h.val ns = some v → ∃ t, exec (.dieRebuildEnd h) s = .next t ∧
          t.well h.val = { v with rebuilding := rest } ∧ only t) ∧
        (w0.rebuild h.val ns = none → exec (.dieRebuildEnd h) s = .next (s.readOnly h.val))))

/-- The dies end their work: a decoded read is answered with the codeword's data, one that fails takes the next step of the
ladder or is lost with MEDIA, and at step 3 the codeword is reconstructed; a programmed write leaves the buffer for the map; an
erased stripe block's blocks are free again, each with one more erase (R257 to R261, R263, R264, R271 to R273, R275). -/
def Obligations.WellDiesEndTheirWork : Prop :=
  ∀ (h : Fin 2) (s : State),
    let w := s.well h.val
    (∀ lpn r, w.reads.find? (·.lpn == lpn) = some r →
      let w1 := w.countReads r
      (∀ c, w.cells.get? r.pca = some c → r.step = 0 →
        (∀ n, (w.blk (pcaBid r.pca)).stripe = some n → ∀ b ∈ Well.bidsOf (w.stripe n),
          (w1.blk b).reads < 1000 * s.fld .whScrubCfg h.val 31 16) →
        ∃ t, exec (.nandReadDone h lpn true) s = .next t ∧
          t.well h.val = { w1 with reads := w.reads.erase r, arrived := w.arrived ++ [(lpn, .ok, c.plain h.val w.key)] } ∧
          { t with wells := s.wells } = s) ∧
      (r.step < 2 → w.reads = [r] → ∃ t, exec (.nandReadDone h lpn false) s = .next t ∧
        t.well h.val = { w1 with reads := [nextStep s.free r] } ∧ { t with wells := s.wells, free := s.free } = s) ∧
      (∀ c, r.step = 3 → w.rebuilt h.val r.pca = some c → ∃ t, exec (.nandReadDone h lpn true) s = .next t ∧
        (t.well h.val).arrived = w.arrived ++ [(lpn, .ok, c.plain h.val w.key)] ∧ (t.well h.val).reads = w.reads.erase r ∧
        t.pages = s.pages ∧ t.cis = s.cis) ∧
      (r.step = 3 → w.map.get? lpn = some r.pca → (w.buf.any fun b => b.lpn == lpn) = false →
        ∃ t, exec (.nandReadDone h lpn false) s = .next t ∧ (t.well h.val).arrived = w.arrived ++ [(lpn, .media, [])] ∧
          (t.well h.val).lost = setInsert w.lost lpn ∧ (t.well h.val).reads = w.reads.erase r ∧ t.pages = s.pages ∧
          t.cis = s.cis)) ∧
    (∀ b pca ps, w.buf = [b] → s.defers h.val = false → w.places h.val = pca :: ps → 0 < w.room →
      ∃ t, exec (.nandProgramDone h none) s = .next t ∧ (t.well h.val).buf = [] ∧ (t.well h.val).map.get? b.lpn = some pca ∧
        (t.well h.val).cells.get? pca = some ⟨0, b.lpn, w.seq + 1, w.key, b.data⟩ ∧ t.cis = s.cis ∧ t.pages = s.pages) ∧
    (∀ n rest, w.erasing = n :: rest → (w.reads.any fun r => w.inStripe n r.pca) = false →
      ∃ t, exec (.nandEraseDone h none) s = .next t ∧ t.well h.val = w.erase n ∧ t.pages = s.pages ∧ t.cis = s.cis ∧
        (w.erase n).map = w.map ∧ (∀ kv ∈ (w.erase n).cells, w.inStripe n kv.1 = false) ∧
        ∀ b, (w.blk b).stripe = some n → ((w.erase n).blk b).stripe = none ∧ ((w.erase n).blk b).erases = (w.blk b).erases + 1)

/-- Mounting and the commands of WEL_CMD: the map is as the journal gives it after a marker, a SANITIZE takes a new media key and
empties the maps, and the blocks that held data are erased in their time (R264, R266, R268, R277 to R281, R446). -/
def Obligations.WellMountsAndCommands : Prop :=
  ∀ (s : State), s.cmdJobs = [] →
    let ended := fun (s : State) (code : Code) => ({ s with welRun := none } : State).setReg .welCmdState 0
      (BitVec.ofNat 32 (2 + 4 * code.toNat))
    (s.mountDue = false → ∀ holdup, exec (.wellMount holdup) s = .next s) ∧
    (∀ holdup, s.wellUp = false → s.welMount = none → s.cisReady = true → s.mountDue = true →
      ∃ t, exec (.wellMount holdup) s = .next t ∧ t.holdupOk = holdup ∧ t.mountDue = false ∧ t.cis = s.cis ∧
        t.welMount = some (if (s.well 0).marker ≠ 0 ∧ (s.well 1).marker ≠ 0 then 1 else 2) ∧
        ∀ h, h < 2 → (s.well h).marker ≠ 0 → (t.well h).map = (s.well h).jmap) ∧
    (∀ kind, s.welMount = some kind → s.welRun = none → ∃ t, exec .wellMountDone s = .next t ∧ t.welMount = none ∧
      t.wellUp = true ∧ t.wellShut = false ∧ (∀ h, h < 2 → (t.well h).map = (s.well h).map ∧ (t.well h).marker = 0) ∧
      { t with wells := s.wells, regs := s.regs, welMount := s.welMount } = s) ∧
    (∀ (src : Src) (v : Word), let word := fun (op : Nat) => (BitVec.ofNat 32 (setBits v.toNat 3 0 op) : Word)
      let acc := fun (op : Nat) (c : Instr) (u : State) =>
        Accepted s src .welCmd 0 (word op) (welCheck s (word op)) → exec c s = .next (u.noted src .welCmd 0 (word op))
      let busy := fun (op : Nat) => ({ s with welRun := some op } : State).setReg .welCmdState 0 1
      acc 1 (.checkpoint src v) (busy 1) ∧ acc 2 (.shutdown src v) (busy 2) ∧
      acc 3 (.sanitize src v) ((sanitizeHalf (sanitizeHalf (busy 3) 0) 1).setFlag .welState 0 4 true) ∧
      acc 4 (.mount src v) { busy 4 with mountDue := true }) ∧
    (∀ t : State, let w := t.well 0
      let v := (sanitizeHalf t 0).well 0
      v.key = w.wrapped + 1 ∧ v.wrapped = w.wrapped + 1 ∧ v.map = [] ∧ v.jmap = [] ∧ v.buf = [] ∧ v.lost = [] ∧ v.cells = w.cells ∧
        v.sanit = w.stripes.map (·.1) ∧ ∀ kv ∈ v.stripes, kv.2.gone = true) ∧
    (s.defers 0 = false → s.defers 1 = false →
      (s.welRun = some 2 → exec (.welCmdDone .ok) s = .next (endWelCmd .ok (shutWell s)) ∧ (shutWell s).wellUp = false ∧
        (shutWell s).wellShut = true) ∧
      (s.welRun = some 1 → s.wellUp = true → exec (.welCmdDone .ok) s = .next (endWelCmd .ok
        (writeTables 1 (fun w => w.checkpoint 1) (writeTables 0 (fun w => w.checkpoint 0) s))))) ∧
    (s.defers 0 = true ∨ s.defers 1 = true → s.welRun = some 1 ∨ s.welRun = some 2 → exec (.welCmdDone .ok) s = .next s) ∧
    (∀ code, s.welRun = some 3 ∨ (code ≠ .ok ∧ (s.welRun = some 1 ∨ s.welRun = some 2)) →
      exec (.welCmdDone code) s = .next (ended s code)) ∧
    (s.flag .welState 0 4 = true → (∀ h, h < 2 → ∀ r ∈ (s.well h).reads, ∀ n ∈ (s.well h).sanit, (s.well h).inStripe n r.pca = false) →
      ∃ t, exec .sanitizeEraseDone s = .next t ∧ t.flag .welState 0 4 = false ∧
        (∀ h, h < 2 → t.well h = (s.well h).sanit.foldl Well.erase (s.well h)) ∧ { t with wells := s.wells, regs := s.regs } = s)

/-- Doorbells move a tail or a head, UNBLOCK and RESET act on their queue, tails and the spill head take their value, and the
timer of a queue sends its message; nothing else changes while no composer runs and no record waits (R329, R330, R332, R334,
R345, R347 to R349, R370). -/
def Obligations.QueuesTakeTheirDoorbells : Prop :=
  ∀ (src : Src) (q : Fin 4096) (v : Word) (s : State), (∀ k, k < 16 → s.flag .cmpCtl k 0 = false) → (s.queue q.val).buf = [] →
    let x := s.queue q.val
    let fe := s.setFld .feLast 0 19 8 q.val
    let own := ∀ p fn, src = .host p fn → fn.val = 0 ∨ fn.val = s.ctxFn (s.qCtx q.val)
    (s.arrives src = true → own → s.qEn q.val = true → v.toNat < 2 ^ 16 → v.toNat < s.sqSize q.val →
      (x.sqTail + s.sqSize q.val - x.sqHead) % s.sqSize q.val ≤ (v.toNat + s.sqSize q.val - x.sqHead) % s.sqSize q.val →
      exec (.sqDoorbell src q v) s = .next ((s.setQueue q.val { x with
        sqTail := v.toNat
        fetch := if x.fetch = .idle ∧ v.toNat ≠ x.sqHead then .active else x.fetch }).recordFe q.val .ok)) ∧
    (s.arrives src = true → own → s.qEn q.val = true → v.toNat < 2 ^ 16 → v.toNat < s.cqSize q.val →
      (v.toNat + s.cqSize q.val - x.cqHead) % s.cqSize q.val ≤ (x.cqTail + s.cqSize q.val - x.cqHead) % s.cqSize q.val →
      exec (.cqDoorbell src q v) s = .next ((s.setQueue q.val { x with cqHead := v.toNat }).recordFe q.val .ok)) ∧
    (s.arrives src = true → own → s.qEn q.val = false → v.toNat < 2 ^ 16 → v.toNat < s.sqSize q.val →
      (x.sqTail + s.sqSize q.val - x.sqHead) % s.sqSize q.val ≤ (v.toNat + s.sqSize q.val - x.sqHead) % s.sqSize q.val →
      exec (.sqDoorbell src q v) s = .next (s.recordFe q.val .state)) ∧
    (Accepted s src .feQCtrl q.val 1 (s.qCtrlCheck q.val 1) →
      exec (.unblock src q) s = .next ((fe.setQueue q.val { x with fetch := .active }).noted src .feQCtrl q.val 1)) ∧
    (Accepted s src .feQCtrl q.val 2 (s.qCtrlCheck q.val 2) →
      exec (.queueReset src q) s = .next ((({ fe with fetched := s.fetched.erase q.val } : State).setQueue q.val { x with
        sqHead := 0, sqTail := 0, cqHead := 0, cqTail := 0, phase := true, fetch := .idle }).noted src .feQCtrl q.val 2)) ∧
    (Accepted s src .feSpillHead 0 v (s.spillHeadCheck v) → (∀ q, (s.queue q).fetch ≠ .blocked) →
      exec (.spillHeadWrite src v) s = .next ((s.store .feSpillHead 0 v).noted src .feSpillHead 0 v)) ∧
    (∀ k : Fin 16, Accepted s src .cmpTails k.val v (s.tailsCheck k.val v) →
      exec (.composerTailWrite src k v) s = .next ((s.store .cmpTails k.val v).noted src .cmpTails k.val v)) ∧
    (s.flag .feQIrq q.val 11 = true → s.fld .feQIrq q.val 31 20 ≠ 0 → x.unsig ≠ 0 →
      let port := s.homePort (s.qCtx q.val)
      let vec := s.fld .feQIrq q.val 10 0
      let fn := s.ctxFn (s.qCtx q.val)
      s.portUp port = true → s.appears port fn = true → s.msixMask.contains (State.msixKey port fn vec) = false →
      (∀ h ∈ s.hostSent, h % 2 = port ∨ s.fld .hifCtx (h / 2) 5 0 ≠ fn) →
      exec (.irqTimer q) s = .next ((s.setQueue q.val { x with unsig := 0 }).emit (.msix port fn vec)))

/-- A fetcher reads up to eight consecutive entries; a dispatcher takes the next one as a waiting launch or ends it with a
record; a launch starts and starts again on every core of its span, and ends when its cores have; a batch is emitted when
its time has run out (R333, R341 to R343, R350, R371, R372). -/
def Obligations.EntriesBecomeLaunches : Prop :=
  ∀ (s : State),
    (∀ (q : Fin 4096) (idx n a : Nat) (l : Leaf) (s1 : State), s.serving = true → s.qEn q.val = true →
      (s.queue q.val).fetch = .active → s.published q.val ≠ 0 → s.fetchNext q.val = (idx, n) → n ≠ 0 →
      s.xlateEngine (s.fetcherOf q.val) (s.qCtx q.val) (s.entryVa q.val idx) false = (.ok l, s1) →
      s1.place l (s.entryVa q.val idx) = .cis a → s1.mayTouch (s.qCtx q.val) a (64 * n) = true →
      ∃ t, exec (.entryFetch q) s = .next t ∧ { t with fetched := s1.fetched } = s1 ∧
        t.fetched.getD q.val [] = s1.fetched.getD q.val [] ++ (List.range n).map fun i =>
          ⟨q.val, idx + i, ((s1.cisRead a (64 * n)).1.drop (64 * i)).take 64, s1.cisBad (a + 64 * i) 64⟩) ∧
    (∀ (cl : Fin 144) (q : Nat) (e : Entry) (s1 : State), s.heldBy cl.val < 8 → s.nextLaunchQueue cl.val = some q →
      s.takeEntry q = some (e, s1) →
      exec (.launchEntry cl) s = .next ((({ s1 with turn := s1.turn.set cl.val q } : State).takeLaunch q cl.val e).composeAll) ∧
      (s.queue q).fetch = .active ∧ (s1.queue q).sqHead = (e.idx + 1) % s.sqSize q ∧
      (s1.queue q).running = (s.queue q).running + 1 ∧ s.fetched.getD q [] = e :: s1.fetched.getD q []) ∧
    (∀ (l : Nat) (x : Launch), s.launch l = some x → s.parked x = [] → x.minCores ≤ (s.spanCores x).length →
      (s.spanCores x).Nodup →
      let runs := fun (t : State) => (∃ y, t.launch l = some y ∧ y.phase = .running ∧ y.cores = s.spanCores x ∧
          y.tries = x.tries + 1 ∧ y.seq = s.seq + 1 ∧ y.code = .ok) ∧ t.seq = s.seq + 1 ∧ t.cis = s.cis ∧ t.host = s.host ∧
        (∀ q ∉ s.spanCores x, t.core q = s.core q) ∧
        ∀ i p, (s.spanCores x)[i]? = some p → (t.core p).run = .running ∧ (t.core p).launch = some l ∧
          (t.core p).ctx = x.ctx ∧ (t.core p).pc = BitVec.ofNat 57 (x.image + 256 + x.entry) ∧
          (t.core p).getS 1 = BitVec.ofNat 64 i ∧ (t.core p).getS 2 = BitVec.ofNat 64 (s.spanCores x).length ∧
          (t.core p).getS 3 = BitVec.ofNat 64 x.ctx ∧ (t.core p).jobs = [] ∧ (t.core p).retired = 0
      (x.phase = .waiting → s.mayStart l x = true → ∃ t, exec (.launchStart l) s = .next t ∧ runs t) ∧
      (x.phase = .restart → x.first + x.clusters ≤ 144 → s.serving = true → (∀ n ∈ s.spanOf x, ∀ m, s.clLaunch n = some m → m = l) → x.cores = s.spanCores x →
        ∃ t, exec (.launchRestart l) s = .next t ∧ runs t)) ∧
    (∀ (l : Nat) (x : Launch), s.launch l = some x → s.launchOver l x = true → x.code = .ok →
      let u := (x.cores.foldl (State.freeCore l false) (s.postTasks x)).takeClasses
      exec (.launchEnd l) s = .next ((({ u with launches := u.launches.erase l } : State).post x.queue (u.endRec x .ok)).composeAll)) ∧
    (∀ (k : Fin 16) (buf : Nat) (items : List Item) (s1 t : State), s.flag .cmpCtl k.val 0 = true →
      (s.chunksOf k.val).length + (s.stepsOf k.val).length ≠ 0 → s.freeBuf k.val = some buf →
      s.batchOf k.val = some (items, s1) → s1.emitBatch k.val buf items = some t → t.closeBatch k.val false = none →
      exec (.batchWaitExpire k) s = .next t ∧ ∃ b, (t.batches.getD k.val []).getLast? = some b ∧ b.buf = buf)

/-- QWT takes a held entry into the scratchpad and returns its handle, or waits for one; QPT and every release wait for the
accesses before them, and then post their record or write (R296, R352 to R354). -/
def Obligations.TasksAreTakenAndPosted : Prop :=
  ∀ (c : CoreId) (w : IWord) (s : State),
    let s1 := s.afterFetch c.val none
    let k := s1.core c.val
    let q := (k.getS w.src1).toNat
    let off := (k.getS w.src2).toNat
    (Issues s c.val w none (.p 7 :: sRegs [w.dst, w.src1, w.src2]) → bitsOf w.imm.toNat 15 0 = 0 → s1.qwtCode c.val q off = .ok →
      (∀ e s2, s1.qwtWaiters q = [] → s1.takeEntry q = some (e, s2) → e.poison = false →
        ∃ t, exec (.qwt c w) s = .next t ∧ t.cis = s1.cis ∧
          t.core c.val = (({ k.setS w.dst (State.taskHandle q e) with cst := 0 } : Core).setP 7 true).goOn (k.pc + 8) ∧
          (t.queue q).sqHead = (e.idx + 1) % s1.sqSize q ∧ t.pad c.val = (s1.pad c.val).writeL off e.bytes ∧
          ∀ l x, s1.launchOf c.val = some (l, x) → ∃ y, t.launch l = some y ∧
            y.tasks = x.tasks ++ [(q, e.idx, fieldAt e.bytes 0 4, (e.idx + 1) % s1.sqSize q)]) ∧
      (s1.qwtWaiters q ≠ [] → s1.askedWay c.val = false →
        ∃ t, exec (.qwt c w) s = .next t ∧ { t with nextWatch := s1.nextWatch, cores := s1.cores } = s1 ∧
          t.core c.val = { k with run := .waiting, wait := some (.qwt q off (bitsOf w.imm.toNat 31 16) w.dst.toNat s1.nextWatch) })) ∧
    (∀ (h n idx tag head status : Nat) (code : Code), Issues s c.val w none (sRegs [w.src1, w.src2]) → w.dst = 0 → w.imm.toNat < 2 →
      (k.getS w.src1).toNat = h → (k.getS w.src2).toNat % 256 = status → Code.ofByte status = some code →
      (s1.taskOf c.val h = some (n, idx, tag, head) → s1.releaseReady c.val = true →
        exec (.qpt c w) s = .next ((s1.postTask c.val n idx status ((k.getS w.src2).toNat / 2 ^ 32) (w.imm.getLsbD 0)).retire
          c.val (k.pc + 8))) ∧
      (s1.taskOf c.val h = none → exec (.qpt c w) s = .next (s1.faultCore c.val 9 1 k.pc .state))) ∧
    (s.releaseReady c.val = false → exec (.releasePerform c) s = .next s) ∧
    (∀ q idx status info irq, s.releaseReady c.val = true →
      (s.core c.val).wait = some (.release (.qpt q idx status info irq)) →
      exec (.releasePerform c) s = .next ((s.postTask c.val q idx status info irq).endWait c.val)) ∧
    (∀ va v t, s.releaseReady c.val = true → (s.core c.val).wait = some (.release (.sig va v)) →
      signalBody c.val va false v s = .ok t → exec (.releasePerform c) s = .next (t.endWait c.val)) ∧
    (∀ va v t, s.releaseReady c.val = true → (s.core c.val).wait = some (.release (.rel va v)) →
      signalBody c.val va true v s = .ok t → exec (.releasePerform c) s = .next (t.endWait c.val)) ∧
    (∀ (q : Fin 4096) p off imm dst order e s2, State.firstWaiter (s.qwtWaiters q.val) = some p →
      (s.core p).wait = some (.qwt q.val off imm dst order) → s.takeEntry q.val = some (e, s2) → e.poison = false →
      ∃ t, exec (.qwtWake q) s = .next t ∧ t.pad p = (s.pad p).writeL off e.bytes ∧
        (t.core p).getS (BitVec.ofNat 6 dst) = (if dst % 64 = 0 then 0 else State.taskHandle q.val e) ∧
        (t.core p).wait = none ∧ (t.core p).pc = (s.core p).pc + 8 ∧ (t.core p).run = .running ∧
        (t.queue q.val).sqHead = (e.idx + 1) % s.sqSize q.val ∧ ∀ c, c ≠ p → t.core c = s.core c)

/-- A cluster takes a class, or, while no save area is set and a launch runs on it, is to take it when the launch ends (R355, R365). -/
def ClassGiven (s t : State) (n cls : Nat) : Prop :=
  if s.saveOn = true ∨ s.clLaunch n = none then t.fld .schCl n 2 0 = cls ∧ t.reassign.get? n = none
  else t.reg .schCl n = s.reg .schCl n ∧ t.reassign.get? n = some cls

/-- SWITCH, GO and STOP, the starts and windows of entries, and the ends of frames: an entry gives its class to the clusters that
it names and to no other, a frame's end begins the next one, takes a pending switch, or stops with every cluster given its default
class (R355 to R358, R365). -/
def Obligations.CycleTableAssignsClasses : Prop :=
  ∀ (src : Src) (e : Fin 512) (s : State),
    let bs := s.cycleEntry s.schBankNo e.val
    (Accepted s src .schCmd 0 1 (s.schCheck 1) →
      (s.schRunning = true → exec (.schSwitch src) s = .next ((s.setFlag .schState 0 2 true).noted src .schCmd 0 1)) ∧
      (s.schRunning = false → exec (.schSwitch src) s = .next (s.exchange.allDefault.noted src .schCmd 0 1))) ∧
    (Accepted s src .schCmd 0 2 (s.schCheck 2) → exec (.schGo src) s =
      .next (((s.setReg .schPos 0 0).setFlag .schState 0 0 true).beginFrame.defaultUnnamed.noted src .schCmd 0 2)) ∧
    (Accepted s src .schCmd 0 4 (s.schCheck 4) → exec (.schStop src) s =
      .next (({ s with schStop := true } : State).noted src .schCmd 0 4)) ∧
    (s.schRunning = true → s.schNext = e.val → e.val < s.bankN s.schBankNo →
      ∃ t, exec (.cycleEntryStart e) s = .next t ∧ t.schNext = e.val + 1 ∧ t.wayWin = s.wayWin.filter (fun x => x.1 != e.val) ∧
        (∀ n ∈ s.namedBy bs, ClassGiven s t n (fieldAt bs 20 1 % 8)) ∧
        (∀ n ∉ s.namedBy bs, t.reg .schCl n = s.reg .schCl n) ∧ t.cis = s.cis ∧ t.pads = s.pads) ∧
    (s.schRunning = true → e.val < s.bankN s.schBankNo → fieldAt bs 21 1 ≠ 0 →
      ∃ t, exec (.makeWayWindow e) s = .next t ∧
        t.wayWin = (s.wayWin.filter fun x => x.1 != e.val) ++
          ((s.namedBy bs).filter fun n => s.fld .schCl n 2 0 != fieldAt bs 20 1 % 8).map (fun n => (e.val, n)) ∧
        { t with wayWin := s.wayWin, launches := s.launches, cores := s.cores } = s) ∧
    (s.schRunning = true → s.bankN s.schBankNo ≤ s.schNext →
      (s.schPending = false → s.schStop = false → ∃ t, exec .frameEnd s = .next t ∧ t.schNext = 0 ∧ t.frameTick = s.ticks ∧
        t.fld .schPos 0 31 14 = (s.fld .schPos 0 31 14 + 1) % 2 ^ 18 ∧ t.schBankNo = s.schBankNo ∧
        (∀ n, n < 144 → (∀ e, e < min (s.bankN s.schBankNo) 512 → n ∉ s.namedBy (s.cycleEntry s.schBankNo e)) →
          ClassGiven s t n (s.bankDef s.schBankNo)) ∧
        (∀ e n, e < min (s.bankN s.schBankNo) 512 → n ∈ s.namedBy (s.cycleEntry s.schBankNo e) → t.reg .schCl n = s.reg .schCl n) ∧
        { t with regs := s.regs, schNext := s.schNext, frameTick := s.frameTick, reassign := s.reassign } = s) ∧
      (s.schPending = true → s.schStop = false → ∃ t, exec .frameEnd s = .next t ∧ t.schNext = 0 ∧ t.schPending = false ∧
        t.schBankNo = 1 - s.schBankNo ∧ t.wayWin = []) ∧
      (s.schPending = false → s.schStop = true → ∃ t, exec .frameEnd s = .next t ∧ t.schRunning = false ∧ t.schStop = false ∧
        t.wayWin = [] ∧ ∀ n, n < 144 → ClassGiven s t n (s.bankDef s.schBankNo))) ∧
    (∀ cl : Fin 144, s.schRunning = true → e.val < s.bankN s.schBankNo → (s.namedBy bs).contains cl.val = true →
      s.inRun cl.val = false → s.flag .kpcClst cl.val 2 = false →
      exec (.prewake e cl) s = .next { s.setFlag .kpcClst cl.val 2 true with moving := s.moving.set cl.val 0 })

/-- A cluster parks in the state of its class when nothing runs on it or waits for it, and a trigger wakes it; DEEP loses what its
cores hold, and the registers of its cores stay (R359, R441 to R443). -/
def Obligations.ClustersParkAndWake : Prop :=
  ∀ (cl : Fin 144) (s : State),
    let n := cl.val
    let moves := fun (target : Nat) => ({ s.setFlag .kpcClst n 2 true with moving := s.moving.set n target } : State)
    (s.inRun n = true → s.clusterBusy n = false →
      (s.parkState n = 1 → ∃ t, exec (.clusterPark cl) s = .next t ∧ t.fld .kpcClst n 1 0 = 1 ∧ t.inRun n = false ∧
        t.moving = s.moving.erase n ∧ { t with regs := s.regs, moving := s.moving } = s) ∧
      (2 ≤ s.parkState n → exec (.clusterPark cl) s = .next (moves (s.parkState n)))) ∧
    (∀ target, s.moving.get? n = some (target + 1) → target < 3 → s.wakeWait.contains n = false →
      ∃ t, exec (.clusterParkDone cl) s = .next t ∧ t.fld .kpcClst n 1 0 = target + 1 ∧ t.flag .kpcClst n 2 = false ∧
        t.moving = s.moving.erase n ∧ { t with regs := s.regs, moving := s.moving, cores := s.cores } = s ∧
        (target + 1 ≠ 3 → t.cores = s.cores) ∧
        (target + 1 = 3 → ∀ c, c < 16 → let k := s.core (s.physCore n c)
          t.core (s.physCore n c) = { k with dcache := [], icache := [], tlb := [], arrs := [], arrds := [], jobs := [] })) ∧
    (s.power = .on → s.fld .glbClmap n 9 8 ≠ 3 →
      (s.inRun n = true → exec (.clusterWake cl) s = .next s) ∧
      (s.inRun n = false → s.flag .kpcClst n 2 = false → exec (.clusterWake cl) s = .next (moves 0)) ∧
      (∀ m, s.flag .kpcClst n 2 = true → s.moving.get? n = some (m + 1) →
        exec (.clusterWake cl) s = .next { s with wakeWait := setInsert s.wakeWait n })) ∧
    (s.moving.get? n = some 0 → ∃ t, exec (.clusterWakeDone cl) s = .next t ∧ t.inRun n = true ∧
      t.fld .kpcClst n 31 16 = satAdd 0xFFFF (s.fld .kpcClst n 31 16) 1 ∧ t.moving = s.moving.erase n ∧
      { t with regs := s.regs, moving := s.moving } = s)

/-- Launches make way: a reservation, a quantum and YLD GIVE ask for it, a launch whose cores have stopped is suspended with its
cores free, resumes on them where it stopped, and one that does not stop in time ends ABORTED (R361 to R368). -/
def Obligations.LaunchesMakeWayAndResume : Prop :=
  ∀ (s : State),
    (∀ (l : Nat) (x : Launch), s.launch l = some x →
      (x.phase = .waiting → s.fld .schPolicy x.cls 31 16 ≠ 0 →
        exec (.ageReserve l) s = .next (s.setLaunch l { x with reserved := true })) ∧
      (x.phase = .running → s.fld .schTimes x.cls 15 0 ≠ 0 → s.wanted l x = true → s.saveOn = true →
        ∃ t y, exec (.quantumExpire l) s = .next t ∧ t.launch l = some y ∧ y.asked = true ∧ y.phase = .running ∧
          { t with launches := s.launches, cores := s.cores } = s) ∧
      (x.phase = .running → x.asked = true → (∀ p ∈ x.cores, s.coreSaved p = true) →
        (∃ p ∈ x.cores, (s.core p).ended = false) →
        ∃ t y, exec (.launchSuspend l) s = .next t ∧ t.launch l = some y ∧ y.phase = .suspended ∧ y.asked = false ∧
          y.since = s.ticks ∧ y.cores = x.cores ∧ (∀ p ∉ x.cores, t.core p = s.core p) ∧ t.host = s.host ∧ t.pads = s.pads ∧
          ∀ p ∈ x.cores, (t.core p).run = .idle ∧ (t.core p).launch = none ∧ (t.core p).jobs = []) ∧
      (x.phase = .suspended → s.mayStart l x = true → (∀ p ∈ x.cores, p ∈ s.spanCores x) → s.parked x = [] → x.halts = [] →
        (∀ a n, s.poolCtx a = some n → n < 64) →
        ∃ t y, exec (.launchResume l) s = .next t ∧ t.launch l = some y ∧ y.phase = .running ∧ y.cores = x.cores ∧
          y.code = x.code ∧ (∀ p ∉ x.cores, t.core p = s.core p) ∧ t.cis = s.cis ∧ t.host = s.host ∧
          ∀ p ∈ x.cores, let h := (s.cisRead (s.saveSlot x.cls p) 4096).1
            (t.core p).launch = some l ∧ (t.core p).ctx = x.ctx ∧ (t.core p).jobs = [] ∧
            (t.core p).pc = BitVec.ofNat 57 (State.slotWord h 0x600) ∧
            (t.core p).run = if fieldAt h 0x611 1 = 6 then .idle else .running) ∧
      (x.phase = .running → x.asked = true → exec (.makeWayTimeout l) s =
        .next ((s.setFld .schState 0 31 16 (satAdd 0xFFFF (s.fld .schState 0 31 16) 1)).endLaunch l .aborted none))) ∧
    (∀ (c : CoreId) (w : IWord), Issues s c.val { w with yld := true } none [] → w.dst = 0 → w.src1 = 0 → w.src2 = 0 →
      bitsOf w.imm.toNat 31 10 = 0 → bitsOf w.imm.toNat 8 0 ≤ 256 →
      let s1 := s.afterFetch c.val none
      let k := s1.core c.val
      (w.imm.getLsbD 9 = false ∨ (∀ l x, s1.launchOf c.val = some (l, x) → s1.wanted l x = false) →
        Completes (.yld c w) s c.val none { k with keep := bitsOf w.imm.toNat 8 0 } (k.pc + 8)) ∧
      (∀ l x, w.imm.getLsbD 9 = true → s1.launchOf c.val = some (l, x) → s1.wanted l x = true → x.phase = .running →
        s1.saveOn = true →
        ∃ t y, exec (.yld c w) s = .next t ∧ t.launch l = some y ∧ y.asked = true ∧ (t.core c.val).stop = some .yieldPoint ∧
          (t.core c.val).keep = bitsOf w.imm.toNat 8 0 ∧ (t.core c.val).pc = k.pc + 8 ∧ t.cis = s1.cis))

/-- No earlier host write of the contexts of a function went by the other port (R284). -/
def NoneByTheOther (s : State) (port fn : Nat) : Prop := ∀ h ∈ s.hostSent, h % 2 = port ∨ s.fld .hifCtx (h / 2) 5 0 ≠ fn

/-- BAR2 reads and writes working memory for the functions that may, the registered regions take the writes that they admit and
count their bytes, and BAR4 answers no read; function resets, ports, snoops and vectors act as the spec says (R347, R374, R375,
R378 to R384, R429). -/
def Obligations.HostAccessesReachTheModule : Prop :=
  ∀ (port : Fin 2) (fn : Fin 64) (s : State),
    (s.cis.wf = true → s.portUp port.val = true → s.appears port.val fn.val = true → ∀ (a : BitVec 41) (bs : List Byte) (n : Nat),
      (s.bar2Code fn.val a.toNat bs.length true = .ok → ∃ t, exec (.hostBar2Write port fn a bs) s = .next t ∧
        s.Stored t a.toNat bs ∧ { t with cis := s.cis, cisKey := s.cisKey, cisPoison := s.cisPoison } = s) ∧
      (fn.val ≠ 0 → s.fnWindow fn.val a.toNat bs.length = false →
        exec (.hostBar2Write port fn a bs) s = .next (s.recordLast (.hifLast, 0) .protection)) ∧
      (s.bar2Code fn.val a.toNat n false = .ok → exec (.hostBar2Read port fn a n) s =
        .next (s.emit (.readData (s.cisBytes a.toNat n 0) (s.cisBad a.toNat n)))) ∧
      (fn.val = 0 → s.workSize < a.toNat + n → exec (.hostBar2Read port fn a n) s =
        .next (((s.bump .bar2Oor 0 1).recordLast (.hifLast, 0) .range).emit .unsupported))) ∧
    (s.cis.wf = true → s.portUp port.val = true → ∀ (rid : BitVec 16) (a : BitVec 38) (bs : List Byte) (poison : Bool) (n : Nat),
      let r := a.toNat / 2 ^ 30
      let off := a.toNat % 2 ^ 30
      (off < s.fld .rgnSize r 18 0 * 4096 → s.admits r rid off bs.length = true →
        ∃ t, exec (.regionWrite port rid a bs poison) s = .next t ∧ s.Stored t ((s.reg .rgnBase r).toNat * 4096 + off) bs ∧
          t.reg64 .rgnCntLo .rgnCntHi r = (s.reg64 .rgnCntLo .rgnCntHi r + bs.length) % 2 ^ 64 ∧
          { t with cis := s.cis, cisKey := s.cisKey, cisPoison := s.cisPoison, regs := s.regs } = s) ∧
      (off < s.fld .rgnSize r 18 0 * 4096 → s.admits r rid off bs.length = false →
        exec (.regionWrite port rid a bs poison) s = .next (s.bump .rgnDrop r 1)) ∧
      exec (.bar4Read port a n) s = .next (s.emit .unsupported)) ∧
    (∀ (src : Src) (r : Fin 256), Accepted s src .rgnCtrl r.val 1 .ok → exec (.regionClr src r) s =
      .next ((s.setReg64 .rgnCntLo .rgnCntHi r.val 0).noted src .rgnCtrl r.val 1)) ∧
    (s.portUp port.val = true → s.appears port.val fn.val = true → fn.val ≠ 0 →
      let mine := fun ctx => s.ctxFn ctx == fn.val
      let s1 := ((s.usedQueues.filter fun q => mine (s.qCtx q)).foldl State.resetFnQueue s).abortCopies mine
      let s2 := (s1.launches.filter fun kv => mine kv.2.ctx).foldl (fun s kv => s.abortLaunch false kv) s1
      exec (.vfFlr port fn) s = .next (((List.range 256).filter fun r => mine (s2.fld .rgnCfg r 6 1)).foldl
        (fun s r => s.setFlag .rgnCfg r 0 false) s2).composeAll) ∧
    (s.portUp port.val = true → s.warm = none → s.power = .on → exec (.pfFlr port) s = .next { s.selfRefresh with warm := some 3 }) ∧
    (∀ (h : BitVec 64) (bs : List Byte),
      (s.hlc.contains (h.toNat / 64) = true → exec (.hostSnoop h none) s =
        .next (({ s with hlc := setErase s.hlc (h.toNat / 64) } : State).bump .hlcSnoop 0 1)) ∧
      (s.hlc.contains (h.toNat / 64) = false → exec (.hostSnoop h (some bs)) s =
        .next { s with host := s.host.writeL (64 * (h.toNat / 64)) (bs.take 64) })) ∧
    (∀ (rate : Fin 6) (width : Fin 17) (cxl : Bool) (vfs : BitVec 64), s.power = .on → s.perst.contains port.val = false →
      s.portUp port.val = false → ∃ t, exec (.hostLinkUp port rate width ⟨cxl, vfs⟩) s = .next t ∧ t.portUp port.val = true ∧
        t.cis = s.cis ∧ t.cores = s.cores ∧
        t.fld .hifState 0 (16 * port.val + 3) (16 * port.val + 1) = rate.val ∧
        t.fld .hifState 0 (16 * port.val + 8) (16 * port.val + 4) = width.val ∧
        (∀ f, f < 64 → t.appears port.val f = (f == 0 || vfs.getLsbD f)) ∧
        (s.portUp (1 - port.val) = false → (∀ w ∈ s.hostWaits, w.port = port.val →
            w.follows = false ∧ (s.ctxFn w.ctx = 0 ∨ vfs.getLsbD (s.ctxFn w.ctx) = true)) →
          t.hostWaits = s.hostWaits.filter fun w => w.port != port.val)) ∧
    (∃ t, exec (.hostLinkDown port) s = .next t ∧ t.portUp port.val = false ∧
      t.portUp (1 - port.val) = s.portUp (1 - port.val) ∧ (∀ f, t.appears port.val f = (f == 0)) ∧
      (∀ h ∈ t.held, ∀ f, h.src ≠ .host port f) ∧ { t with regs := s.regs, vfs := s.vfs, held := s.held } = s) ∧
    (∀ (w : HostWait) (c : Nat), s.hostWaits.find? (fun w => w.port == port.val) = some w →
      w.owner = .store c → exec (.hostPortWaitTimeout port none) s =
        .next (({ s with hostWaits := s.hostWaits.erase w } : State).endLaunchOf c .timeout)) ∧
    (∀ (q : Fin 4096) l s1 h, let va := s.entryVa q.val (s.fetchNext q.val).1
      s.hostOpen (s.qCtx q.val) = false → s.qEn q.val = true → (s.queue q.val).fetch = .active → (s.fetchNext q.val).2 ≠ 0 →
      s.xlateEngine (s.fetcherOf q.val) (s.qCtx q.val) va false = (.ok l, s1) → s1.place l va = .host h →
      ∃ t, exec (.hostPortWaitTimeout port (some q)) s = .next t ∧ (t.queue q.val).fetch = .stalled ∧ t.fetched.get? q.val = none ∧
        ∃ e, t.sump.get? ((s.reg .sumpTail 0).toNat % 4096) = some e ∧ e.kind = 0x0A ∧ e.status = .timeout ∧
          e.loc = s.addr .feQSqHi q.val ∧ e.detail = q.val) ∧
    (∀ vec : Fin 2048, let k := State.msixKey port.val fn.val vec.val
      s.portUp port.val = true → s.appears port.val fn.val = true → NoneByTheOther s port.val fn.val →
      (s.msixPend.contains k = true → exec (.msixUnmask port fn vec) s =
        .next (({ s with msixMask := setErase s.msixMask k, msixPend := setErase s.msixPend k } : State).emit
          (.msix port.val fn.val vec.val))) ∧
      (s.msixPend.contains k = false → exec (.msixUnmask port fn vec) s =
        .next { s with msixMask := setErase s.msixMask k }))

/-- A copy engine takes well-formed entries as jobs and ends others with a record; a job moves its pieces
between the host and working memory, and one that is done leaves its record (R386, R387). -/
def Obligations.CopyEnginesMoveTheirJobs : Prop :=
  ∀ (s : State),
    (∀ (e : Fin 16) (q : Nat) (x : Entry) (s1 : State), (s.copiesOf e.val).length < 8 → s.nextCopyQueue e.val = some q →
      s.takeEntry q = some (x, s1) →
      let s2 : State := { s1 with turn := s1.turn.set (144 + e.val) q }
      (State.copyCode x = .ok → exec (.copyEntry e) s = .next { s2 with
        copies := s1.copies.set s1.nextCopy (State.newCopy q e.val (s1.queue q).sqHead x.bytes), nextCopy := s1.nextCopy + 1 }) ∧
      (State.copyCode x ≠ .ok → exec (.copyEntry e) s = .next (s2.post q (State.plainRec q (fieldAt x.bytes 4 4)
        (s1.queue q).sqHead (State.copyCode x) (fieldAt x.bytes 1 1 % 2 == 1))))) ∧
    (∀ (j : Nat) (x : CopyJob), s.copyJob j = some x →
      (∀ i quota, x.prog = .queued → s.copySlot x.engine = some i → x.order = false →
        exec (.copyJobStart ⟨j, quota⟩) s =
          .next ((s.setCopy j { x with slot := some i, prog := .running, quota := quota }).copyGo j)) ∧
      (∀ (src dst n : Nat) (sl dl : Leaf) (h a : Nat), x.prog = .running → x.done < x.len * x.rows →
        State.copyPiece x = (src, dst, n) → s.inReset 4 x.engine = false → s.ctxOn (s.qCtx x.queue) = true →
        s.heldLeaf (s.qCtx x.queue) src false x.srcT = some sl → s.heldLeaf (s.qCtx x.queue) dst true x.dstT = some dl →
        s.mayTouch (s.qCtx x.queue) a n = true →
        let moved : CopyJob := { x with prog := if x.len * x.rows ≤ x.done + n then .issued else .running
                                        done := x.done + n, quota := some 0 }
        (x.engine % 8 < 4 → s.place sl src = .host h → s.place dl dst = .cis a → s.leaves (x.engine / 8) (s.qCtx x.queue) = true →
          exec (.copyJobStart ⟨j, some 1⟩) s = .next ((s.cisWrite a (s.host.readN h n)).setCopy j moved)) ∧
        (4 ≤ x.engine % 8 → s.place sl src = .cis a → s.place dl dst = .host h → s.egressOk (s.qCtx x.queue) 0 h n = true →
          s.cisBad a n = false →
          ∃ t, exec (.copyJobStart ⟨j, some 1⟩) s = .next t ∧ t.copyJob j = some moved ∧ t.cis = s.cis ∧ t.cores = s.cores ∧
            (s.hostWaits = [] → s.leaves (x.engine / 8) (s.qCtx x.queue) = true →
              t.host = s.host.writeL h (s.cisRead a n).1 ∧ t.hostWaits = []))) ∧
      (x.prog = .issued → s.hostWaits = [] → exec (.copyJobEnd j) s =
        .next ((({ s with copies := s.copies.erase j } : State).post x.queue
          { State.plainRec x.queue x.tag x.sqHead x.code x.irqNow with info := x.info }).composeAll)))

/-- The walks of streams that hold a walker end with a translation or a fault, fault records go to their ring and are completed, and the streams that wait go on
or end (R307 to R318, R387, R494). -/
def Obligations.WalksAndFaultRecordsEnd : Prop :=
  ∀ (s : State),
    (∀ (c : CoreId) (x : Stall), (s.core c.val).stall = some x →
      let k := s.core c.val
      let u := s.freeWalker (.core c.val)
      (x.ready = true → k.stop = none → exec (.coreHaltReexecute c) s = .next (reissue s c.val x)) ∧
      (x.record = none → s.holdsWalker (.core c.val) = true → s.ctxOn k.ctx = true → x.epoch = s.epoch k.ctx →
        (∀ l s1, u.walk (.core c.val) k.ctx x.va x.write = (.leaf l, s1) →
          exec (.translationWalkDone (.core c)) s = .next (reissue (s1.tlbInstall c.val k.ctx x.va l) c.val x)) ∧
        (∀ f s1, u.walk (.core c.val) k.ctx x.va x.write = (.fault f, s1) → s.ctxHalt k.ctx = false →
          exec (.translationWalkDone (.core c)) s = .next (s1.faultCore c.val x.cls x.func k.pc .notMapped)) ∧
        (∀ f s1, u.walk (.core c.val) k.ctx x.va x.write = (.fault f, s1) → s.ctxHalt k.ctx = true → k.launch = none →
          s.recOf k.ctx (x.va / 2 ^ 28) = none → s.recs.length < 4096 →
          let id := State.lowestFree s.recs 0
          ∃ t, exec (.translationWalkDone (.core c)) s = .next t ∧ t.ringWait = s.ringWait ++ [id] ∧
            t.recs.get? id = some ⟨k.ctx, x.va / 2 ^ 28, [.core c.val], x.va, x.write, f, s.epoch k.ctx, .core c.val⟩ ∧
            (t.core c.val).stall = some { x with record := some id, ready := false, since := s.ticks } ∧
            t.cis = s.cis ∧ t.pads = s.pads ∧ ∀ p, p ≠ c.val → t.core p = s.core p)) ∧
      (s.holdsWalker (.core c.val) = false → exec (.translationWalkDone (.core c)) s = .next s) ∧
      (x.record ≠ none → x.ready = false → exec (.dmaHaltTimeout (.core c)) s =
        .next (s.faultCore c.val x.cls x.func k.pc .timeout))) ∧
    (∀ (c : CoreId) (slot : Fin 16) (j : Job) va epoch, slotJob s c.val slot.val = some j → j.prog = .walking va epoch →
      s.holdsWalker (.dma c.val slot.val) = true → s.ctxOn (s.core c.val).ctx = true → epoch = s.epoch (s.core c.val).ctx →
      exec (.translationWalkDone (.dma c slot)) s = .next (dmaWalked (s.freeWalker (.dma c.val slot.val)) c.val j va)) ∧
    (∀ (e : Fin 16) j x va epoch l s1, s.copyWalking e.val = some (j, x, va, epoch) →
      s.holdsWalker (.copy e.val) = true → s.ctxOn (s.qCtx x.queue) = true →
      epoch = s.epoch (s.qCtx x.queue) → (s.freeWalker (.copy e.val)).walk (.copy e.val) (s.qCtx x.queue) va x.write = (.leaf l, s1) → x.engine = e.val →
      exec (.translationWalkDone (.copy e)) s = .next ((s1.setCopy j (
        let t := some ⟨s.qCtx x.queue, va / l.size * l.size, epoch, l⟩
        if x.write then { x with dstT := t, prog := .running } else { x with srcT := t, prog := .running })).copyGo j)) ∧
    (∀ id rest r, s.cis.wf = true → s.ringWait = id :: rest → s.fringFull = false → s.recs.get? id = some r →
      ∃ t, exec .faultRingWrite s = .next t ∧ t.ringWait = rest ∧
        s.Stored t (s.addr .fringHi 0 + 32 * s.fld .fringTail 0 11 0) (r.bytes id s.ringPhase) ∧
        t.reg .fringTail 0 = BitVec.ofNat 32 ((s.fld .fringTail 0 11 0 + 1) % s.fringSize) ∧ t.recs = s.recs) ∧
    (∀ (src : Src) (v : Word),
      (Accepted s src .fringHead 0 v (s.fringHeadCheck v) →
        exec (.fringHeadWrite src v) s = .next ((s.store .fringHead 0 v).noted src .fringHead 0 v)) ∧
      (∀ r code, Accepted s src .xltFcmp 0 v (s.fcmpCheck v) → s.recs.get? (v.toNat % 4096) = some r →
        Code.ofByte (v.toNat / 4096 % 256) = some code →
        exec (.xltFcmp src v) s = .next ((s.completeRec (v.toNat % 4096) r code).noted src .xltFcmp 0 v)))

/-- No core of a context waits in a WAT. -/
def NoWatOf (s : State) (n : Nat) : Prop :=
  ∀ p va a thr consume dci dst tmo order, (s.core p).wait = some (.wat va a thr consume dci dst tmo order) → (s.core p).ctx ≠ n

/-- An invalidation raises the epoch and discards the translations of its range at once, is done when nothing of an older epoch
is in flight, and ends after its time otherwise; a WAT that waits translates its address again; a context's EN discards all
of its translations; host translations are kept as granted and dropped on the host's word (R309, R320 to R322, R325). -/
def Obligations.InvalidationsDiscardTranslations : Prop :=
  ∀ (s : State),
    (∀ (src : Src) (v : Word), Accepted s src .xltInv 0 v (s.invCheck v) → v.getLsbD 7 = true → v.getLsbD 6 = true →
      NoWatOf s (v.toNat % 64) → ∃ t, exec (.xltInv src v) s = .next t ∧ t.epoch (v.toNat % 64) = (s.epoch (v.toNat % 64) + 1) % 2 ^ 32 ∧
        t.inval = some ⟨v.toNat % 64, none, false⟩ ∧ t.reg .xltInvState 0 = 1 ∧ t.cis = s.cis ∧ t.host = s.host ∧
        (∀ p e, e ∈ (t.core p).tlb → e.ctx ≠ v.toNat % 64) ∧ ∀ d e, e ∈ t.wcache.getD d [] → e.ctx ≠ v.toNat % 64) ∧
    (∀ i, s.inval = some i → i.ats = false →
      (s.drained i = true → exec .invalidationDone s = .next (({ s with inval := none } : State).setReg .xltInvState 0 2)) ∧
      (s.drained i = false → exec .invalidationDone s = .next s ∧
        ∃ t, exec .invalidationDrainTimeout s = .next t ∧ t.inval = none ∧
          (t.reg .xltInvState 0).toNat % 1024 = 2 + 4 * Code.timeout.toNat)) ∧
    (∀ (src : Src) (n : Fin 64) (v : Word), Accepted s src .ctxCfg n.val v (s.ctxCfgCheck n.val v) →
      (s.ctxOn n.val = true → v.getLsbD 0 = false → exec (.ctxEnableWrite src n v) s =
        .next (((s.store .ctxCfg n.val v).discard n.val none).noted src .ctxCfg n.val v)) ∧
      (s.ctxOn n.val = false → v.getLsbD 0 = true → exec (.ctxEnableWrite src n v) s =
        .next ((((s.store .ctxCfg n.val v).discard n.val none).setReg .ctxEpoch n.val 0).noted src .ctxCfg n.val v))) ∧
    (∀ (n : Fin 64) (lo : DWord) (pages : Nat),
      (s.inval = none → s.ctxOn n.val = true → NoWatOf s n.val → ∃ t, exec (.atsInvalidation n lo pages) s = .next t ∧
        t.inval = some ⟨n.val, some (lo.toNat, pages * 4096), true⟩ ∧ t.epoch n.val = (s.epoch n.val + 1) % 2 ^ 32 ∧
        (∀ d e, e ∈ t.ats.getD d [] → e.ctx ≠ n.val) ∧ t.cis = s.cis) ∧
      (s.inval = none → s.ctxOn n.val = false → exec (.atsInvalidation n lo pages) s = .next (s.emit (.atsDone n.val)))) ∧
    (∀ (die : Fin 2) (n : Fin 64) (st : StreamId) (va : BitVec 57) (hpa : BitVec 52) l h s1, s.ctxOn n.val = true →
      s.flag .ctxCfg n.val 2 = true → s.walk (streamOf st) n.val va.toNat false = (.leaf l, s1) → s1.place l va.toNat = .host h →
      exec (.atsTranslationResponse die n st va (some hpa)) s = .next { s1 with
        ats := s1.ats.set die.val ((⟨n.val, s1.epoch n.val, h / 4096, hpa.toNat⟩ :: s1.ats.getD die.val []).take 4096) }) ∧
    (∀ (c : CoreId) va b thr consume dci dst tmo order m (src : Src) (v : Word) s1, let n := v.toNat % 64
      let u := ({ (s.setReg .ctxEpoch n (s.reg .ctxEpoch n + 1)).discard n none with inval := some ⟨n, none, false⟩ } : State)
      Accepted s src .xltInv 0 v (s.invCheck v) → v.getLsbD 7 = true → v.getLsbD 6 = true → (s.core c.val).ctx = n →
      (s.core c.val).wait = some (.wat va b thr consume dci dst tmo order) →
      (∀ p, p ≠ c.val → ∀ va a thr consume dci dst tmo order,
        (s.core p).wait = some (.wat va a thr consume dci dst tmo order) → (s.core p).ctx ≠ n) →
      (s.cores.map (·.1)).Nodup → u.semaphore c.val va consume = (.ok m, s1) →
      ∃ t, exec (.xltInv src v) s = .next t ∧ (t.core c.val).wait = some (.wat va m thr consume dci dst tmo order) ∧
        (∀ p, p ≠ c.val → t.core p = s1.core p) ∧ t.cis = s.cis ∧ t.epoch n = (s.epoch n + 1) % 2 ^ 32)

/-- Requests of other nodes are performed and answered: a WRITE to working memory stores its bytes and marks, advances the
arrival counters it meets or their digests, or is refused; one to the scratchpad aperture lands in an open window or is refused;
a READ returns bytes and marks; DIGEST, RESEND and VERDICT settle the chunks that they name (R169, R170, R403 to R409, R462).
Answers end their transactions: an acknowledgement ends a write, data goes where its read began, and a refusal ends its
owner, but for a write that BUSY refuses, which is sent again for a time; one without an answer ends with TIMEOUT, and an answer
that nothing waits for is dropped and counted (R170, R397, R427). -/
def Obligations.RemoteRequestsAndAnswers : Prop :=
  (
    ∀ (link : Fin 36) (p : Packet) (s : State),
      let n := p.body.length
      let met := s.cntsMet p.addr n
      let stores := fun (t : State) => s.Stored t p.addr p.body ∧
        (∀ g, g < (n + 63) / 64 → p.pmask.testBit g = true → t.cisBad (p.addr + 64 * g) 1 = true) ∧
        (p.pmask = 0 → ∀ g, p.addr ≤ 64 * g → 64 * g + 64 ≤ p.addr + n → t.cisBad (64 * g) 64 = false)
      (s.forMe p 0x01 = true → p.addr + n ≤ s.workSize → s.cis.wf = true → (∀ x, x < n → s.keyAt (p.addr + x) = s.keyAt p.addr) →
        (∀ i ∈ met, s.cntAdmits i p.src = true) →
        ((∀ i ∈ met, s.flag .cntCfg i 7 = false) → ∃ t : State, exec (.write link p) s = .next (t.reply p 0x10 0) ∧ stores t ∧
          (∀ i, i < 256 → t.reg64 .cntBytesLo .cntBytesHi i = if i ∈ met then
              (s.reg64 .cntBytesLo .cntBytesHi i + (min (p.addr + n) ((s.cntRange i).1 + (s.cntRange i).2) -
                max p.addr (s.cntRange i).1)) % 2 ^ 64 else s.reg64 .cntBytesLo .cntBytesHi i) ∧
          (∀ i, i < 256 → t.reg .cntPackets i = if i ∈ s.cntsMet p.addr 1 then s.reg .cntPackets i + 1 else s.reg .cntPackets i) ∧
          { t with cis := s.cis, cisKey := s.cisKey, cisPoison := s.cisPoison, regs := s.regs, links := s.links } = s) ∧
        (∀ i, met = [i] → s.flag .cntCfg i 7 = true → (s.cntRange i).1 ≤ p.addr →
          let o := p.addr - (s.cntRange i).1
          let x := s.cntChunk i (o / 65536)
          o % 65536 + n ≤ 65536 → x.settling = none → x.digest = none →
          ∃ t : State, exec (.write link p) s = .next (t.reply p 0x10 0) ∧ stores t ∧ t.cntChunk i (o / 65536) = { x with
            bytes := x.bytes + n, sum := (x.sum + digestWords (s.cntKey i) (o % 65536 / 8) p.body) % digestP })) ∧
      (s.forMe p 0x01 = true → p.addr + n ≤ s.workSize → (∃ i ∈ met, s.cntAdmits i p.src = false) →
        exec (.write link p) s = .next ((s.consume p).reply p 0x14 Code.protection.toNat)) ∧
      (let o := p.addr - State.apertureBase
        let c := s.physCore (o / 2 ^ 20 / 16) (o / 2 ^ 20 % 16)
        let inside := State.apertureBase ≤ p.addr ∧ p.addr + n ≤ State.apertureBase + State.apertureSize
        s.forMe p 0x01 = true → s.workSize < p.addr + n →
        (∀ w, inside → s.memWf = true → s.windowFor c (o % 2 ^ 20) n p.src = some w →
          ∃ t : State, exec (.write link p) s = .next (t.reply p 0x10 0) ∧
          (∀ i, (h : i < p.body.length) → (t.pad c).read (o % 2 ^ 20 + i) = p.body[i]) ∧
          (∀ y, y < o % 2 ^ 20 ∨ o % 2 ^ 20 + n ≤ y → (t.pad c).read y = (s.pad c).read y) ∧ (∀ q, q ≠ c → t.pad q = s.pad q) ∧
          t.reg64 .dmaWinLo .dmaWinHi (4 * c + w) = (s.reg64 .dmaWinLo .dmaWinHi (4 * c + w) + n) % 2 ^ 64 ∧
          { t with pads := s.pads, padPoison := s.padPoison, regs := s.regs, links := s.links } = s) ∧
        (inside → s.windowFor c (o % 2 ^ 20) n p.src = none →
          exec (.write link p) s = .next ((s.consume p).reply p 0x14 Code.busy.toNat)) ∧
        (¬inside → exec (.write link p) s = .next ((s.consume p).reply p 0x14 Code.range.toNat))) ∧
      (s.forMe p 0x02 = true →
        (s.workSize < p.addr + p.arg → exec (.read link p) s = .next ((s.consume p).reply p 0x14 Code.range.toNat)) ∧
        (p.addr + p.arg ≤ s.workSize →
          (s.touchesSealed p.addr p.arg = false → exec (.read link p) s =
            .next ((s.consume p).reply p 0x11 p.arg (s.cisRead p.addr p.arg).1 (s.cisMask p.addr p.arg))) ∧
          (s.touchesSealed p.addr p.arg = true → exec (.read link p) s =
            .next (((s.consume p).bump .secProtEvt 0 1).reply p 0x14 Code.protection.toNat)))) ∧
      (∀ i, s.forMe p 0x21 = true → s.chunkCnt (p.addr % 2 ^ 44) p.src = some i →
        let c := (p.addr % 2 ^ 44 - (s.cntRange i).1) / 65536
        let x := s.cntChunk i c
        (p.addr.testBit 44 = false → x.settling = none → 65536 ≤ x.bytes →
          (x.sum = p.arg → ∃ t, exec (.digest link p) s = .next t ∧
            t.reg64 .cntBytesLo .cntBytesHi i = (s.reg64 .cntBytesLo .cntBytesHi i + 65536) % 2 ^ 64 ∧
            t.cntChunk i c = State.noChunk ∧ { t with regs := s.regs, cntChunks := s.cntChunks, links := s.links } = s) ∧
          (x.sum ≠ p.arg → ∃ t, exec (.digest link p) s = .next t ∧ (t.cntChunk i c).settling = some s.ticks ∧
            (t.cntChunk i c).bytes = 0 ∧ (t.cntChunk i c).digest = some p.arg ∧ (t.cntChunk i c).peer = p.src ∧ t.cis = s.cis)) ∧
        (p.addr.testBit 44 = true → x.settling.isSome = true → ∀ d, x.digest = some d →
          let u := (s.consume p).setCntChunk i c { x with resent := some p.arg }
          let kept := digestWords (s.cntKey i) 0 (s.cisRead (s.chunkAt i c) 65536).1
          (p.arg ≠ d → exec (.digest link p) s = .next (u.settle i c 2)) ∧
          (p.arg = d → 65536 ≤ x.bytes → exec (.digest link p) s =
            .next (u.settle i c (if x.sum ≠ d then 1 else if kept ≠ d then 3 else 0))))) ∧
      (∀ i, s.forMe p 0x22 = true → s.chunkDs p.addr p.src = some i → s.txns = [] →
        let c := (p.addr - (s.dsRange i).1) / 65536
        let pad := (s.fld .dsGeom i 8 5 + c) * 65536
        let d := digestWords (s.dsKey i) 0 (s.padRead (s.dsCore i) pad 65536).1
        ∃ t, exec (.resend link p) s = .next t ∧ t.cis = s.cis ∧ t.pads = s.pads ∧ t.cores = s.cores ∧
          t.dsChunk i c = { s.dsChunk i c with settling := some s.ticks, resent := some d } ∧
          ((s.dsChunk i c).digest ≠ some d →
            t.reg .dsFail i = BitVec.ofNat 32 (c + 2 ^ 25) ∧ t.flag .dsCfg i 31 = true) ∧
          (∀ l, s.route p.src 0 = some l → ∀ k, k < 32 → ∃ tag x, t.txns.get? tag = some x ∧ x.owner = .other ∧
            x.pkt.type = 0x01 ∧ x.pkt.dst = p.src ∧ x.pkt.addr = (s.dsRange i).1 + 65536 * c + 2048 * k ∧
            x.pkt.body = (s.padRead (s.dsCore i) (pad + 2048 * k) 2048).1)) ∧
      (∀ i, s.forMe p 0x23 = true → s.chunkDs p.addr p.src = some i →
        let c := (p.addr - (s.dsRange i).1) / 65536
        ∃ t, exec (.verdict link p) s = .next t ∧ t.reg .dsFail i = BitVec.ofNat 32 (c + 2 ^ 24 * p.arg) ∧
          (p.arg ≠ 0 → t.flag .dsCfg i 31 = true) ∧
          t.dsChunk i c = { s.dsChunk i c with settling := none, resent := none } ∧
          t.reg .sumpTail 0 = BitVec.ofNat 32 (State.nextSeq (s.reg .sumpTail 0).toNat) ∧ t.cis = s.cis ∧ t.cores = s.cores) ∧
      (∀ (i : Fin 256) chunk, (s.cntChunk i.val chunk).settling.isSome = true → (s.cntChunk i.val chunk).resent = none →
        exec (.resendTimeout i chunk) s = .next (s.settle i.val chunk 1)) ∧
      (∀ (src : Src) (i : Fin 256), Accepted s src .cntCtrl i.val 1 (s.cntCtrlCheck i.val 1) → exec (.tlkCntClr src i) s =
        .next (({ (s.setReg64 .cntBytesLo .cntBytesHi i.val 0).setReg .cntPackets i.val 0 with
          cntChunks := s.cntChunks.erase i.val } : State).noted src .cntCtrl i.val 1))) ∧
  (
    ∀ (link : Fin 36) (p : Packet) (x : Txn) (s : State),
      let t := p.tag % 16384
      let u := s.consume p
      let s1 : State := { u with txns := s.txns.erase t }
      let idle := ∀ kv ∈ s.cores, kv.2.lkWaits = []
      (p.tag / 16384 = s.genOf 8 (4 + t / 8192) →
        (s.txns.get? t = some x → x.owner ≠ .gone →
          (s.forMe p 0x10 = true → exec (.wack link p) s = .next (drainLk s1) ∧ (idle → drainLk s1 = s1)) ∧
          (s.forMe p 0x11 = true → idle →
            (∀ c, x.owner = .load c →
              let got := fun (l : PendLoad) =>
                if l.tag = some t then { l with data := some p.body, poison := p.pmask != 0, tag := none } else l
              exec (.rdata link p) s = .next (s1.modCore c fun k => { k with loads := k.loads.map got })) ∧
            (∀ c va dci dst epoch host, x.owner = .acq c → (s.core c).wait = some (.acq va none dci dst (some t) epoch host) →
              exec (.rdata link p) s = .next (s1.modCore c fun k => { k with
                wait := some (.acq va (some (BitVec.ofNat 64 (leNat p.body), p.pmask != 0)) dci dst none epoch host) })) ∧
            (∀ c id pad, x.owner = .dma c id pad → p.pmask = 0 →
              exec (.rdata link p) s = .next (s1.padWrite c pad p.body))) ∧
          (s.forMe p 0x14 = true → p.arg = Code.busy.toNat → x.pkt.type = 0x01 → ∃ v, exec (.nak link p) s = .next v ∧
            v.txns.get? t = some { x with refused := some (x.refused.getD s.ticks), retry := true } ∧
            { v with txns := s.txns, links := s.links } = s) ∧
          (∀ code, s.forMe p 0x14 = true → Code.ofByte p.arg = some code → (code ≠ .busy ∨ x.pkt.type ≠ 0x01) →
            exec (.nak link p) s = .next (s1.failTxn t x code))) ∧
        (s.txns.get? t = none →
          (s.forMe p 0x10 = true → idle → exec (.wack link p) s = .next (u.bump .tlkLate 0 1)) ∧
          (s.forMe p 0x11 = true → exec (.rdata link p) s = .next (u.bump .tlkLate 0 1)) ∧
          (s.forMe p 0x14 = true → exec (.nak link p) s = .next (u.bump .tlkLate 0 1)))) ∧
      (p.tag / 16384 ≠ s.genOf 8 (4 + t / 8192) → s.forMe p 0x11 = true →
        exec (.rdata link p) s = .next (u.bump .rasLate 0 1)) ∧
      (∀ tag, s.txns.get? tag = some x →
        (x.retry = true →
          (∀ l, s.route x.pkt.dst 0 = some l → exec (.remoteWriteRetry tag) s =
            .next (({ s with txns := s.txns.set tag { x with retry := false, since := s.ticks } } : State).sendOn l x.pkt)) ∧
          (s.route x.pkt.dst 0 = none → exec (.remoteWriteRetry tag) s =
            .next ((({ s with txns := s.txns.erase tag } : State).bump .tlkNoroute 0 1).failTxn tag x .link))) ∧
        (x.refused.isSome = true → exec (.remoteWriteRetryLimit tag) s =
          .next (({ s with txns := s.txns.erase tag } : State).failTxn tag x .protection)) ∧
        (x.retry = false → exec (.transactionTimeout tag) s =
          .next (({ s with txns := s.txns.erase tag } : State).failTxn tag x .timeout))))

/-- Links train, come up with the neighbour that the topology names, move packets in order, and lose and keep lanes; pluggables
power their links (R389, R391 to R394, R402, R410, R411, R481). -/
def Obligations.LinksTrainAndCarry : Prop :=
  ∀ (link : Fin 36) (s : State),
    let l := link.val
    let st := s.fld .lnkState l 2 0
    let x := s.lnk l
    (∀ f : Flit, 2 ≤ st →
      (f.bad ≠ 0 ∨ flitCrcOk f = false → ∃ t, exec (.flitReceive link f) s = .next t ∧ t.lnk l = { x with rpl := true } ∧
        (∀ k, k ≠ l → t.lnk k = s.lnk k) ∧ { t with regs := s.regs, links := s.links } = s) ∧
      (∀ raw part (p : Packet), f.bad = 0 → flitCrcOk f = true → flitIdle f = false → flitRpl f = false →
        flitSeq f = (x.rxSeq + 1) % 1024 → packetsOf x.part (flitFirst f) (flitArea f) = ([raw], part) → packetOf raw = some p →
        x.wait = [] → State.pktOk p = true → p.dst = s.node →
        ∃ t, exec (.flitReceive link f) s = .next t ∧ (t.lnk l).rxSeq = x.rxSeq + 1 ∧ (t.lnk l).rpl = false ∧
          (t.lnk l).rx = x.rx ++ [p] ∧ (t.lnk l).part = part ∧ (∀ k, k ≠ l → t.lnk k = s.lnk k) ∧
          { t with regs := s.regs, links := s.links } = s)) ∧
    (s.power = .on → s.flag .lnkCtrl l 0 = false → s.cageOk l = true → st = 1 ∨ st = 2 →
      let hello : Packet := ⟨s.fld .lnkNbr l 11 0, 0, s.node, 0x20, false, 0, 0, 0, s.node + 2 ^ 12 * l, []⟩
      ∃ t, exec (.linkTrain link) s = .next t ∧ t.fld .lnkState l 2 0 = 2 ∧
        t.outbox = s.outbox ++ [.packet l hello (State.flitsOf Link.reset hello)] ∧
        { t with regs := s.regs, links := s.links, outbox := s.outbox } = s) ∧
    (∀ p : Packet, p.type = 0x20 → State.pktOk p = true → st = 2 →
      (p.arg % 4096 = s.fld .lnkNbr l 11 0 → p.arg / 4096 % 64 = s.fld .lnkNbr l 17 12 →
        ∃ t, exec (.hello link p) s = .next t ∧ t.fld .lnkState l 2 0 = 3 ∧ t.fld .lnkState l 19 8 = p.arg % 4096 ∧
          t.fld .lnkState l 25 20 = p.arg / 4096 % 64 ∧ t.cores = s.cores ∧ t.cis = s.cis) ∧
      (p.arg % 4096 ≠ s.fld .lnkNbr l 11 0 →
        ∃ t, exec (.hello link p) s = .next t ∧ t.fld .lnkState l 2 0 = 5 ∧ t.fld .lnkState l 19 8 = p.arg % 4096 ∧
          t.lnk l = Link.reset ∧ t.reg .sumpTail 0 = BitVec.ofNat 32 (State.nextSeq (s.reg .sumpTail 0).toNat))) ∧
    (∀ src : Src, s.flag .secState 0 18 = false → (s.cageOk l = true → s.power = .on →
        Accepted s src .lnkCtrl l 2 (s.lnkCtrlCheck l 2) →
        exec (.retrain src link) s = .next (((s.store .lnkCtrl l 0).leaveUp l 2).noted src .lnkCtrl l 2)) ∧
      (s.flag .lnkCtrl l 0 = false → Accepted s src .lnkCtrl l 1 (s.lnkCtrlCheck l 1) →
        exec (.disable src link) s = .next (((s.store .lnkCtrl l 1).leaveUp l 0).noted src .lnkCtrl l 1))) ∧
    (∀ lane : Fin 2, s.flag .lnkState l (5 + lane.val) = true →
      (st = 3 → x.failRx = none → exec (.laneFail link lane) s =
        .next ((s.setLink l { x with failover := true, failRx := some lane.val }).emit (.pattern l))) ∧
      (st = 4 → x.failRx = none → exec (.laneFail link lane) s = .next ((s.leaveUp l 1).raise 0x05 l .link 0x01)) ∧
      (st = 3 → x.failTx = none → exec (.failoverPatternReceived link lane) s =
        .next (s.setLink l { x with failover := true, failTx := some lane.val }))) ∧
    (x.failover = true → ∃ t, exec (.laneFailoverDone link) s = .next t ∧ t.fld .lnkState l 2 0 = 4 ∧
      t.reg .lnkFailovers l = BitVec.ofNat 32 (satAdd 0xFFFFFFFF (s.reg .lnkFailovers l).toNat 1) ∧ (t.lnk l).failover = false ∧
      t.cis = s.cis ∧ t.cores = s.cores) ∧
    (2 ≤ st → exec (.linkDown link) s = .next (s.leaveUp l 1)) ∧
    (s.linkUp l = false → s.leaveUp l 1 = (s.setFld .lnkState l 6 0 1).resetLink l) ∧
    (∀ (cage : Fin 9) (watts : Nat), s.cages.get? cage.val = none → s.power ≠ .off →
      (watts ≤ 16 → exec (.pluggableInsert cage watts) s = .next { s with cages := s.cages.set cage.val 1 }) ∧
      (16 < watts → ∃ t, exec (.pluggableInsert cage watts) s = .next t ∧ t.cages = s.cages.set cage.val 2 ∧
        t.reg .sumpTail 0 = BitVec.ofNat 32 (State.nextSeq (s.reg .sumpTail 0).toNat) ∧ t.links = s.links)) ∧
    (∀ cage : Fin 9, (∀ k, k < 4 → s.linkUp (4 * cage.val + k) = false) →
      ∃ t, exec (.pluggableRemove cage) s = .next t ∧ t.cages = s.cages.erase cage.val ∧
        (∀ k, k < 4 → 2 ≤ s.fld .lnkState (4 * cage.val + k) 2 0 → t.fld .lnkState (4 * cage.val + k) 2 0 = 1) ∧
        { t with regs := s.regs, links := s.links, cages := s.cages } = s)

/-- A domain reset goes through its phases: it quiesces, its record is captured and its generation advances, its logic is reset,
it serves again, and a phase that takes too long makes the enclosing domain's reset begin; resets come from hangs and from
RAS_RESET_CMD, and the module's is the device warm reset (R423, R425 to R430).
Sump messages, correctable-error rates, parity errors, fences and the idle-time scan (R414, R421, R422, R431, R434 to
R436). -/
def Obligations.ResetsFencesAndScans : Prop :=
  (
    ∀ (s : State),
      (∀ (kind inst : Nat) (x : DomReset), s.resetOf kind inst = some x →
        (x.phase = 0 → ∃ t, exec (.domainReset kind inst) s = .next t ∧ t.resetOf kind inst = some { x with phase := 1, seq := t.lastSump } ∧
          { t with regs := s.regs, sump := s.sump, sumpIrq := s.sumpIrq, free := s.free, resets := s.resets } = s) ∧
        (∀ miss, x.phase = 1 → ∃ t, exec (.resetQuiesceDone kind inst miss) s = .next t ∧
          t.resetOf kind inst = some { x with phase := 2 } ∧ t.genOf kind inst = (s.genOf kind inst + 1) % 256 ∧
          t.reg .chrysLast 0 = BitVec.ofNat 32 x.seq ∧
          (s.flag .chrysHi 0 31 = true → t.chrysWait = s.chrysWait ++ [s.chrysOf kind inst x.cause x.seq miss]) ∧
          t.cores = s.cores ∧ t.cis = s.cis ∧ t.launches = s.launches ∧ t.txns = s.txns) ∧
        (x.phase = 2 → exec (.resetProperDone kind inst) s =
          .next ((s.resetDomain kind inst).setReset { x with phase := 3 })) ∧
        (x.phase = 2 → kind = 1 → (s.core inst).launch = none → ∃ t, exec (.resetProperDone kind inst) s = .next t ∧
          (t.core inst).jobs = [] ∧ (t.core inst).loads = [] ∧ (t.core inst).run = .idle ∧ t.pad inst = [] ∧ t.cis = s.cis ∧
          ∀ p, p ≠ inst → t.core p = s.core p ∧ t.pad p = s.pad p) ∧
        (x.phase = 3 → x.fence = none → ∃ t, exec (.resetReturn kind inst) s = .next t ∧ t.resetOf kind inst = none ∧
          (x.command = true → t.reg .resetState 0 = 2) ∧ { t with regs := s.regs, resets := s.resets } = s) ∧
        (x.phase = 1 ∨ x.phase = 2 → 3 ≤ kind → kind ≤ 7 → (∀ y ∈ s.resets, y.kind ≤ 7) →
          ∃ t, exec (.resetPhaseTimeout kind inst) s = .next t ∧ t.resetOf kind inst = none ∧
            t.resetOf 8 (State.domDie kind inst) = some ⟨8, State.domDie kind inst, 2, 1, false, x.fence, t.lastSump⟩ ∧ t.cis = s.cis) ∧
        (x.phase = 1 ∨ x.phase = 2 → kind = 8 → s.warm = none → s.power = .on →
          ∃ t, exec (.resetPhaseTimeout kind inst) s = .next t ∧ t.resetOf kind inst = none ∧ t.warm = some 2 ∧ t.cis = s.cis)) ∧
      (∀ (src : Src) (v : Word), Accepted s src .resetCmd 0 v (s.resetCmdCheck v) → v.getLsbD 16 = true →
        (bitsOf v.toNat 3 0 ≠ 9 → ∃ t, exec (.rasResetCmd src v) s = .next t ∧ t.reg .resetState 0 = 1 ∧
          t.resets = s.resets ++ [⟨bitsOf v.toNat 3 0, bitsOf v.toNat 15 4, 0, 0, true, none, 0⟩] ∧
          { t with regs := s.regs, resets := s.resets, digQ := s.digQ } = s) ∧
        (bitsOf v.toNat 3 0 = 9 → s.power = .on → exec (.rasResetCmd src v) s =
          .next (({ (s.setReg .resetState 0 1).selfRefresh with warm := some 0 } : State).noted src .resetCmd 0 v))) ∧
      (∀ (k inst : Nat), s.power = .on → s.warm = none → k ≠ 2 → k ≠ 0x0A → k ≠ 0x0B → inst < domCount k →
        (∀ y ∈ s.resets, s.within k inst y.kind y.inst = false) →
        ∃ t, exec (.hangSample [(k, inst)] []) s = .next t ∧ t.resets = s.resets ++ [⟨k, inst, 1, 0, false, none, 0⟩] ∧
          { t with regs := s.regs, sump := s.sump, sumpIrq := s.sumpIrq, free := s.free, resets := s.resets } = s) ∧
      (∀ (t : BootTests) (cause : Nat), s.warm = some cause → s.power = .on →
        ∃ u, exec (.deviceWarmReset t) s = .next u ∧ u.warm = none ∧ u.digQ.getLast? = some ⟨4, 0, 0, 0⟩ ∧ u.pads = [] ∧
          u.txns = [] ∧ u.parts = [] ∧ u.adds = [] ∧ u.resets = [] ∧ u.hlc = [] ∧ u.fetched = []) ∧
      (∀ r rest, s.cis.wf = true → s.chrysWait = r :: rest → s.flag .cisState 0 0 = true → s.flag .chrysHi 0 31 = true →
        let size := 2 ^ 20 * 2 ^ s.fld .chrysCfg 0 3 0
        let tail := (s.reg .chrysTail 0).toNat
        let at_ := if size < tail + r.length then 0 else tail
        ∃ t, exec .chrysalisRingCopy s = .next t ∧ t.chrysWait = rest ∧ t.reg .chrysTail 0 = BitVec.ofNat 32 (at_ + r.length) ∧
          s.Stored t (s.addr .chrysHi 0 % 2 ^ 44 + at_) r)) ∧
  (
    ∀ (c : CoreId) (n : Nat) (s : State),
      (s.sumpIrq = true → s.flag .sumpCfg 0 11 = true → s.portUp s.svcPort = true →
        s.msixMask.contains (State.msixKey s.svcPort 0 (s.fld .sumpCfg 0 10 0)) = false →
        NoneByTheOther s s.svcPort 0 → exec .sumpIrq s = .next (({ s with sumpIrq := false } : State).emit (.msix s.svcPort 0 (s.fld .sumpCfg 0 10 0)))) ∧
      (∀ kind inst corrected count, let s1 := if kind = 8 ∧ inst < 6 then s.bump .ceDie inst corrected else s
        s1.ceCount kind inst = some count →
        let rise := count - s.ceLast.getD (4096 * kind + inst) 0
        (rise < s.fld .sumpCfg 0 19 12 → exec (.ceRateMinute kind ⟨inst, corrected⟩) s =
          .next { s1 with ceLast := s.ceLast.set (4096 * kind + inst) count }) ∧
        (s.fld .sumpCfg 0 19 12 ≤ rise → ∃ t e, exec (.ceRateMinute kind ⟨inst, corrected⟩) s = .next t ∧
          t.sump.get? ((s.reg .sumpTail 0).toNat % 4096) = some e ∧ e.kind = kind ∧ e.inst = inst ∧ e.count = min 0xFFFF rise ∧
          t.reg .sumpTail 0 = BitVec.ofNat 32 (State.nextSeq (s.reg .sumpTail 0).toNat) ∧ t.sumpIrq = true)) ∧
      (∀ (off : BitVec 26) r i, regAt off.toNat = some (r, i) →
        (State.statusReg r = false → exec (.configParityError off) s = .next s) ∧
        (State.statusReg r = true → ((s.reg .sumpTail 0).toNat + 0xFFFFFFFF - (s.reg .sumpHead 0).toNat) % 0xFFFFFFFF < 4096 → ∃ t e, exec (.configParityError off) s = .next t ∧ t.reg r i = 0 ∧
          t.sump.get? ((s.reg .sumpTail 0).toNat % 4096) = some e ∧ e.loc = off.toNat ∧
          { t with regs := s.regs, sump := s.sump, sumpIrq := s.sumpIrq, free := s.free } = s)) ∧
      ((List.range 144).find? (fun m => s.bears m c.val) = some n →
        let fenced := s.flag .glbClmap n (16 + c.val % 16)
        (fenced = true → exec (.coreFence c) s = .next s) ∧
        (fenced = false → s.fld .glbClmap n 9 8 ≠ 3 →
          ∃ t, exec (.coreFence c) s = .next t ∧ t.flag .glbClmap n (16 + c.val % 16) = true ∧ t.host = s.host ∧ t.pads = s.pads) ∧
        (∀ (src : Src) (v : Word), Accepted s src .rasFence 0 v (s.fenceCheck v) → v.getLsbD 31 = true →
          bitsOf v.toNat 11 0 = c.val → exec (.rasFence src v) s = .next ((s.fence c.val).noted src .rasFence 0 v)) ∧
        (s.flag .scanCfg 0 0 = true → s.flag .kpcClst n 2 = false → s.fld .kpcClst n 1 0 < 2 → s.launches = [] →
          s.clLaunch n = none →
          exec (.scanStep c none false) s = .next s ∧
          exec (.scanStep c none true) s = .next (s.bump .scanPasses 0 1) ∧
          (fenced = false → s.fld .glbClmap n 9 8 ≠ 3 → ∀ pattern last,
            ∃ t, exec (.scanStep c (some pattern) last) s = .next t ∧ t.flag .glbClmap n (16 + c.val % 16) = true ∧
              t.reg .scanFails 0 = BitVec.ofNat 32 (satAdd 0xFFFFFFFF (s.reg .scanFails 0).toNat 1)))))

/-- A power sample enters the mean and the peak; while the dies run a mean above the cap lowers duties by one sixteenth,
unprotected clusters first, ten samples at 97 % of it or less raise them, protected ones first, and more than 1,300 W takes every
running cluster to 4/16 (R444, R445).
A thermal sample shows the readings; a die at 120 °C, the tenth sample of a die at 115 °C, an LPDDR6 package above 105 °C or
a NAND package above 85 °C trips the module; else a die at 110 °C takes its clusters to 4/16, one from 100 °C until it is below
98 °C lowers its running clusters by one sixteenth, and duties rise again when none is hot (R446, R447; that they rise one
sixteenth a sample, and that an X die takes all clusters, is the model's choice, log entry 79).
A slack sample shows the slack of a running cluster and lifts the rail of a die with a core below 10 ps by 5 mV up to its
ceiling; a maintenance point shows the slack of its plan and sets the planned rails, each the lowest multiple of 5 mV that gives
25 ps, or the ceiling, and its end puts them in force; a commanded one is accepted unless one runs (R448 to R452).
The commands of the management link for power: KEEPER takes every die's power, a cold boot is granted in KEEPER while every die
reads at most 90 °C and refused with STATE otherwise, and a warm reset becomes due (R429, R447). -/
def Obligations.TheKeeperGoverns : Prop :=
  (
    ∀ (watts : Nat) (s : State), s.power ≠ .off →
      let avg := ({ s with powerLog := (watts :: s.powerLog).take 100 } : State).powerAvg
      let duty := fun (t : State) n => t.dutyP.getD n 16
      let above := fun n => n ∈ s.runClusters ∧ 4 < duty s n
      ∃ t, exec (.powerSample watts) s = .next t ∧ t.powerLog = (watts :: s.powerLog).take 100 ∧
        t.fld .kpcPower 0 21 11 = max (capBits 11 watts) (s.fld .kpcPower 0 21 11) ∧
        { t with regs := s.regs, dutyP := s.dutyP, powerLog := s.powerLog, powerLow := s.powerLow, powerMiss := s.powerMiss
                 sump := s.sump, sumpIrq := s.sumpIrq, free := s.free } = s ∧
        (s.power = .keeper → t.dutyP = s.dutyP) ∧
        (s.power = .on → (∀ n, duty s n ≤ 16) →
          (1300 < watts → ∀ n ∈ s.runClusters, duty t n = 4) ∧
          (watts ≤ 1300 → s.capWatts < avg →
            ((∃ n, above n ∧ s.protectedCl n = false) →
              ∀ n, duty t n = if above n ∧ s.protectedCl n = false then duty s n - 1 else duty s n) ∧
            ((∀ n, above n → s.protectedCl n = true) → ∀ n, duty t n = if above n then duty s n - 1 else duty s n) ∧
            ((∀ n, ¬ above n) → s.powerMiss = 99 → t.flag .kpcState 0 2 = true)) ∧
          (watts ≤ 1300 → avg ≤ s.capWatts →
            (s.capWatts * 97 < avg * 100 → t.dutyP = s.dutyP ∧ t.powerLow = 0) ∧
            (avg * 100 ≤ s.capWatts * 97 → s.powerLow < 9 → t.dutyP = s.dutyP ∧ t.powerLow = s.powerLow + 1) ∧
            (avg * 100 ≤ s.capWatts * 97 → 9 ≤ s.powerLow →
              let below := fun n => n < 144 ∧ duty s n < 16
              ((∃ n, below n ∧ s.protectedCl n = true) →
                ∀ n, duty t n = if below n ∧ s.protectedCl n = true then duty s n + 1 else duty s n) ∧
              ((∀ n, below n → s.protectedCl n = false) → ∀ n, duty t n = if below n then duty s n + 1 else duty s n))))) ∧
  (
    ∀ (x : Temps) (s : State), s.power = .on →
      let temp := fun d => x.dies.getD d 0
      let tenth := fun d => d < 6 ∧ 115 ≤ temp d ∧ 9 ≤ s.hotFor.getD d 0
      let on := (List.range 6).filter fun d => decide (100 ≤ temp d) || (s.thermOn.contains d && decide (98 ≤ temp d))
      let duty := fun (t : State) n => t.dutyT.getD n 16
      ((∃ a ∈ x.dies, 120 ≤ a) ∨ (∃ d, tenth d) ∨ (∃ a ∈ x.mem, 105 < a) ∨ (∃ a ∈ x.nand, 85 < a) →
        ∃ t, exec (.thermalSample x) s = .next t ∧ t.power = .keeper ∧ t.tripPin = true ∧ t.stage = 1 ∧ t.cores = [] ∧ t.cis = [] ∧
          t.pads = [] ∧ t.host = s.host) ∧
      ((∀ a ∈ x.dies, a < 115) → (∀ a ∈ x.mem, a ≤ 105) → (∀ a ∈ x.nand, a ≤ 85) → (∀ n, duty s n ≤ 16) →
        ∃ t, exec (.thermalSample x) s = .next t ∧ t.hotFor = (List.range 6).foldl SMap.erase s.hotFor ∧ t.thermOn = on ∧
          (∀ d, d < 6 → t.fld .kpcTemp d 7 0 = capBits 8 (temp d)) ∧ t.fld .kpcTempInlet 0 7 0 = capBits 8 x.inlet ∧
          (∀ ch, ch < 48 → t.flag .chState ch 8 = decide (85 < x.mem.getD (ch / 4) 0)) ∧
          (∀ n d, d < 6 → 110 ≤ temp d → n ∈ State.dieClusters d → duty t n = 4) ∧
          (∀ n, (∀ d, d < 6 → 110 ≤ temp d → n ∉ State.dieClusters d) → (∃ d ∈ on, n ∈ State.dieClusters d) → n ∈ s.runClusters →
            s.protectedCl n = false → 4 < duty s n → duty t n = duty s n - 1) ∧
          (on = [] → let below := fun n => n < 144 ∧ duty s n < 16
            ((∃ n, below n ∧ s.protectedCl n = true) →
              ∀ n, duty t n = if below n ∧ s.protectedCl n = true then duty s n + 1 else duty s n) ∧
            ((∀ n, below n → s.protectedCl n = false) → ∀ n, duty t n = if below n then duty s n + 1 else duty s n)) ∧
          { t with
            regs := s.regs, wells := s.wells, dutyT := s.dutyT, thermOn := s.thermOn, hot110 := s.hot110, hotFor := s.hotFor
            nandHot := s.nandHot, inletAt := s.inletAt, inletCap := s.inletCap, sump := s.sump, sumpIrq := s.sumpIrq, free := s.free } = s)) ∧
  (
    ∀ (s : State),
      (∀ (c : CoreId) (x : Int) (n : Nat), s.power = .on → s.maint = 0 → s.runClusters.filter (s.bears · c.val) = [n] →
        let d := c.val / 592
        let now := s.fld .kpcVid d 9 0
        let ceil := s.fld .kpcVid d 29 20
        ∃ t, exec (.slackSample [(c, x)]) s = .next t ∧ t.fld .kpcClst n 15 8 = State.byteOf x ∧
          (t.fld .kpcVid d 9 0 = if x < 10 ∧ now < ceil then min ceil (now + 5) else now) ∧
          (∀ e, e < 4 → e ≠ d → t.reg .kpcVid e = s.reg .kpcVid e) ∧
          { t with regs := s.regs, sump := s.sump, sumpIrq := s.sumpIrq, free := s.free } = s) ∧
      (∀ m, s.power = .on → s.maint ≠ 2 → let p := s.plan m.slack
        ∃ t, exec (.maintenancePoint m) s = .next t ∧ t.maint = 2 ∧ t.fld .kpcMaintState 0 1 0 = 1 ∧
          t.fld .kpcMaintState 0 31 2 = (s.fld .kpcMaintState 0 31 2 + 1) % 2 ^ 30 ∧
          (∀ d r, d < 4 → p.2.1[d]? = some r → t.fld .kpcVid d 19 10 = r.vid ∧ t.fld .kpcVid d 9 0 = s.fld .kpcVid d 9 0) ∧
          (∀ n, n < 144 → t.fld .kpcClst n 15 8 = State.byteOf (p.1.getD n 25)) ∧ (p.2.2 = true → t.flag .kpcState 0 0 = true) ∧
          t.cis = s.cis ∧ t.cores = s.cores) ∧
      (∀ slack, s.flag .kpcState 0 0 = false →
        let r := fun d => planRail (s.fld .kpcVid d 9 0) (s.fld .kpcVid d 29 20) (s.worstSlack slack d) false
        (∀ d, d < 4 → (r d).beyond = false) → (s.plan slack).2 = ((List.range 4).map r, false)) ∧
      (∀ (vid ceil : Nat) (worst : Int), vid % 5 = 0 → vid ≤ ceil →
        let r := planRail vid ceil worst false
        (25 ≤ worst → r.vid = vid) ∧
        (worst < 25 → r.beyond = false → r.vid % 5 = 0 ∧ 25 ≤ worst + 4 * (((r.vid - vid) / 5 : Nat) : Int) ∧
          worst + 4 * (((r.vid - vid) / 5 : Nat) : Int) < 29) ∧
        (r.beyond = true → r.vid = ceil)) ∧
      (s.maint = 2 → ∃ t, exec .maintenanceDone s = .next t ∧ t.maint = 0 ∧ t.fld .kpcMaintState 0 1 0 = 2 ∧
        (∀ d, d < 4 → t.fld .kpcVid d 9 0 = s.fld .kpcVid d 19 10) ∧ { t with regs := s.regs, maint := s.maint } = s) ∧
      (∀ (src : Src) (v : Word), let v1 := v ||| 1
        (Accepted s src .kpcMaintCmd 0 v1 (s.maintCheck v1) → exec (.kpcMaintGo src v) s =
          .next (({ s.setFld .kpcMaintState 0 1 0 1 with maint := 1 } : State).noted src .kpcMaintCmd 0 v1)) ∧
        (s.maint = 0 → s.maintCheck v1 = .ok) ∧ (s.maint ≠ 0 → s.maintCheck v1 = .busy))) ∧
  (
    ∀ (s : State),
      (s.power = .on →
        (∃ t, exec .powerKeeper s = .next t ∧ t.power = .keeper ∧ t.stage = 1 ∧ t.tripPin = s.tripPin ∧ t.cores = [] ∧ t.cis = [] ∧
          t.host = s.host ∧ t.outbox.getLast? = some (.response 0x01 .ok [])) ∧
        exec .powerColdBoot s = .next (s.emit (.response 0x01 .state [])) ∧
        (s.warm = none → exec .warmReset s = .next (({ s.selfRefresh with warm := some 0 } : State).emit (.response 0x02 .ok []))) ∧
        (s.warm.isSome = true → exec .warmReset s = .next (s.emit (.response 0x02 .ok [])))) ∧
      (s.power = .keeper →
        exec .powerKeeper s = .next (s.emit (.response 0x01 .ok [])) ∧
        (s.lost = false → (∀ d, d < 6 → s.fld .kpcTemp d 7 0 ≤ 90) →
          exec .powerColdBoot s = .next (({ s with bootDue := true } : State).emit (.response 0x01 .ok []))) ∧
        ((∃ d, d < 6 ∧ 90 < s.fld .kpcTemp d 7 0) → exec .powerColdBoot s = .next (s.emit (.response 0x01 .state [])))))

/-- The keeper boots the preferred slot's firmware or the other's, shows what failed when neither is accepted, and takes the
losses of power, PERST# and the test port as the spec tells (R276, R438, R453 to R459, R472 to R475, R478 to R480). -/
def Obligations.TheModuleBoots : Prop :=
  ∀ (s : State),
    (∀ (slot : BitVec 8) (t : BootTests), s.bootDue = true → s.lost = false → s.power ≠ .on →
      let k := s.slotPref % 2
      (∀ m, m < 2 → s.accepts (s.slotImage m) = true → (m = k ∨ s.accepts (s.slotImage k) = false) →
        t.eyes.lanes = [] → 12 ≤ t.eyes.rest →
        ∃ u, exec (.coldBoot slot t) s = .next u ∧ u.power = .on ∧ u.stage = 4 ∧ u.slotRun = m ∧ u.svnFuse = s.svnFuse ∧
          u.svnImage = (s.slotImage m).svn.toNat ∧ u.bootDue = false ∧ u.cores = [] ∧ u.cis = [] ∧ u.digN = 0 ∧ u.digQ = [] ∧
          u.digD = Config.shake256 (Config.romDigest ++ (s.slotImage m).digest ++ u.topoDigest ++
            Config.shake256 s.partition.bytes 64) 48) ∧
      (s.accepts (s.slotImage 0) = false → s.accepts (s.slotImage 1) = false →
        ∃ u, exec (.coldBoot slot t) s = .next u ∧ u.power = .keeper ∧ u.stage = 6 ∧ u.svnFuse = s.svnFuse ∧
          u.outbox = s.outbox ++ [.response 0 .signature (leBytes 1 k), .response 0 .signature (leBytes 1 (1 - k))])) ∧
    (s.lost = false → s.power = .on → ∃ t, exec .powerLossSignal s = .next t ∧ t.lost = true ∧ t.power = .keeper ∧
      t.bootDue = false ∧ t.stage = 1 ∧ t.cores = [] ∧ t.cis = [] ∧ t.slots = s.slots) ∧
    (s.lost = false → s.power = .keeper → exec .powerLossSignal s = .next { s with lost := true, bootDue := false }) ∧
    (s.lost = true → exec .inputStableTimer s = .next { s with lost := false, bootDue := true } ∧
      ∃ t, exec .holdupExhausted s = .next t ∧ t.power = .off ∧ t.lost = false ∧ t.bootDue = true ∧ t.sump = [] ∧ t.cores = [] ∧
        t.host = s.host ∧ t.slots = s.slots ∧ t.bootDescs = s.bootDescs ∧ t.svnFuse = s.svnFuse) ∧
    (∀ port : Fin 2,
      (s.portUp port.val = false → exec (.perstAssert port) s = .next { s with perst := setInsert s.perst port.val }) ∧
      (s.portUp port.val = true → s.warm = none → s.power = .on → ∃ t, exec (.perstAssert port) s = .next t ∧
        t.perst = setInsert s.perst port.val ∧ t.portUp port.val = false ∧ t.warm = some 3 ∧
        { t with
          regs := s.regs, perst := s.perst, warm := s.warm, vfs := s.vfs, held := s.held, subs := s.subs, cisQ := s.cisQ
          cisOut := s.cisOut } = s) ∧
      exec (.perstDeassert port) s = .next { s with perst := setErase s.perst port.val }) ∧
    (exec (.tapInstruction .idcode) s = .next { s with tap := .idcode } ∧
      ∀ code, exec (.tapInstruction (.other code)) s =
        .next { s with tap := if s.perst.contains 0 && s.perst.contains 1 then .other code else .bypass }) ∧
    (answers s = true →
      (∀ i, exec (.pldmFwUpdate (.image i)) s =
        .next (({ s with slots := s.slots.set (updateSlot s) i } : State).emit (.response 0x11 .ok []))) ∧
      (∀ p, exec (.pldmFwUpdate (.partition p)) s = .next (({ s with partition := p } : State).emit (.response 0x11 .ok []))) ∧
      (∀ n e, exec (.pldmFwUpdate (.topology [(n, e)])) s =
        .next (({ s with topology := [(n % 256, e)] } : State).emit (.response 0x11 .ok []))) ∧
      ∃ t : State, exec .activate s = .next (t.emit (.response 0x12 .ok [])) ∧ t.slotPref = updateSlot s ∧
        { t with bootDescs := s.bootDescs } = s)

/-- The configuration digest folds its records in order, after which a write held at its port is performed, and is latched by SNAP; ADVANCE_SVN raises the fuses to the running
image's SVN; sealing gives a context a key of its own, which unsealing destroys; the keeper answers SPDM requests (R453 to R463,
R467; the numbers of SPDM responses are log entry 33's). -/
def Obligations.DigestKeysAndAttestation : Prop :=
  ∀ (s : State),
    (∀ r rest, s.digQ = r :: rest →
      let t : State := { s with
        digQ := rest, digD := Config.shake256 (s.digD ++ State.digBytes r (s.digN + 1)) 48, digN := (s.digN + 1) % 2 ^ 64 }
      (s.held = [] → exec .digestFold s = .next t) ∧
      (∀ src off v more, s.held = ⟨src, off, v⟩ :: more → src ≠ .mgmt → rest.length < 4096 →
        let u := ({ t with held := [] } : State).put32 src off v
        exec .digestFold s = .next { u with held := u.held ++ more })) ∧
    (∀ (src : Src) (v : Word) (n : Fin 64),
      let v1 : Word := BitVec.ofNat 32 (setBits v.toNat 3 0 2)
      (Accepted s src .secCmd 0 1 (s.secCheck 1) → ∃ t, exec (.secSnap src) s = .next t ∧ t.digQ = [] ∧ t.cis = s.cis ∧
        (s.digQ = [] → s.digN < 2 ^ 64 → t.reg64 .secCountLo .secCountHi 0 = s.digN ∧ t.digD = s.digD ∧
          t.reg .secDigest 0 = BitVec.ofNat 32 (leNat (s.digD.take 4)))) ∧
      (Accepted s src .secCmd 0 v1 (s.secCheck v1) → exec (.advanceSvn src v) s =
        .next ((s.setFld .secState 0 7 2 s.svnImage).noted src .secCmd 0 v1)) ∧
      (Accepted s src .secCtrl n.val 2 (s.sealCheck n.val 2) → ∃ t, exec (.secSeal src n) s = .next t ∧ t.sealed n.val = true ∧
        t.keys.get? n.val = some s.nextKey ∧ t.nextKey = s.nextKey + 1 ∧
        t.fld .secCtrl n.val 31 16 = satAdd 0xFFFF (s.fld .secCtrl n.val 31 16) 1 ∧
        { t with regs := s.regs, keys := s.keys, nextKey := s.nextKey, digQ := s.digQ } = s) ∧
      (Accepted s src .secCtrl n.val 4 (s.sealCheck n.val 4) → ∃ t, exec (.secUnseal src n) s = .next t ∧
        t.sealed n.val = false ∧ t.keys.get? n.val = none ∧ (∀ k, k ≠ n.val → t.keys.get? k = s.keys.get? k) ∧
        { t with regs := s.regs, keys := s.keys, digQ := s.digQ } = s)) ∧
    (answersAll s = true →
      let tells := fun (c : Instr) (cmd : Nat) (req fixed : List Byte) (u : State) => exec c s =
        .next (({ u with free := u.free + 1 } : State).emit (.response cmd .ok (fixed ++ Config.spdmBytes cmd u.free req)))
      tells .getVersion 0x101 [] [0x14] s ∧ tells .getCapabilities 0x102 [] [] s ∧ tells .negotiateAlgorithms 0x103 [] [] s ∧
      tells .getDigests 0x104 Config.certChain [] s ∧
      (∀ off len, exec (.getCertificate off len) s =
        .next (s.emit (.response 0x105 .ok ((Config.certChain.drop off).take len)))) ∧
      (∀ nonce, tells (.challenge nonce) 0x106 nonce [] s) ∧
      (∀ i, 1 ≤ i → i ≤ 5 → tells (.getMeasurements i) 0x107 [] (measurement s i) s) ∧
      tells (.getMeasurements 6) 0x107 [] (measurement s.snap 6) s.snap ∧
      (∀ key, tells (.keyExchange key) 0x108 key (leBytes 4 s.nextSession)
        { s with sessions := s.sessions ++ [(s.nextSession, false)], nextSession := s.nextSession + 1 }) ∧
      (∀ n, s.sessions.contains (n, false) = true →
        tells (.finish n) 0x109 [] [] { s with sessions := s.sessions.map fun x => if x.1 = n then (n, true) else x }) ∧
      (∀ n, s.sessions.contains (n, true) = true → exec (.endSession n) s =
        .next (({ s with sessions := s.sessions.filter fun x => x.1 != n } : State).emit (.response 0x10A .ok []))))

/-- A write that its register accepts has its effect and is recorded, one with a reserved bit set or that the register's check
rejects changes only the last-write status, a misaligned one is recorded with ALIGN; an aligned 8-byte write is two writes, and a
read returns the register's value or the half latched by its other half; the registers of a core act on it. An access to a core's
register wakes its cluster, and a write to a queue's register names the queue (R6 to R8, R63, R443, R464 to R467, R493).
Command entries are performed by their owner or end with their code, and the keeper answers the management commands for
registers, sump entries and sensors (R336, R421, R444, R459, R465, R467; the numbers of sensors are log entry 33's). -/
def Obligations.RegistersCommandsAndManagement : Prop :=
  (
    ∀ (src : Src) (s : State), s.arrives src = true → State.fromVf src = false → s.holds src = false →
      (∀ (off : BitVec 26) (v : DWord) (r : Reg) (i : Nat),
        off.toNat < 0xC10000 ∨ 0xC18100 ≤ off.toNat ∧ off.toNat < 0x1010000 ∨ 0x1200000 ≤ off.toNat ∧ off.toNat < 0x3000000 →
        off.toNat % 4 = 0 → regAt off.toNat = some (r, i) →
        let w : Word := v.setWidth 32
        let s1 := s.wakeFor r i
        let s2 := if Block.at r.row.base = some .fe ∧ r.row.n1 = 4096 ∧ ¬ r.row.core then s1.setFld .feLast 0 19 8 i else s1
        (Accepted s1 src r i w (s1.regCheck r i w) →
          exec (.registerWrite src off 4 v) s = .next ((State.regEff r i w s2).noted src r i w)) ∧
        (w.toNat &&& (0xFFFFFFFF ^^^ r.known) ≠ 0 →
          exec (.registerWrite src off 4 v) s = .next (s2.recordLast (r.last i) .badField)) ∧
        (w.toNat &&& (0xFFFFFFFF ^^^ r.known) = 0 → s1.regCheck r i w ≠ .ok →
          exec (.registerWrite src off 4 v) s = .next (s2.recordLast (r.last i) (s1.regCheck r i w))) ∧
        (r.countHi = none → exec (.registerRead src off 4) s = .next (s1.emit (.readData (leBytes 4
          (if r.latched then s1.latch.getD (r.key i) 0 else BitVec.ofNat 32 (s1.view r i)).toNat) false))) ∧
        (∀ hi, r.countHi = some hi → r.latched = false → exec (.registerRead src off 4) s =
          .next (({ s1 with latch := s1.latch.set (hi.key i) (BitVec.ofNat 32 (s1.view hi i)) } : State).emit
            (.readData (leBytes 4 (BitVec.ofNat 32 (s1.view r i)).toNat) false)))) ∧
      (∀ r i (w : Word), r.row.w1c = 0 → (s.store r i w).reg r i =
        BitVec.ofNat 32 (((s.reg r i).toNat &&& (0xFFFFFFFF ^^^ r.row.rw)) ||| (w.toNat &&& r.row.rw))) ∧
      (∀ (off off4 : BitVec 26) (v : DWord) t u, off.toNat % 8 = 0 → off4.toNat = off.toNat + 4 →
        exec (.registerWrite src off 4 v) s = .next t → t.arrives src = true → t.holds src = false →
        exec (.registerWrite src off4 4 (v >>> 32)) t = .next u → exec (.registerWrite src off 8 v) s = .next u) ∧
      (∀ (off : BitVec 26) (v : DWord), off.toNat % 4 ≠ 0 → exec (.registerWrite src off 4 v) s =
          .next (s.recordLast (.glbLast, 0) .align) ∧ exec (.registerRead src off 4) s = .next (s.emit .unsupported)) ∧
      (∀ (c : CoreId) (v : Word), let u := fun r => s.wakeFor r c.val
        (Accepted (u .lzcCtrl) src .lzcCtrl c.val 1 ((u .lzcCtrl).regCheck .lzcCtrl c.val 1) → exec (.icinv src c) s =
          .next (((u .lzcCtrl).modCore c.val fun k => { k with icache := [] }).noted src .lzcCtrl c.val 1)) ∧
        (Accepted (u .lzcCtrl) src .lzcCtrl c.val 2 ((u .lzcCtrl).regCheck .lzcCtrl c.val 2) → exec (.dcinv src c) s =
          .next (((u .lzcCtrl).modCore c.val fun k => { k with dcache := [] }).noted src .lzcCtrl c.val 2)) ∧
        (Accepted (u .numClear) src .numClear c.val 1 .ok → exec (.numClearSatTotal src c) s =
          .next (((u .numClear).setReg .numSatTotal c.val 0).noted src .numClear c.val 1)) ∧
        (Accepted (u .numSeedHi) src .numSeedHi c.val v ((u .numSeedHi).seedCheck c.val v) →
          exec (.srSeedLoad src c v) s = .next ((((u .numSeedHi).store .numSeedHi c.val v).modCore c.val fun k => { k with
            srSeed := BitVec.ofNat 64 ((u .numSeedHi).wouldBe .numSeedLo c.val v), srPos := 0 }).noted src .numSeedHi c.val v)))) ∧
  (
    ∀ (s : State),
      (∀ (q : Fin 4096) (e : Entry) (s1 : State), s.qKind q.val = 4 ∨ s.qKind q.val = 3 ∧ s.inReset 3 (s.qOwner q.val) = false →
        s.digQ.length + 12 ≤ 4096 → s.takeEntry q.val = some (e, s1) →
        let kind := s.qKind q.val
        let result := State.entryWrites (if kind = 3 then 0x600000 else 0xA00000) kind (s1.qOwner q.val)
          ((List.range (fieldAt e.bytes 1 1)).map fun k => (fieldAt e.bytes (16 + 8 * k) 4, fieldAt e.bytes (20 + 8 * k) 4)) none s1
        let ends := fun (t : State) (code : Code) =>
          t.post q.val (State.plainRec q.val (fieldAt e.bytes 4 4) (s1.queue q.val).sqHead code)
        (State.cmdEntryCode e ≠ .ok → exec (.cmdEntry q) s = .next (ends s1 (State.cmdEntryCode e))) ∧
        (∀ c t, State.cmdEntryCode e = .ok → result = (.ok, some c, t) →
          (t.cmdRuns c = true → exec (.cmdEntry q) s = .next { t with
            cmdJobs := t.cmdJobs ++ [⟨q.val, (s1.queue q.val).sqHead, fieldAt e.bytes 4 4, c.1, c.2⟩] }) ∧
          (t.cmdRuns c = false → exec (.cmdEntry q) s = .next (ends t (t.cmdResult c)))) ∧
        (∀ t, State.cmdEntryCode e = .ok → result = (.ok, none, t) → exec (.cmdEntry q) s = .next (ends t .ok)) ∧
        (State.cmdEntryCode e = .ok → result.1 ≠ .ok → exec (.cmdEntry q) s = .next (ends result.2.2 result.1))) ∧
      (answersAll s = true → ∀ (off : BitVec 26) (v : Word),
        (mgmtReach s off.toNat = true →
          (off.toNat % 4 = 0 → exec (.regRead off) s = .next ((s.read32 .mgmt off.toNat).2.emit
            (.response 0x03 .ok (leBytes 4 (s.read32 .mgmt off.toNat).1.toNat)))) ∧
          (off.toNat % 4 = 0 → s.digQ.length < 4096 → s.holds .mgmt = false →
            let t := s.write32 .mgmt off.toNat v
            exec (.regWrite off v) s = .next (t.emit (.response 0x04 (t.lastCode off.toNat) []))) ∧
          (off.toNat % 4 = 0 → (4096 ≤ s.digQ.length ∨ s.holds .mgmt = true) →
            exec (.regWrite off v) s = .next (s.holdWrite .mgmt off.toNat v)) ∧
          (off.toNat % 4 ≠ 0 → exec (.regWrite off v) s =
            .next ((s.recordLast (.glbLast, 0) .align).emit (.response 0x04 .align [])))) ∧
        (mgmtReach s off.toNat = false → ∃ code, exec (.regRead off) s =
            .next (({ s with free := s.free + 1 } : State).emit (.response 0x03 code [])) ∧
          exec (.regWrite off v) s = .next (({ s with free := s.free + 1 } : State).emit (.response 0x04 code [])))) ∧
      (answersAll s = true →
        (∀ e seq, s.sump.get? (seq % 4096) = some e →
          (e.seq = seq → exec (.sumpRead seq) s = .next (s.emit (.response 0x05 .ok e.bytes))) ∧
          (e.seq ≠ seq → ∃ code, exec (.sumpRead seq) s =
            .next (({ s with free := s.free + 1 } : State).emit (.response 0x05 code [])))) ∧
        (∀ id v, sensor s id = some v → exec (.pldmSensorRead id) s = .next (s.emit (.response 0x10 .ok (leBytes 4 v)))) ∧
        (∀ id, id < 6 → sensor s id = some (s.fld .kpcTemp id 7 0)) ∧ sensor s 6 = some (s.fld .kpcTempMem 0 7 0) ∧
        sensor s 7 = some (s.fld .kpcTempMem 0 19 12) ∧ sensor s 8 = some (s.fld .kpcTempInlet 0 7 0) ∧
        sensor s 9 = some (capBits 11 s.powerAvg) ∧ sensor s 10 = some (s.view .kpcState 0)))

/-- After reset every register holds the value of its table, and no work, memory, core or queue holds anything: memory reads as
the model's default, PHASE of each completion ring is 1, and no command waits (R11; the values that no rule gives are those of
log entries 4 to 6, 18, 38 and 41).
The state after reset is sound. -/
def Obligations.ResetStateIsSound : Prop :=
  (
    (∀ r i, State.reset.reg r i = BitVec.ofNat 32 (r.resetVal i)) ∧ State.reset.pending = [] ∧
    (∀ a, State.reset.cis.read a = 0) ∧ (∀ q, (State.reset.queue q).phase = true ∧ (State.reset.queue q).sqHead = 0 ∧
      (State.reset.queue q).fetch = .idle) ∧
    State.reset.reg .feQCq 0 = 0x10000 ∧ State.reset.reg .cmsHashALo 1 = 0x9E3779B3 ∧ State.reset.reg .feQCfg 5 = 0x2100000 ∧
    (∀ p, State.reset.core p = { Core.reset with srSeed := BitVec.ofNat 64 (2 * p + 1) })) ∧
  (
    State.reset.Inv)

/-- Every step keeps the invariant: working memory, host memory and scratchpads stay in canonical form, no two contexts ever come
under one key, and the preferred firmware slot exists (R453, R461). -/
def Obligations.EveryStepKeepsTheInvariant : Prop :=
  ∀ (s t : State), s.Inv → step s = .next t → t.Inv

/-- Every command answers a next state, and leaves the queue of commands that wait behind it as it is: no command stops the
block. -/
def Obligations.EveryCommandCompletes : Prop :=
  ∀ (c : Instr) (s : State), ∃ t, exec c s = .next t ∧ t.pending = s.pending

/-- A register write that carries an illegal value is rejected as a whole: its code stands in the last-write-status register of
its set, and nothing else differs from the state in which the register's core is awake (R7). -/
def Obligations.RejectedWritesChangeOnlyTheStatus : Prop :=
  ∀ (src : Src) (off : BitVec 26) (v : DWord) (s : State) (r : Reg) (i : Nat), s.arrives src = true → State.fromVf src = false → s.holds src = false →
    off.toNat % 4 = 0 → off.toNat < 0xC10000 ∨ 0x1200000 ≤ off.toNat ∧ off.toNat < 0x3000000 → regAt off.toNat = some (r, i) →
    let w : Word := v.setWidth 32
    let s1 := s.wakeFor r i
    let code := if w.toNat &&& (0xFFFFFFFF ^^^ r.known) ≠ 0 then .badField else s1.regCheck r i w
    code ≠ .ok →
    ∃ t, exec (.registerWrite src off 4 v) s = .next t ∧ t.fld (r.last i).1 (r.last i).2 7 0 = code.toNat ∧
      (∀ q j, q.key j ≠ (r.last i).1.key (r.last i).2 → t.reg q j = s1.reg q j) ∧ { t with regs := s1.regs } = s1

/-- FLT with a code of 0x00 or above 0x13 is rejected with BAD_FIELD, and its launch ends with BAD_FIELD (R96).
XLT_FCMP is rejected with STATE when the ID is not open and with RANGE when the status is no code; state is unchanged but for
the last-write status (R318). -/
def Obligations.FltAndFaultCompletionRejections : Prop :=
  (
    ∀ (c : CoreId) (w : IWord) (s : State), Issues s c.val w none [] → w.imm.toNat % 256 = 0 ∨ 0x13 < w.imm.toNat % 256 →
      let s1 := s.afterFetch c.val none
      ∃ t, exec (.flt c w) s = .next t ∧ (t.core c.val).run = .stopped ∧ (t.core c.val).fault = .badField ∧
        (t.core c.val).faultPc = (s1.core c.val).pc ∧
        ∀ l x, s1.launchOf c.val = some (l, x) → x.phase = .running → ∃ y, t.launch l = some y ∧ y.phase = .ending ∧
          y.code = .badField) ∧
  (
    ∀ (src : Src) (v : Word) (s : State), s.reaches src .xltFcmp = true → State.fromVf src = false → s.holds src = false → v.toNat < 2 ^ 20 →
      let closed := s.recs.get? (v.toNat % 4096) = none
      let unknown := Code.ofByte (v.toNat / 4096) = none
      (closed → ¬ unknown → exec (.xltFcmp src v) s = .next (s.recordLast (.xltLast, 0) .state)) ∧
      (¬ closed → unknown → exec (.xltFcmp src v) s = .next (s.recordLast (.xltLast, 0) .range)) ∧
      (closed → unknown → ∃ code, (code = .state ∨ code = .range) ∧
        exec (.xltFcmp src v) s = .next (s.recordLast (.xltLast, 0) code)) ∧
      (∀ code r i, r.key i ≠ Reg.key .xltLast 0 → (s.recordLast (.xltLast, 0) code).reg r i = s.reg r i) ∧
      (∀ code, (s.recordLast (.xltLast, 0) code).fld .xltLast 0 7 0 = code.toNat ∧
        { s.recordLast (.xltLast, 0) code with regs := s.regs } = s))

/-- A VF's BAR2 admits an access only when every byte lies in one of its four windows; another is dropped, or answered with
Unsupported Request, with PROTECTION as the last status. PF0 reaches all of working memory (R382; a write to a sealed pool is
R462's).
A VF's doorbell write to a queue of another function's context is dropped with PROTECTION; its reads of unassigned offsets
return zero and its writes there are dropped, with RANGE (R380). -/
def Obligations.FunctionsReachTheirOwn : Prop :=
  (
    ∀ (port : Fin 2) (fn : Fin 64) (a : BitVec 41) (bs : List Byte) (s : State), s.portUp port.val = true → s.appears port.val fn.val = true → s.cis.wf = true →
      0 < bs.length →
      let n := bs.length
      let holds := fun (w x : Nat) =>
        let win := (s.reg .fnWin (4 * (fn.val - 1) + w)).toNat
        win % 2 ^ 16 * 2 ^ 28 ≤ x ∧ x < (win % 2 ^ 16 + win / 2 ^ 16) * 2 ^ 28
      let inside := ∀ i, i < n → ∃ w, w < 4 ∧ holds w (a.toNat + i)
      (fn.val ≠ 0 → ¬ inside →
        exec (.hostBar2Write port fn a bs) s = .next (s.recordLast (.hifLast, 0) .protection) ∧
        exec (.hostBar2Read port fn a n) s = .next ((s.recordLast (.hifLast, 0) .protection).emit .unsupported)) ∧
      (fn.val = 0 ∨ inside → a.toNat + n ≤ s.workSize →
        exec (.hostBar2Read port fn a n) s = .next (s.emit (.readData (s.cisBytes a.toNat n 0) (s.cisBad a.toNat n))) ∧
        (s.touchesSealed a.toNat n = false → ∃ t, exec (.hostBar2Write port fn a bs) s = .next t ∧ s.Stored t a.toNat bs ∧
          { t with cis := s.cis, cisKey := s.cisKey, cisPoison := s.cisPoison } = s))) ∧
  (
    ∀ (port : Fin 2) (fn : Fin 64) (off : BitVec 26) (v : DWord) (s : State), s.portUp port.val = true → s.appears port.val fn.val = true →
      s.holds (.host port fn) = false → fn.val ≠ 0 →
      off.toNat % 4 = 0 →
      (off.toNat < 0x1000000 → off.toNat % 0x1000 < 8 → s.ctxFn (s.qCtx (off.toNat / 0x1000)) ≠ fn.val →
        exec (.registerWrite (.host port fn) off 4 v) s = .next (s.recordFe (off.toNat / 0x1000) .protection)) ∧
      (0x1000400 ≤ off.toNat → ¬ (0x1001000 ≤ off.toNat ∧ off.toNat < 0x1001008) →
        exec (.registerWrite (.host port fn) off 4 v) s = .next (s.recordLast (.hifLast, 0) .range) ∧
        exec (.registerRead (.host port fn) off 4) s =
          .next ((s.recordLast (.hifLast, 0) .range).emit (.readData [0, 0, 0, 0] false))))

/-- The digest of words is the sum of each word mod p times the key's powers, p = 2^61 - 1, and the digest of a run of words is
the sum of those of its parts, each taken from its own place, in whatever order (R405). -/
def Obligations.DigestsAreSums : Prop :=
  digestP = 2 ^ 61 - 1 ∧
  ∀ (r k : Nat) (xs ys : List DWord), k + xs.length + ys.length ≤ 8192 →
    let bytes := fun (ws : List DWord) => ws.flatMap fun x => leBytes 8 x.toNat
    digestWords r k (bytes xs) =
      (xs.mapIdx fun i x => x.toNat % digestP * r ^ (k + i + 1)).sum % digestP ∧
    digestWords r k (bytes (xs ++ ys)) = (digestWords r (k + xs.length) (bytes ys) + digestWords r k (bytes xs)) % digestP
end

