-- ==== Sys2Proof/Laws/State.lean ====
section
/-!
SUPPORT. Tables, memories and the fields of the state under their updates: what a read gives after a write.
-/

namespace Sys2Proof.Machine

/-! ### Tables -/

namespace SMap

variable {α : Type}

@[simp] theorem get?_nil (i : Nat) : get? ([] : SMap α) i = none := rfl

/-- A read of the key just set. -/
@[simp] theorem get?_set_self (m : SMap α) (i : Nat) (a : α) : get? (set m i a) i = some a := by
  induction m with
  | nil => simp [set, get?]
  | cons kv m ih =>
    obtain ⟨k, v⟩ := kv
    simp only [set]
    split
    · simp [get?]
    · split
      · simp [get?]
      · simp only [get?]
        rw [if_neg (by omega)]
        exact ih

/-- A read of another key. -/
theorem get?_set_ne (m : SMap α) {i j : Nat} (a : α) (h : j ≠ i) : get? (set m i a) j = get? m j := by
  induction m with
  | nil => simp [set, get?, Ne.symm h]
  | cons kv m ih =>
    obtain ⟨k, v⟩ := kv
    simp only [set]
    split
    · simp [get?, Ne.symm h]
    · split
      · rename_i hk
        subst hk
        simp [get?, Ne.symm h]
      · simp only [get?, ih]

@[simp] theorem getD_set_self (m : SMap α) (i : Nat) (a d : α) : getD (set m i a) i d = a := by simp [getD]

theorem getD_set_ne (m : SMap α) {i j : Nat} (a d : α) (h : j ≠ i) : getD (set m i a) j d = getD m j d := by
  simp [getD, get?_set_ne m a h]

/-- A key erased is gone. -/
@[simp] theorem get?_erase_self (m : SMap α) (i : Nat) : get? (erase m i) i = none := by
  induction m with
  | nil => rfl
  | cons kv m ih =>
    obtain ⟨k, v⟩ := kv
    simp only [erase]
    split
    · exact ih
    · rename_i h
      simpa [get?, h] using ih

theorem get?_erase_ne (m : SMap α) {i j : Nat} (h : j ≠ i) : get? (erase m i) j = get? m j := by
  induction m with
  | nil => rfl
  | cons kv m ih =>
    obtain ⟨k, v⟩ := kv
    simp only [erase]
    split
    · rename_i hk
      subst hk
      simpa [get?, Ne.symm h] using ih
    · simp only [get?, ih]

@[simp] theorem getD_erase_self (m : SMap α) (i : Nat) (d : α) : getD (erase m i) i d = d := by simp [getD]

theorem getD_erase_ne (m : SMap α) {i j : Nat} (d : α) (h : j ≠ i) : getD (erase m i) j d = getD m j d := by
  simp [getD, get?_erase_ne m h]

/-- Setting a key twice leaves the second value. -/
@[simp] theorem set_set (m : SMap α) (i : Nat) (a b : α) : set (set m i a) i b = set m i b := by
  induction m with
  | nil => simp [set]
  | cons kv m ih =>
    obtain ⟨k, v⟩ := kv
    simp only [set]
    split
    · simp [set]
    · split
      · simp [set]
      · simp only [set, ih]
        rw [if_neg (by omega), if_neg (by omega)]

end SMap

/-! ### Memories -/

namespace Mem

theorem wfAbove_mono {m : Mem} {a b : Option Nat} (h : wfAbove a m = true)
    (hab : ∀ x, b = some x → ∃ y, a = some y ∧ x ≤ y) : wfAbove b m = true := by
  cases m with
  | nil => cases b <;> rfl
  | cons kb m =>
    obtain ⟨k, v⟩ := kb
    cases b with
    | none => simp only [wfAbove, Bool.and_eq_true] at h ⊢; exact ⟨⟨trivial, h.1.2⟩, h.2⟩
    | some x =>
      obtain ⟨y, rfl, hxy⟩ := hab x rfl
      simp only [wfAbove, Bool.and_eq_true, decide_eq_true_eq] at h ⊢
      exact ⟨⟨by omega, h.1.2⟩, h.2⟩

/-- A write keeps the form above a bound that lies below the address written. -/
theorem wfAbove_write {m : Mem} {lo : Option Nat} (a : Nat) (b : Byte) (h : wfAbove lo m = true)
    (hlo : ∀ l, lo = some l → l < a) : wfAbove lo (write m a b) = true := by
  induction m generalizing lo with
  | nil =>
    simp only [write]
    split
    · exact h
    · rename_i hb
      cases lo with
      | none => simp [wfAbove, hb]
      | some l => simp [wfAbove, hb, hlo l rfl]
  | cons kv m ih =>
    obtain ⟨k, x⟩ := kv
    have h' := h
    simp only [wfAbove, Bool.and_eq_true] at h
    simp only [write]
    split
    · split
      · exact h'
      · rename_i hak hb
        cases lo with
        | none => simp [wfAbove, hb, hak, h.2, h.1.2]
        | some l => simp [wfAbove, hb, hak, h.2, h.1.2, hlo l rfl]
    · split
      · rename_i hk
        subst hk
        split
        · refine wfAbove_mono h.2 fun y hy => ⟨a, rfl, ?_⟩
          subst hy
          have := h.1.1
          simp at this
          omega
        · rename_i hb
          simp only [wfAbove, Bool.and_eq_true]
          exact ⟨⟨h.1.1, by simp [hb]⟩, h.2⟩
      · simp only [wfAbove, Bool.and_eq_true]
        exact ⟨⟨h.1.1, h.1.2⟩, ih h.2 fun l hl => by cases hl; omega⟩

/-- A write of one byte keeps the canonical form. -/
theorem wf_write {m : Mem} (a : Nat) (b : Byte) (h : wf m = true) : wf (write m a b) = true :=
  wfAbove_write a b h (by simp)

/-- A write of a byte string keeps the canonical form. -/
theorem wf_writeL {m : Mem} (a : Nat) (bs : List Byte) (h : wf m = true) : wf (writeL m a bs) = true := by
  induction bs generalizing m a with
  | nil => exact h
  | cons b bs ih => exact ih _ (wf_write a b h)

theorem read_of_below {m : Mem} {l a : Nat} (h : wfAbove (some l) m = true) (ha : a ≤ l) : read m a = unlisted := by
  cases m with
  | nil => rfl
  | cons kv m =>
    obtain ⟨k, x⟩ := kv
    simp only [wfAbove, Bool.and_eq_true, decide_eq_true_eq] at h
    simp only [read]
    rw [if_neg (by omega), if_pos (by omega)]

/-- The byte written is read back. -/
@[simp] theorem read_write_self {m : Mem} {lo : Option Nat} (a : Nat) (b : Byte) (h : wfAbove lo m = true) :
    read (write m a b) a = b := by
  induction m generalizing lo with
  | nil =>
    simp only [write]
    split
    · rename_i hb; simp [read, hb]
    · simp [read]
  | cons kv m ih =>
    obtain ⟨k, x⟩ := kv
    simp only [wfAbove, Bool.and_eq_true] at h
    simp only [write]
    split
    · split
      · rename_i hak hb
        simp only [read]
        rw [if_neg (by omega), if_pos hak, hb]
      · simp [read]
    · split
      · rename_i hk
        subst hk
        split
        · rename_i hb; rw [read_of_below h.2 (Nat.le_refl _), hb]
        · simp [read]
      · simp only [read]
        rw [if_neg (by omega), if_neg (by omega)]
        exact ih h.2

/-- A write leaves every other byte alone. -/
theorem read_write_ne {m : Mem} {lo : Option Nat} {a c : Nat} (b : Byte) (h : wfAbove lo m = true) (hc : c ≠ a) :
    read (write m a b) c = read m c := by
  induction m generalizing lo with
  | nil =>
    simp only [write]
    split
    · rfl
    · simp [read, Ne.symm hc]
  | cons kv m ih =>
    obtain ⟨k, x⟩ := kv
    simp only [wfAbove, Bool.and_eq_true] at h
    simp only [write]
    split
    · split
      · rfl
      · rename_i hak _
        simp only [read]
        rw [if_neg (Ne.symm hc)]
        split
        · rw [if_neg (by omega), if_pos (by omega)]
        · rfl
    · split
      · rename_i hk
        subst hk
        split
        · simp only [read]
          rw [if_neg (Ne.symm hc)]
          split
          · exact read_of_below h.2 (by omega)
          · rfl
        · simp only [read]
          rw [if_neg (Ne.symm hc), if_neg (Ne.symm hc)]
      · simp only [read]
        split
        · rfl
        · split
          · rfl
          · exact ih h.2

/-- A byte outside the string written reads as before. -/
theorem read_writeL_out {m : Mem} {a c : Nat} (bs : List Byte) (h : wf m = true) (hc : c < a ∨ a + bs.length ≤ c) :
    read (writeL m a bs) c = read m c := by
  induction bs generalizing m a with
  | nil => rfl
  | cons b bs ih =>
    simp only [List.length_cons] at hc
    rw [writeL, ih (wf_write a b h) (by omega), read_write_ne b h (by omega)]

/-- A byte of the string written is read back. -/
theorem read_writeL_in {m : Mem} {a : Nat} (bs : List Byte) (h : wf m = true) (i : Nat) (hi : i < bs.length) :
    read (writeL m a bs) (a + i) = bs[i] := by
  induction bs generalizing m a i with
  | nil => simp at hi
  | cons b bs ih =>
    cases i with
    | zero =>
      rw [writeL, read_writeL_out bs (wf_write a b h) (by omega)]
      exact read_write_self a b h
    | succ i =>
      have := ih (wf_write a b h) (a := a + 1) i (by simpa using hi)
      rw [writeL, show a + (i + 1) = a + 1 + i by omega, this]
      simp

/-- A string written is read back whole. -/
theorem readN_writeL {m : Mem} (a : Nat) (bs : List Byte) (h : wf m = true) :
    readN (writeL m a bs) a bs.length = bs := by
  have aux : ∀ (n i : Nat), i + n = bs.length →
      readN (writeL m a bs) (a + i) n = bs.drop i := by
    intro n
    induction n with
    | zero => intro i hi; simp [readN]; omega
    | succ n ih =>
      intro i hi
      have hlt : i < bs.length := by omega
      rw [readN, read_writeL_in bs h i hlt, show a + i + 1 = a + (i + 1) by omega, ih (i + 1) (by omega),
        ← List.drop_eq_getElem_cons hlt]
  simpa using aux bs.length 0 (by omega)

end Mem

/-! ### Registers -/

namespace State

@[simp] theorem reg_setReg_self (s : State) (r : Reg) (i : Nat) (v : Word) : (s.setReg r i v).reg r i = v := by
  simp [reg, setReg]

theorem reg_setReg_ne (s : State) (r q : Reg) (i j : Nat) (v : Word) (h : q.key j ≠ r.key i) :
    (s.setReg r i v).reg q j = s.reg q j := by
  simp [reg, setReg, SMap.get?_set_ne s.regs v h]

/-! ### Cores -/

@[simp] theorem core_setCore_self (s : State) (p : Nat) (c : Core) : (s.setCore p c).core p = c := by
  simp [core, setCore]

theorem core_setCore_ne (s : State) (p q : Nat) (c : Core) (h : q ≠ p) : (s.setCore p c).core q = s.core q := by
  simp [core, setCore, SMap.getD_set_ne _ _ _ h]

@[simp] theorem setCore_setCore (s : State) (p : Nat) (c d : Core) : (s.setCore p c).setCore p d = s.setCore p d := by
  simp [setCore]

@[simp] theorem core_setReg (s : State) (p : Nat) (r : Reg) (i : Nat) (v : Word) :
    (s.setReg r i v).core p = s.core p := rfl

@[simp] theorem reg_setCore (s : State) (p : Nat) (c : Core) (r : Reg) (i : Nat) :
    (s.setCore p c).reg r i = s.reg r i := rfl

@[simp] theorem core_modCore_self (s : State) (p : Nat) (f : Core → Core) : (s.modCore p f).core p = f (s.core p) := by
  simp [modCore]

theorem core_modCore_ne (s : State) (p q : Nat) (f : Core → Core) (h : q ≠ p) : (s.modCore p f).core q = s.core q :=
  core_setCore_ne s p q _ h

/-! ### Scratchpads, launches, queues and messages -/

@[simp] theorem pad_setPad_self (s : State) (p : Nat) (m : Mem) : (s.setPad p m).pad p = m := by simp [pad, setPad]

theorem pad_setPad_ne (s : State) (p q : Nat) (m : Mem) (h : q ≠ p) : (s.setPad p m).pad q = s.pad q := by
  simp [pad, setPad, SMap.getD_set_ne _ _ _ h]

@[simp] theorem launch_setLaunch_self (s : State) (l : Nat) (x : Launch) : (s.setLaunch l x).launch l = some x := by
  simp [launch, setLaunch]

theorem launch_setLaunch_ne (s : State) (l k : Nat) (x : Launch) (h : k ≠ l) : (s.setLaunch l x).launch k = s.launch k := by
  simp [launch, setLaunch, SMap.get?_set_ne _ _ h]

@[simp] theorem queue_setQueue_self (s : State) (q : Nat) (x : Queue) : (s.setQueue q x).queue q = x := by
  simp [queue, setQueue]

theorem queue_setQueue_ne (s : State) (q k : Nat) (x : Queue) (h : k ≠ q) : (s.setQueue q x).queue k = s.queue k := by
  simp [queue, setQueue, SMap.getD_set_ne _ _ _ h]

@[simp] theorem queue_modQueue_self (s : State) (q : Nat) (f : Queue → Queue) : (s.modQueue q f).queue q = f (s.queue q) := by
  simp [modQueue]

@[simp] theorem emit_outbox (s : State) (o : Out) : (s.emit o).outbox = s.outbox ++ [o] := rfl

/-! ### The fields that an update leaves alone -/

@[simp] theorem setReg_pending (s : State) (r : Reg) (i : Nat) (v : Word) : (s.setReg r i v).pending = s.pending := rfl
@[simp] theorem setReg_addrs (s : State) (r : Reg) (i : Nat) (v : Word) : (s.setReg r i v).addrs = s.addrs := rfl
@[simp] theorem setReg_cores (s : State) (r : Reg) (i : Nat) (v : Word) : (s.setReg r i v).cores = s.cores := rfl
@[simp] theorem setReg_pads (s : State) (r : Reg) (i : Nat) (v : Word) : (s.setReg r i v).pads = s.pads := rfl
@[simp] theorem setReg_padPoison (s : State) (r : Reg) (i : Nat) (v : Word) : (s.setReg r i v).padPoison = s.padPoison := rfl
@[simp] theorem setReg_launches (s : State) (r : Reg) (i : Nat) (v : Word) : (s.setReg r i v).launches = s.launches := rfl
@[simp] theorem setReg_queues (s : State) (r : Reg) (i : Nat) (v : Word) : (s.setReg r i v).queues = s.queues := rfl
@[simp] theorem setReg_cis (s : State) (r : Reg) (i : Nat) (v : Word) : (s.setReg r i v).cis = s.cis := rfl
@[simp] theorem setReg_cisKey (s : State) (r : Reg) (i : Nat) (v : Word) : (s.setReg r i v).cisKey = s.cisKey := rfl
@[simp] theorem setReg_cisPoison (s : State) (r : Reg) (i : Nat) (v : Word) : (s.setReg r i v).cisPoison = s.cisPoison := rfl
@[simp] theorem setReg_host (s : State) (r : Reg) (i : Nat) (v : Word) : (s.setReg r i v).host = s.host := rfl
@[simp] theorem setReg_keys (s : State) (r : Reg) (i : Nat) (v : Word) : (s.setReg r i v).keys = s.keys := rfl
@[simp] theorem setReg_nextKey (s : State) (r : Reg) (i : Nat) (v : Word) : (s.setReg r i v).nextKey = s.nextKey := rfl
@[simp] theorem setReg_outbox (s : State) (r : Reg) (i : Nat) (v : Word) : (s.setReg r i v).outbox = s.outbox := rfl
@[simp] theorem setReg_free (s : State) (r : Reg) (i : Nat) (v : Word) : (s.setReg r i v).free = s.free := rfl
@[simp] theorem setReg_digQ (s : State) (r : Reg) (i : Nat) (v : Word) : (s.setReg r i v).digQ = s.digQ := rfl

@[simp] theorem setCore_pending (s : State) (p : Nat) (c : Core) : (s.setCore p c).pending = s.pending := rfl
@[simp] theorem setCore_regs (s : State) (p : Nat) (c : Core) : (s.setCore p c).regs = s.regs := rfl
@[simp] theorem setCore_addrs (s : State) (p : Nat) (c : Core) : (s.setCore p c).addrs = s.addrs := rfl
@[simp] theorem setCore_pads (s : State) (p : Nat) (c : Core) : (s.setCore p c).pads = s.pads := rfl
@[simp] theorem setCore_padPoison (s : State) (p : Nat) (c : Core) : (s.setCore p c).padPoison = s.padPoison := rfl
@[simp] theorem setCore_launches (s : State) (p : Nat) (c : Core) : (s.setCore p c).launches = s.launches := rfl
@[simp] theorem setCore_queues (s : State) (p : Nat) (c : Core) : (s.setCore p c).queues = s.queues := rfl
@[simp] theorem setCore_cis (s : State) (p : Nat) (c : Core) : (s.setCore p c).cis = s.cis := rfl
@[simp] theorem setCore_cisKey (s : State) (p : Nat) (c : Core) : (s.setCore p c).cisKey = s.cisKey := rfl
@[simp] theorem setCore_cisPoison (s : State) (p : Nat) (c : Core) : (s.setCore p c).cisPoison = s.cisPoison := rfl
@[simp] theorem setCore_host (s : State) (p : Nat) (c : Core) : (s.setCore p c).host = s.host := rfl
@[simp] theorem setCore_keys (s : State) (p : Nat) (c : Core) : (s.setCore p c).keys = s.keys := rfl
@[simp] theorem setCore_nextKey (s : State) (p : Nat) (c : Core) : (s.setCore p c).nextKey = s.nextKey := rfl
@[simp] theorem setCore_outbox (s : State) (p : Nat) (c : Core) : (s.setCore p c).outbox = s.outbox := rfl
@[simp] theorem setCore_free (s : State) (p : Nat) (c : Core) : (s.setCore p c).free = s.free := rfl
@[simp] theorem setCore_digQ (s : State) (p : Nat) (c : Core) : (s.setCore p c).digQ = s.digQ := rfl

@[simp] theorem setPad_pending (s : State) (p : Nat) (m : Mem) : (s.setPad p m).pending = s.pending := rfl
@[simp] theorem setPad_regs (s : State) (p : Nat) (m : Mem) : (s.setPad p m).regs = s.regs := rfl
@[simp] theorem setPad_addrs (s : State) (p : Nat) (m : Mem) : (s.setPad p m).addrs = s.addrs := rfl
@[simp] theorem setPad_cores (s : State) (p : Nat) (m : Mem) : (s.setPad p m).cores = s.cores := rfl
@[simp] theorem setPad_padPoison (s : State) (p : Nat) (m : Mem) : (s.setPad p m).padPoison = s.padPoison := rfl
@[simp] theorem setPad_launches (s : State) (p : Nat) (m : Mem) : (s.setPad p m).launches = s.launches := rfl
@[simp] theorem setPad_queues (s : State) (p : Nat) (m : Mem) : (s.setPad p m).queues = s.queues := rfl
@[simp] theorem setPad_cis (s : State) (p : Nat) (m : Mem) : (s.setPad p m).cis = s.cis := rfl
@[simp] theorem setPad_cisKey (s : State) (p : Nat) (m : Mem) : (s.setPad p m).cisKey = s.cisKey := rfl
@[simp] theorem setPad_cisPoison (s : State) (p : Nat) (m : Mem) : (s.setPad p m).cisPoison = s.cisPoison := rfl
@[simp] theorem setPad_host (s : State) (p : Nat) (m : Mem) : (s.setPad p m).host = s.host := rfl
@[simp] theorem setPad_keys (s : State) (p : Nat) (m : Mem) : (s.setPad p m).keys = s.keys := rfl
@[simp] theorem setPad_nextKey (s : State) (p : Nat) (m : Mem) : (s.setPad p m).nextKey = s.nextKey := rfl
@[simp] theorem setPad_outbox (s : State) (p : Nat) (m : Mem) : (s.setPad p m).outbox = s.outbox := rfl
@[simp] theorem setPad_free (s : State) (p : Nat) (m : Mem) : (s.setPad p m).free = s.free := rfl
@[simp] theorem setPad_digQ (s : State) (p : Nat) (m : Mem) : (s.setPad p m).digQ = s.digQ := rfl

@[simp] theorem setLaunch_pending (s : State) (l : Nat) (x : Launch) : (s.setLaunch l x).pending = s.pending := rfl
@[simp] theorem setLaunch_regs (s : State) (l : Nat) (x : Launch) : (s.setLaunch l x).regs = s.regs := rfl
@[simp] theorem setLaunch_addrs (s : State) (l : Nat) (x : Launch) : (s.setLaunch l x).addrs = s.addrs := rfl
@[simp] theorem setLaunch_cores (s : State) (l : Nat) (x : Launch) : (s.setLaunch l x).cores = s.cores := rfl
@[simp] theorem setLaunch_pads (s : State) (l : Nat) (x : Launch) : (s.setLaunch l x).pads = s.pads := rfl
@[simp] theorem setLaunch_padPoison (s : State) (l : Nat) (x : Launch) : (s.setLaunch l x).padPoison = s.padPoison := rfl
@[simp] theorem setLaunch_queues (s : State) (l : Nat) (x : Launch) : (s.setLaunch l x).queues = s.queues := rfl
@[simp] theorem setLaunch_cis (s : State) (l : Nat) (x : Launch) : (s.setLaunch l x).cis = s.cis := rfl
@[simp] theorem setLaunch_cisKey (s : State) (l : Nat) (x : Launch) : (s.setLaunch l x).cisKey = s.cisKey := rfl
@[simp] theorem setLaunch_cisPoison (s : State) (l : Nat) (x : Launch) : (s.setLaunch l x).cisPoison = s.cisPoison := rfl
@[simp] theorem setLaunch_host (s : State) (l : Nat) (x : Launch) : (s.setLaunch l x).host = s.host := rfl
@[simp] theorem setLaunch_keys (s : State) (l : Nat) (x : Launch) : (s.setLaunch l x).keys = s.keys := rfl
@[simp] theorem setLaunch_nextKey (s : State) (l : Nat) (x : Launch) : (s.setLaunch l x).nextKey = s.nextKey := rfl
@[simp] theorem setLaunch_outbox (s : State) (l : Nat) (x : Launch) : (s.setLaunch l x).outbox = s.outbox := rfl
@[simp] theorem setLaunch_free (s : State) (l : Nat) (x : Launch) : (s.setLaunch l x).free = s.free := rfl
@[simp] theorem setLaunch_digQ (s : State) (l : Nat) (x : Launch) : (s.setLaunch l x).digQ = s.digQ := rfl

@[simp] theorem setQueue_pending (s : State) (q : Nat) (x : Queue) : (s.setQueue q x).pending = s.pending := rfl
@[simp] theorem setQueue_regs (s : State) (q : Nat) (x : Queue) : (s.setQueue q x).regs = s.regs := rfl
@[simp] theorem setQueue_addrs (s : State) (q : Nat) (x : Queue) : (s.setQueue q x).addrs = s.addrs := rfl
@[simp] theorem setQueue_cores (s : State) (q : Nat) (x : Queue) : (s.setQueue q x).cores = s.cores := rfl
@[simp] theorem setQueue_pads (s : State) (q : Nat) (x : Queue) : (s.setQueue q x).pads = s.pads := rfl
@[simp] theorem setQueue_padPoison (s : State) (q : Nat) (x : Queue) : (s.setQueue q x).padPoison = s.padPoison := rfl
@[simp] theorem setQueue_launches (s : State) (q : Nat) (x : Queue) : (s.setQueue q x).launches = s.launches := rfl
@[simp] theorem setQueue_cis (s : State) (q : Nat) (x : Queue) : (s.setQueue q x).cis = s.cis := rfl
@[simp] theorem setQueue_cisKey (s : State) (q : Nat) (x : Queue) : (s.setQueue q x).cisKey = s.cisKey := rfl
@[simp] theorem setQueue_cisPoison (s : State) (q : Nat) (x : Queue) : (s.setQueue q x).cisPoison = s.cisPoison := rfl
@[simp] theorem setQueue_host (s : State) (q : Nat) (x : Queue) : (s.setQueue q x).host = s.host := rfl
@[simp] theorem setQueue_keys (s : State) (q : Nat) (x : Queue) : (s.setQueue q x).keys = s.keys := rfl
@[simp] theorem setQueue_nextKey (s : State) (q : Nat) (x : Queue) : (s.setQueue q x).nextKey = s.nextKey := rfl
@[simp] theorem setQueue_outbox (s : State) (q : Nat) (x : Queue) : (s.setQueue q x).outbox = s.outbox := rfl
@[simp] theorem setQueue_free (s : State) (q : Nat) (x : Queue) : (s.setQueue q x).free = s.free := rfl
@[simp] theorem setQueue_digQ (s : State) (q : Nat) (x : Queue) : (s.setQueue q x).digQ = s.digQ := rfl

@[simp] theorem emit_pending (s : State) (o : Out) : (s.emit o).pending = s.pending := rfl
@[simp] theorem emit_regs (s : State) (o : Out) : (s.emit o).regs = s.regs := rfl
@[simp] theorem emit_addrs (s : State) (o : Out) : (s.emit o).addrs = s.addrs := rfl
@[simp] theorem emit_cores (s : State) (o : Out) : (s.emit o).cores = s.cores := rfl
@[simp] theorem emit_pads (s : State) (o : Out) : (s.emit o).pads = s.pads := rfl
@[simp] theorem emit_padPoison (s : State) (o : Out) : (s.emit o).padPoison = s.padPoison := rfl
@[simp] theorem emit_launches (s : State) (o : Out) : (s.emit o).launches = s.launches := rfl
@[simp] theorem emit_queues (s : State) (o : Out) : (s.emit o).queues = s.queues := rfl
@[simp] theorem emit_cis (s : State) (o : Out) : (s.emit o).cis = s.cis := rfl
@[simp] theorem emit_cisKey (s : State) (o : Out) : (s.emit o).cisKey = s.cisKey := rfl
@[simp] theorem emit_cisPoison (s : State) (o : Out) : (s.emit o).cisPoison = s.cisPoison := rfl
@[simp] theorem emit_host (s : State) (o : Out) : (s.emit o).host = s.host := rfl
@[simp] theorem emit_keys (s : State) (o : Out) : (s.emit o).keys = s.keys := rfl
@[simp] theorem emit_nextKey (s : State) (o : Out) : (s.emit o).nextKey = s.nextKey := rfl
@[simp] theorem emit_free (s : State) (o : Out) : (s.emit o).free = s.free := rfl
@[simp] theorem emit_digQ (s : State) (o : Out) : (s.emit o).digQ = s.digQ := rfl

end State

end Sys2Proof.Machine
end

