-- ==== Sys2Proof/Laws/Issue.lean ====
section
/-!
SUPPORT. What the issue of an instruction can do: the operation shared by every Linzal instruction.
-/

namespace Sys2Proof.Machine

variable {s : State} {p : Nat} {w : IWord} {w2 : Option DWord} {regs : List RegRef}

/-- An instruction that issues with good fields runs its own operation. -/
theorem issue_runs {cls func : Nat} {fields : Bool} {body : State → Res} (h : Issues s p w w2 regs) (hf : fields = true) :
    issue cls func w w2 fields regs p body s =
      .next ((s.afterFetch p w2).finish p cls func w2 (body (s.afterFetch p w2))) := by
  obtain ⟨h1, h2, h3, h4, h5, h6⟩ := h
  simp only [State.afterFetch] at *
  cases hfe : s.fetch p w2.isSome with
  | mk code s1 =>
    rw [hfe] at h2 h3 h5 h6
    simp only at h2 h3 h5 h6
    subst h2 hf
    rw [issue, h1, hfe]
    simp only [Bool.not_true, Bool.false_eq_true, if_false, h3, h4, h5, h6]

/-- An instruction with a bad field is rejected with BAD_FIELD. -/
theorem issue_badField {cls func : Nat} {fields : Bool} {body : State → Res} (h : Issues s p w w2 regs) (hf : fields = false) :
    issue cls func w w2 fields regs p body s =
      .next ((s.afterFetch p w2).faultCore p cls func ((s.afterFetch p w2).core p).pc .badField) := by
  obtain ⟨h1, h2, h3, h4, h5, h6⟩ := h
  simp only [State.afterFetch] at *
  cases hfe : s.fetch p w2.isSome with
  | mk code s1 =>
    rw [hfe] at h2 h3 h5 h6
    simp only at h2 h3 h5 h6
    subst h2 hf
    rw [issue, h1, hfe]
    simp only [Bool.not_true, Bool.not_false, Bool.false_eq_true, if_false, if_true, h3, h4]

/-- A core that cannot issue does nothing. -/
theorem issue_idle {cls func : Nat} {fields : Bool} {body : State → Res} (h : s.canIssue p = false) :
    issue cls func w w2 fields regs p body s = .next s := by rw [issue, h]; rfl

/-- Issue never stops the machine. -/
theorem issue_next {cls func : Nat} {fields : Bool} {body : State → Res} :
    ∃ t, issue cls func w w2 fields regs p body s = .next t := by
  unfold issue
  repeat' split
  all_goals exact ⟨_, rfl⟩

theorem coreOnly_setCore (s : State) (p : Nat) (k : Core) : State.CoreOnly s (s.setCore p k) p k :=
  ⟨by simp, fun _ h => State.core_setCore_ne s _ _ k h, rfl⟩

/-- An operation that rewrites its core alone completes. -/
theorem completes_of_ok {i : Instr} {cls func : Nat} {k : Core}
    (h : exec i s = .next ((s.afterFetch p w2).finish p cls func w2 (.ok ((s.afterFetch p w2).setCore p k)))) :
    Completes i s p w2 k (State.nextPc ((s.afterFetch p w2).core p).pc w2) := by
  refine ⟨_, h, ?_⟩
  simp only [State.finish, State.retire, State.modCore, State.core_setCore_self, State.setCore_setCore]
  exact coreOnly_setCore _ _ _

/-- The same for an operation that jumps. -/
theorem completes_of_jump {i : Instr} {cls func : Nat} {k : Core} {pc : BitVec 57}
    (h : exec i s = .next ((s.afterFetch p w2).finish p cls func w2 (.jump ((s.afterFetch p w2).setCore p k) pc))) :
    Completes i s p w2 k pc := by
  refine ⟨_, h, ?_⟩
  simp only [State.finish, State.retire, State.modCore, State.core_setCore_self, State.setCore_setCore]
  exact coreOnly_setCore _ _ _

end Sys2Proof.Machine
end

