-- ==== Sys2Proof/Laws/Memory.lean ====
section
/-!
SUPPORT. What a write to working memory or to a scratchpad can do (R240, R417, R462).
-/

namespace Sys2Proof.Machine

theorem Mem.readN_length (m : Mem) (a n : Nat) : (m.readN a n).length = n := by
  induction n generalizing a with
  | zero => rfl
  | succ n ih => simp [Mem.readN, ih]

theorem Mem.readN_getElem (m : Mem) (a n i : Nat) (h : i < (m.readN a n).length) : (m.readN a n)[i] = m.read (a + i) := by
  induction n generalizing a i with
  | zero => simp [Mem.readN] at h
  | succ n ih =>
    cases i with
    | zero => simp [Mem.readN]
    | succ i =>
      simp only [Mem.readN, List.getElem_cons_succ]
      rw [ih]
      congr 1
      omega

theorem Mem.readN_congr {m m' : Mem} {a n : Nat} (h : ∀ i, i < n → m'.read (a + i) = m.read (a + i)) :
    m'.readN a n = m.readN a n := by
  induction n generalizing a with
  | zero => rfl
  | succ n ih =>
    simp only [Mem.readN]
    rw [show m'.read a = m.read a by simpa using h 0 (by omega), ih fun i hi => ?_]
    have := h (i + 1) (by omega)
    rwa [show a + (i + 1) = a + 1 + i by omega] at this

/-- The granules of a range are those of its bytes. -/
theorem mem_granules {a n g : Nat} : g ∈ granules a n ↔ 0 < n ∧ a / 64 ≤ g ∧ g ≤ (a + n - 1) / 64 := by
  unfold granules
  split
  · rename_i h; simp [h]
  · simp only [List.mem_map, List.mem_range]
    constructor
    · rintro ⟨x, hx, rfl⟩; omega
    · rintro ⟨_, h1, h2⟩; exact ⟨g - a / 64, by omega, by omega⟩

theorem granule_of_byte {a n x : Nat} (h1 : a ≤ x) (h2 : x < a + n) : x / 64 ∈ granules a n := by
  rw [mem_granules]
  exact ⟨by omega, Nat.div_le_div_right h1, Nat.div_le_div_right (by omega)⟩

namespace State

/-- Key under which a granule was encrypted; zero for none. -/
theorem granuleAs_length (s : State) (g key : Nat) : (s.granuleAs g key).length = 64 := by
  simp only [granuleAs]
  split
  · exact Mem.readN_length _ _ _
  · simp

theorem granuleAs_congr {s t : State} {g key : Nat} (hk : t.cisKey.getD g 0 = s.cisKey.getD g 0)
    (hb : t.cis.readN (64 * g) 64 = s.cis.readN (64 * g) 64) : t.granuleAs g key = s.granuleAs g key := by
  simp only [granuleAs, hk, hb]

/-- A byte under a key is the byte of its granule under that key. -/
theorem byteAs_eq (s : State) (key x : Nat) : s.byteAs key x = ((s.granuleAs (x / 64) key).drop (x % 64)).take 1 := by
  have hg : granules x 1 = [x / 64] := by simp [granules]
  simp only [byteAs, cisBytes, hg, List.all_cons, List.all_nil, Bool.and_true, List.flatMap_cons, List.flatMap_nil,
    List.append_nil, beq_iff_eq]
  split
  · rename_i h
    have hlt : x % 64 < (s.cis.readN (64 * (x / 64)) 64).length := by rw [Mem.readN_length]; omega
    rw [granuleAs, if_pos h, List.drop_eq_getElem_cons hlt, Mem.readN_getElem]
    simp only [Mem.readN, List.take_succ_cons, List.take_zero]
    rw [show 64 * (x / 64) + x % 64 = x by omega]
  · rfl

/-- One granule brought under a key. -/
theorem rekey_cons (s : State) (key g : Nat) (gs : List Nat) :
    s.rekey key (g :: gs) = (s.rekey key [g]).rekey key gs := by
  simp only [rekey]
  split <;> rfl

/-- What bringing granules under a key can do: their key changes, what they read as under it does not, and other granules
stay as they are. -/
theorem rekey_spec (key : Nat) (gs : List Nat) : ∀ s : State, s.cis.wf = true →
    (s.rekey key gs).cis.wf = true ∧
    (∀ g, g ∈ gs → (s.rekey key gs).cisKey.getD g 0 = key) ∧
    (∀ g, g ∉ gs → (s.rekey key gs).cisKey.getD g 0 = s.cisKey.getD g 0) ∧
    (∀ g, (s.rekey key gs).granuleAs g key = s.granuleAs g key) ∧
    (∀ x, x / 64 ∉ gs → (s.rekey key gs).cis.read x = s.cis.read x) ∧
    { s.rekey key gs with cis := s.cis, cisKey := s.cisKey } = s := by
  have one : ∀ (g : Nat) (s : State), s.cis.wf = true →
      (s.rekey key [g]).cis.wf = true ∧ (s.rekey key [g]).cisKey.getD g 0 = key ∧
      (∀ h, h ≠ g → (s.rekey key [g]).cisKey.getD h 0 = s.cisKey.getD h 0) ∧
      (∀ h, (s.rekey key [g]).granuleAs h key = s.granuleAs h key) ∧
      (∀ x, x / 64 ≠ g → (s.rekey key [g]).cis.read x = s.cis.read x) ∧
      { s.rekey key [g] with cis := s.cis, cisKey := s.cisKey } = s := by
    intro g s hw
    simp only [rekey]
    split
    · rename_i h
      exact ⟨hw, h, fun _ _ => rfl, fun _ => rfl, fun _ _ => rfl, rfl⟩
    · rename_i hk
      have hlen := s.granuleAs_length g key
      have out : ∀ x, x / 64 ≠ g →
          (s.cis.writeL (64 * g) (s.granuleAs g key)).read x = s.cis.read x := fun x hx =>
        Mem.read_writeL_out _ hw (by omega)
      have hkey : ∀ h : Nat, (if key = 0 then s.cisKey.erase g else s.cisKey.set g key).getD h 0 =
          if h = g then key else s.cisKey.getD h 0 := by
        intro h
        by_cases hh : h = g
        · subst hh; by_cases h0 : key = 0 <;> simp [h0]
        · rw [if_neg hh]
          split
          · exact SMap.getD_erase_ne _ _ hh
          · exact SMap.getD_set_ne _ _ _ hh
      refine ⟨Mem.wf_writeL _ _ hw, by simpa using hkey g, fun h hh => by simpa [hh] using hkey h, fun h => ?_, out, rfl⟩
      by_cases hh : h = g
      · subst hh
        have e : (s.cis.writeL (64 * h) (s.granuleAs h key)).readN (64 * h) 64 = s.granuleAs h key := by
          have := Mem.readN_writeL (64 * h) (s.granuleAs h key) hw
          rwa [hlen] at this
        conv_lhs => rw [granuleAs]
        simp only [hkey h, if_true, e]
      · refine granuleAs_congr (by simpa [hh] using hkey h) ?_
        exact Mem.readN_congr fun i hi => out _ (by omega)
  induction gs with
  | nil => intro s hw; exact ⟨hw, by simp, fun _ _ => rfl, fun _ => rfl, fun _ _ => rfl, rfl⟩
  | cons g gs ih =>
    intro s hw
    obtain ⟨a1, a2, a3, a4, a5, a6⟩ := one g s hw
    obtain ⟨b1, b2, b3, b4, b5, b6⟩ := ih _ a1
    rw [rekey_cons]
    refine ⟨b1, fun h hh => ?_, fun h hh => ?_, fun h => (b4 h).trans (a4 h), fun x hx => ?_, ?_⟩
    · by_cases hm : h ∈ gs
      · exact b2 h hm
      · rcases List.mem_cons.mp hh with rfl | h'
        · rw [b3 h hm, a2]
        · exact absurd h' hm
    · simp only [List.mem_cons, not_or] at hh
      rw [b3 h hh.2, a3 h hh.1]
    · simp only [List.mem_cons, not_or] at hx
      rw [b5 x hx.2, a5 x hx.1]
    · rw [← b6] at a6
      exact a6

/-- What a write to working memory can do. -/
theorem cisWrite_stored (s : State) (a : Nat) (bs : List Byte) (poison : Bool) (hw : s.cis.wf = true) :
    (s.cisWrite a bs poison).cis.wf = true ∧ s.Stored (s.cisWrite a bs poison) a bs := by
  obtain ⟨r1, r2, r3, r4, r5, _⟩ := rekey_spec (s.keyAt a) (granules a bs.length) s hw
  have inside : ∀ x, x / 64 ∈ granules a bs.length →
      (s.cisWrite a bs poison).byteAs (s.keyAt a) x = [(s.cisWrite a bs poison).cis.read x] := by
    intro x hx
    have hk : (s.cisWrite a bs poison).cisKey.getD (x / 64) 0 = s.keyAt a := r2 _ hx
    have hlt : x % 64 < ((s.cisWrite a bs poison).cis.readN (64 * (x / 64)) 64).length := by rw [Mem.readN_length]; omega
    rw [byteAs_eq, granuleAs, if_pos hk, List.drop_eq_getElem_cons hlt, Mem.readN_getElem]
    simp only [List.take_succ_cons, List.take_zero]
    rw [show 64 * (x / 64) + x % 64 = x by omega]
  refine ⟨Mem.wf_writeL _ _ r1, fun i hi => ?_, fun x hx => ?_, fun x hx => ⟨?_, r3 _ hx⟩⟩
  · rw [inside _ (granule_of_byte (by omega) (by omega))]
    exact congrArg (· :: []) (Mem.read_writeL_in bs r1 i hi)
  · by_cases hg : x / 64 ∈ granules a bs.length
    · have hk : (s.rekey (s.keyAt a) (granules a bs.length)).cisKey.getD (x / 64) 0 = s.keyAt a := r2 _ hg
      have hlt : x % 64 < ((s.rekey (s.keyAt a) (granules a bs.length)).cis.readN (64 * (x / 64)) 64).length := by
        rw [Mem.readN_length]; omega
      rw [inside x hg, byteAs_eq s, ← r4 (x / 64), granuleAs, if_pos hk, List.drop_eq_getElem_cons hlt, Mem.readN_getElem]
      simp only [List.take_succ_cons, List.take_zero]
      rw [show 64 * (x / 64) + x % 64 = x by omega]
      exact congrArg (· :: []) (Mem.read_writeL_out bs r1 hx)
    · have e : (s.cisWrite a bs poison).granuleAs (x / 64) (s.keyAt a) = s.granuleAs (x / 64) (s.keyAt a) := by
        refine granuleAs_congr (r3 _ hg) (Mem.readN_congr fun i hi => ?_)
        refine (Mem.read_writeL_out bs r1 ?_).trans (r5 _ ?_)
        · rw [mem_granules] at hg
          omega
        · rwa [show (64 * (x / 64) + i) / 64 = x / 64 by omega]
      rw [byteAs_eq, byteAs_eq, e]
  · refine (Mem.read_writeL_out bs r1 ?_).trans (r5 _ hx)
    rw [mem_granules] at hx
    omega

end State

end Sys2Proof.Machine
end

