-- ==== Sys2Proof/Tests/Slice0.lean ====
section
/-!
SUPPORT. Tests: ill-formed commands that the check of well-formed commands refuses, single steps whose results the spec
gives, and for every statement that has hypotheses a small state and operands that meet them.
-/

namespace Sys2Proof.Tests

open Sys2Proof Sys2Proof.Machine

set_option Elab.async false

/-! ### Helpers -/

/-- An instruction word. -/
def iw (d a b i : Nat) : IWord := ⟨BitVec.ofNat 6 d, BitVec.ofNat 6 a, BitVec.ofNat 6 b, false, false, BitVec.ofNat 32 i⟩

/-- The conditions of `Issues` as one test. -/
def issuesB (s : State) (p : Nat) (w : IWord) (w2 : Option DWord) (regs : List RegRef) : Bool :=
  s.canIssue p && decide ((s.fetch p w2.isSome).1 = .ok) && !((s.afterFetch p w2).askedWay p && w.yld) && State.markerOk w2 &&
  !(w.dep && !((s.afterFetch p w2).dmaJobs p).isEmpty) && !((s.afterFetch p w2).core p).isBusy regs

theorem issues_of {s : State} {p : Nat} {w : IWord} {w2 : Option DWord} {regs : List RegRef}
    (h : issuesB s p w w2 regs = true) : Issues s p w w2 regs := by
  simp only [issuesB, Bool.and_eq_true, decide_eq_true_eq, Bool.not_eq_true'] at h
  obtain ⟨⟨⟨⟨⟨a, b⟩, c⟩, d⟩, e⟩, f⟩ := h
  exact ⟨a, b, c, d, e, f⟩

/-- The conditions of `Local` as one test. -/
def localB (s : State) (p va n : Nat) (write : Bool) (a : Nat) : Bool :=
  s.ctxOn (s.core p).ctx && s.mayTouch (s.core p).ctx a n &&
  match s.tlbHit p (s.core p).ctx va with
  | some l => (!write || l.wr) && decide (s.place l va = .cis a)
  | none => false

theorem local_of {s : State} {p va n : Nat} {write : Bool} {a : Nat} (h : localB s p va n write a = true) :
    Local s p va n write a := by
  simp only [localB, Bool.and_eq_true] at h
  obtain ⟨⟨a, b⟩, c⟩ := h
  refine ⟨a, ?_, b⟩
  split at c
  · rename_i l hl
    simp only [Bool.and_eq_true, Bool.or_eq_true, Bool.not_eq_true', decide_eq_true_eq] at c
    exact ⟨l, hl, fun hw => by simpa [hw] using c.1, c.2⟩
  · cases c

/-- The conditions of `Accepted` as one test. -/
def acceptedB (s : State) (src : Src) (r : Reg) (i : Nat) (v : Word) (check : Code) : Bool :=
  s.reaches src r && !State.fromVf src && !s.holds src && decide (v.toNat &&& (0xFFFFFFFF ^^^ r.known) = 0) &&
  decide (check = .ok) && (notConfig r v || decide (s.digQ.length < 4096)) && decide (i = i)

theorem accepted_of {s : State} {src : Src} {r : Reg} {i : Nat} {v : Word} {check : Code}
    (h : acceptedB s src r i v check = true) : Accepted s src r i v check := by
  simp only [acceptedB, Bool.and_eq_true, Bool.or_eq_true, decide_eq_true_eq, Bool.not_eq_true'] at h
  obtain ⟨⟨⟨⟨⟨⟨a, b⟩, h⟩, c⟩, d⟩, e⟩, _⟩ := h
  exact ⟨a, b, h, c, d, e⟩

/-- A launch of one core, core 0. -/
def launch0 : Launch where
  seq := 1
  phase := .running
  queue := 0
  sqHead := 0
  tag := 0
  irqNow := false
  first := 0
  clusters := 1
  cls := 0
  ctx := 0
  image := 0
  param := 0x10000
  restartable := false
  retries := 0
  minCores := 1
  codeSize := 0x1000
  entry := 0
  count := 8
  ind := 0
  tids := []
  windows := []
  cores := [0]
  pins := []
  code := .ok
  unit := 0xFFF
  info := 0
  tries := 1
  since := 0
  started := 0
  startedNow := 0
  asked := false
  askedSince := 0
  reserved := false
  barriers := []
  passed := []
  tasks := []
  halts := []
  issued := []

/-- A core of that launch at PC 256, with the lines of its code in the instruction cache. -/
def core0 : Core := { Core.reset with run := .running, launch := some 0, pc := 256, icache := [4, 5] }

/-- The same with a few values in its scalar registers. -/
def regs0 : Core := (((((core0.setS 1 10).setS 2 0xFFFFFFFFFFFFFFF8).setS 3 0x40000000).setS 4 0x8000000000000000).setS 5 64).setS 6
  0x3F800000

/-- The module running, with working memory of 648 times 256 MiB and the launch. -/
def on : State := State.setReg ({ State.reset with
  power := .on, bootDue := false, launches := [(0, launch0)], nextLaunch := 1, perst := [] } : State) .cisWork 0 648

/-- Core 0 runs and can issue. -/
def st0 : State := { on with cores := [(0, regs0)] }

/-- The same with predicates 1 and 2 set. -/
def st1 : State := st0.setCore 0 ((regs0.setP 1 true).setP 2 true)

/-- A line of bytes. -/
def line1 : List Byte := (List.range 64).map fun i => BitVec.ofNat 8 (200 - 3 * i)

/-- Context 0 is on and core 0's TLB maps its first page to working memory at 0, where one line is written. -/
def stMem : State := { ((st0.setFlag .ctxCfg 0 0 true).modCore 0 fun k => { k with tlb := [⟨0, 0, 0, ⟨false, true, false, 0⟩⟩] }) with
  cis := Mem.writeL [] 64 line1 }

/-- The same with that line in the data cache. -/
def stHit : State := stMem.modCore 0 fun k => { k with dcache := [⟨64, 64, line1⟩] }

/-- The state after meanings run one after another. -/
def goes (l : List (State → Outcome)) (s : State) : State := l.foldl (fun s f => match f s with | .next t => t | _ => s) s

/-! ### Witnesses: the core -/

theorem wit_StepRunsTheFrontCommand :
    ({ st0 with pending := [Instr.nop 0 (iw 0 0 0 0)] } : State).pending = [Instr.nop 0 (iw 0 0 0 0)] := rfl

theorem wit_IdleStepIsAKeeperTick : State.reset.pending = [] ∧ ({ st0 with power := .off } : State).pending = [] ∧
    ({ st0 with power := .keeper } : State).pending = [] ∧ st0.pending = [] ∧ st0.power = .on := by decide +kernel

theorem wit_ScalarIntegerResults :
    Issues st0 0 (iw 7 1 2 0) none (sRegs [7, 1, 2]) ∧ Issues st0 0 (iw 63 1 0 63) none (sRegs [63, 1]) ∧
    Issues st0 0 (iw 7 0 0 1) none (sRegs [7]) ∧ Issues st0 0 (iw 0 0 0 0) none [] :=
  ⟨issues_of (by decide +kernel), issues_of (by decide +kernel), issues_of (by decide +kernel), issues_of (by decide +kernel)⟩

theorem wit_ScalarIntegerResults_predicates :
    Issues st0 0 (iw 7 1 2 5) none (.p 7 :: sRegs [1, 2]) ∧ Issues st0 0 (iw 7 1 5 9) none (.p 7 :: sRegs [1]) ∧
    Issues st0 0 (iw 7 1 2 7) none (.p 7 :: sRegs [7, 1, 2]) ∧ Issues st0 0 (iw 7 1 7 3) none [.p 7, .p 1, .p 7] :=
  ⟨issues_of (by decide +kernel), issues_of (by decide +kernel), issues_of (by decide +kernel), issues_of (by decide +kernel)⟩

theorem wit_ScalarFloatResults :
    Issues st0 0 (iw 7 6 6 0) none (sRegs [7, 6, 6]) ∧ Issues st0 0 (iw 7 6 0 0) none (sRegs [7, 6]) :=
  ⟨issues_of (by decide +kernel), issues_of (by decide +kernel)⟩

theorem wit_HardwiredRegisters : (63 : BitVec 6) ≠ 0 := by decide +kernel

theorem wit_BranchTargets :
    Issues st0 0 (iw 0 0 0 8) none [] ∧ Issues st1 0 (iw 0 1 0 8) none [.p 1] ∧ Issues st0 0 (iw 1 0 0 8) none (sRegs [1]) ∧
    (Issues st0 0 (iw 0 5 0 0) none (sRegs [5]) ∧ (((st0.afterFetch 0 none).core 0).getS 5).toNat % 8 = 0) ∧
    Issues st0 0 (iw 7 5 0 0) none (sRegs [7, 5]) :=
  ⟨issues_of (by decide +kernel), issues_of (by decide +kernel), issues_of (by decide +kernel), ⟨issues_of (by decide +kernel), by decide +kernel⟩,
    issues_of (by decide +kernel)⟩

theorem wit_LoadsReadAndReturn_hit :
    let s1 := stHit.afterFetch 0 none
    let va := devAddr (s1.core 0) (iw 7 5 0 56)
    Issues stHit 0 (iw 7 5 0 56) none (sRegs [7, 5]) ∧ va % 8 = 0 ∧ Local s1 0 va 8 false 120 ∧
    (s1.afterTlb 0 va).loadUnperformed 0 = false ∧ (s1.afterTlb 0 va).dcacheHit 0 120 8 = some (line1.drop 56) :=
  ⟨issues_of (by decide +kernel), by decide +kernel, local_of (by decide +kernel), by decide +kernel, by decide +kernel⟩

theorem wit_LoadsReadAndReturn_miss :
    let s1 := stMem.afterFetch 0 none
    let va := devAddr (s1.core 0) (iw 7 5 0 32)
    Issues stMem 0 (iw 7 5 0 32) none (sRegs [7, 5]) ∧ Issues stMem 0 (iw 7 5 0 32) none [.t 7, .s 5] ∧ va % 32 = 0 ∧
    Local s1 0 va 32 false 96 ∧ (s1.afterTlb 0 va).loadUnperformed 0 = false ∧
    (s1.afterTlb 0 va).dcacheHit 0 96 32 = none ∧ (s1.afterTlb 0 va).cisBad 96 32 = false :=
  ⟨issues_of (by decide +kernel), issues_of (by decide +kernel), by decide +kernel, local_of (by decide +kernel), by decide +kernel, by decide +kernel, by decide +kernel⟩

/-- Core 0 with one load whose data has been read. -/
def returning (kind : LoadKind) (fill : Option (Nat × Nat × List Byte)) : State := stMem.modCore 0 fun k => { k with
  loads := [⟨kind, 256, 2, 0, some (line1.take 8), false, none, fill, 0, 0, 64⟩], busy := [.s 7] }

theorem wit_LoadsReadAndReturn_return :
    ∀ s ∈ [returning (.scalar 7 8 false) none, returning (.desc 3) none, returning (.scalar 7 4 true) (some (64, 64, line1))],
      (((s.core 0).loads.find? fun l => l.data.isSome || (l.kind.isSlot && l.tag.isNone)).map fun l => (l.data, l.poison)) = some (some (line1.take 8), false) := by
  decide

theorem wit_LoadsReadAndReturn_poison :
    let s := (returning (.scalar 7 8 false) none).modCore 0 fun k => { k with loads := k.loads.map fun l => { l with poison := true } }
    (((s.core 0).loads.find? fun l => l.data.isSome || (l.kind.isSlot && l.tag.isNone)).map fun l => (l.kind.isSlot, l.poison)) =
      some (false, true) := by decide +kernel

theorem wit_LoadsReadAndReturn_slot :
    let s := stMem.modCore 0 fun k => { k with
      loads := [⟨.slot false 7 [] [2] false none, 256, 0, 0x13, none, false, none, none, 0, 0, 0⟩] }
    (((s.core 0).loads.find? fun l => l.data.isSome || (l.kind.isSlot && l.tag.isNone)).map fun l => l.kind.isSlot) =
      some true := by decide +kernel

theorem wit_StoresAndAtomics :
    let s1 := stMem.afterFetch 0 none
    let va := devAddr (s1.core 0) (iw 0 5 2 32)
    stMem.cis.wf = true ∧ Issues stMem 0 (iw 0 5 2 32) none (sRegs [5, 2]) ∧ Issues stMem 0 (iw 0 5 2 32) none [.s 5, .t 2] ∧
    va % 32 = 0 ∧ Local s1 0 va 32 true 96 ∧ Issues stMem 0 (iw 7 5 2 32) none (sRegs [7, 5, 2]) ∧
    devAddr (s1.core 0) (iw 7 5 2 32) % 8 = 0 ∧ Local s1 0 va 8 true 96 ∧ (s1.afterTlb 0 va).loadUnperformed 0 = false ∧
    (s1.afterTlb 0 va).cisBad 96 8 = false :=
  ⟨by decide +kernel, issues_of (by decide +kernel), issues_of (by decide +kernel), by decide +kernel, local_of (by decide +kernel), issues_of (by decide +kernel), by decide +kernel,
    local_of (by decide +kernel), by decide +kernel, by decide +kernel⟩

theorem wit_ScratchpadAccesses :
    let s1 := st0.afterFetch 0 none
    let a := padAddr (s1.core 0) (iw 7 0 0 0xFFFE0)
    Issues st0 0 (iw 7 0 0 0xFFFE0) none (sRegs [7, 0]) ∧ Issues st0 0 (iw 7 0 0 0xFFFE0) none [.t 7, .s 0] ∧ a % 32 = 0 ∧
    a + 32 ≤ 2 ^ 20 ∧ s1.padReadWaits 0 a 32 = [] ∧ (s1.padRead 0 a 32).2 = false ∧ s1.padWriteWaits 0 a 32 = [] ∧
    st0.memWf = true ∧ Issues st0 0 (iw 0 0 2 0xFFFE0) none (sRegs [0, 2]) ∧ Issues st0 0 (iw 0 0 2 0xFFFE0) none [.s 0, .t 2] :=
  ⟨issues_of (by decide +kernel), issues_of (by decide +kernel), by decide +kernel, by decide +kernel, by decide +kernel, by decide +kernel, by decide +kernel, by decide +kernel,
    issues_of (by decide +kernel), issues_of (by decide +kernel)⟩

theorem wit_RejectedInstructionsFault :
    Issues stMem 0 (iw 7 5 0 1) none (sRegs [7, 5]) ∧ devAddr ((stMem.afterFetch 0 none).core 0) (iw 7 5 0 1) % 2 ≠ 0 ∧
    Issues stMem 0 (iw 0 5 2 4) none (sRegs [5, 2]) ∧ devAddr ((stMem.afterFetch 0 none).core 0) (iw 0 5 2 4) % 8 ≠ 0 ∧
    Issues st0 0 (iw 7 1 2 1) none (sRegs [7, 1, 2]) ∧ Issues st0 0 (iw 1 5 0 0) none (sRegs [5]) ∧
    Issues st0 0 (iw 7 5 1 0) none (sRegs [7, 5]) :=
  ⟨issues_of (by decide +kernel), by decide +kernel, issues_of (by decide +kernel), by decide +kernel, issues_of (by decide +kernel), issues_of (by decide +kernel),
    issues_of (by decide +kernel)⟩

theorem wit_RejectedInstructionsFault_words :
    instrOf 0 (iw 7 1 2 0) 0 1 0 = some (.add 0 (iw 7 1 2 0)) ∧ instrOf 0 (iw 7 1 2 0) 0 0x1E 0 = none ∧
    instrOf 0 (iw 0 0 0 0) 0 8 4 = none ∧ instrOf 0 (iw 0 0 0 0) 0 6 0x3F = some (.fen 0 (iw 0 0 0 0)) := by decide +kernel

theorem wit_CacheInvalidations : Issues stHit 0 (iw 0 5 1 0) none (sRegs [5, 1]) ∧ Issues stHit 0 (iw 0 0 0 0) none [] :=
  ⟨issues_of (by decide +kernel), issues_of (by decide +kernel)⟩

/-- A tensor of 64 I8 elements in the scratchpad's neighbour memory. -/
def desc1 : Desc := BitVec.ofNat 256 (0x40 + 2 ^ 57 * 1 + 2 ^ 80 * 64 + 2 ^ 120 * 3)

/-- Core 0 with descriptors in t1 and t2. -/
def stD : State := stMem.modCore 0 fun k => { k with t := [(1, desc1), (2, BitVec.ofNat 256 77)] }

theorem wit_DescriptorRegisters :
    Issues stD 0 (iw 31 1 0 0) none [.t 31, .t 1] ∧ Issues stD 0 (iw 1 6 0 0) none [.t 1, .s 6] ∧
    (setField desc1 0 0x100).isOk = true ∧ Issues stD 0 (iw 9 1 0 0) none [.s 9, .t 1] ∧ (getField desc1 0).isSome = true ∧
    Issues stD 0 (iw 0 1 0 2) none [.t 1, .p 7] ∧ (((stD.afterFetch 0 none).core 0).isBusy (companions desc1)) = false :=
  ⟨issues_of (by decide +kernel), issues_of (by decide +kernel), by decide +kernel, issues_of (by decide +kernel), by decide +kernel, issues_of (by decide +kernel), by decide +kernel⟩

/-- A parameter block of eight slots, of which slots 1 and 3 are indirect. -/
def stSlot : State := { stMem with
  cis := Mem.writeL stMem.cis (0x10000 + 64) ((List.range 8).flatMap fun i => leBytes 8 (if i = 1 then 64 else if i = 3 then 2 ^ 40 else 1000 + i))
  launches := [(0, { launch0 with ind := 10 })] }

/-- The values of slots that have all been read. -/
def slotVals : SlotRun → List DWord
  | .done vs none => vs
  | _ => []

theorem wit_ParameterSlots :
    let s1 := stSlot.afterFetch 0 none
    let x := { launch0 with ind := 10 }
    s1.launchOf 0 = some (0, x) ∧ Issues stSlot 0 (iw 7 0 0 7) none (sRegs [7]) ∧ Issues stSlot 0 (iw 7 0 0 4) none [.t 7] ∧
    7 < paramCount x ∧ slotVals (slotRun s1 0 x.param x.ind [] none [7]).1 = [1007] ∧ 4 + 4 ≤ paramCount x ∧
    slotVals (slotRun s1 0 x.param x.ind [] none [4, 5, 6, 7]).1 = [1004, 1005, 1006, 1007] :=
  ⟨by decide +kernel, issues_of (by decide +kernel), issues_of (by decide +kernel), by decide +kernel, by decide +kernel, by decide +kernel, by decide +kernel⟩

theorem wit_ParameterSlots_beyond :
    Issues stSlot 0 (iw 7 0 0 8) none (sRegs [7]) ∧ Issues stSlot 0 (iw 7 0 0 5) none [.t 7] ∧
    paramCount { launch0 with ind := 10 } ≤ 8 ∧ paramCount { launch0 with ind := 10 } < 5 + 4 :=
  ⟨issues_of (by decide +kernel), issues_of (by decide +kernel), by decide +kernel, by decide +kernel⟩


/-- The value that a read of a slot's bytes gives. -/
def slotGot : SlotAns → Option DWord
  | .value v => some v
  | _ => none

/-- The code that it ends with. -/
def slotErr : SlotAns → Option (Code × Nat)
  | .err c va => some (c, va)
  | _ => none

theorem wit_ParameterSlots_indirect :
    let r := slotRead stSlot 0 (0x10000 + 64 + 8 * 1)
    let q := slotRead stSlot 0 (0x10000 + 64 + 8 * 3)
    (10 : Nat).testBit 1 = true ∧ slotGot r.1 = some 64 ∧ (slotGot (slotRead r.2 0 64).1).isSome = true ∧
    (10 : Nat).testBit 2 = false ∧ slotGot (slotRead stSlot 0 (0x10000 + 64 + 8 * 2)).1 = some 1002 ∧
    (10 : Nat).testBit 3 = true ∧ slotGot q.1 = some (BitVec.ofNat 64 (2 ^ 40)) ∧
    (slotErr (slotRead q.2 0 (2 ^ 40)).1).isSome = true := by decide +kernel

/-- Context 0 is not on: the read of a slot ends with a code. -/
def stOff : State := stSlot.setFlag .ctxCfg 0 0 false

theorem wit_ParameterSlots_code : (slotErr (slotRead stOff 0 (0x10000 + 64 + 8 * 2)).1).isSome = true := by decide +kernel

/-! ### Witnesses: synchronisation -/

/-- Core 0 in a wait. -/
def waiting (w : Wait) (s : State := stMem) : State := s.modCore 0 fun k => { k with run := .waiting, wait := some w, waddr := 64 }

/-- Core 0 with a store of its own that is not yet complete. -/
def storing : State := stMem.modCore 0 fun k => { k with
  loads := [⟨.scalar 9 8 false, 248, 2, 0, none, false, some 5, none, 0, 0, 0⟩] }

theorem wit_ReleasesPublish :
    let s1 := stMem.afterFetch 0 none
    Issues stMem 0 (iw 0 5 2 0) none (sRegs [5, 2]) ∧ ((s1.core 0).getS 5).toNat % 8 = 0 ∧
    (s1.semaphore 0 64 true).1.toOption = some 64 ∧ s1.releaseReady 0 = true ∧
    (s1.xlateNow 0 0 64 true).1.toOption = some ⟨false, true, false, 0⟩ ∧ s1.place ⟨false, true, false, 0⟩ 64 = .cis 64 ∧
    s1.mayTouch 0 64 8 = true :=
  ⟨issues_of (by decide +kernel), by decide +kernel, by decide +kernel, by decide +kernel, by decide +kernel, by decide +kernel, by decide +kernel⟩

theorem wit_ReleasesPublish_wait :
    let s1 := storing.afterFetch 0 none
    Issues storing 0 (iw 0 5 2 0) none (sRegs [5, 2]) ∧ (s1.semaphore 0 64 true).1.toOption = some 64 ∧
    s1.releaseReady 0 = false ∧ s1.askedWay 0 = false := ⟨issues_of (by decide +kernel), by decide +kernel, by decide +kernel, by decide +kernel⟩

theorem wit_WatTakesOrWaits :
    let s1 := stMem.afterFetch 0 none
    Issues stMem 0 (iw 7 5 4 0) none (.p 7 :: sRegs [7, 5, 4]) ∧ (s1.semaphore 0 64 false).1.toOption = some 64 ∧
    ((s1.core 0).getS 4).toInt ≤ ((s1.semaphore 0 64 false).2.word64 64).toInt ∧
    Issues stMem 0 (iw 7 5 4 0xFFFF0003) none (.p 7 :: sRegs [7, 5, 4]) ∧ bitsOf 0xFFFF0003 15 2 = 0 ∧
    (s1.semaphore 0 64 true).1.toOption = some 64 ∧ s1.earlierConsumer 64 s1.nextWatch = false ∧
    Issues stMem 0 (iw 7 5 1 0) none (.p 7 :: sRegs [7, 5, 1]) ∧
    ((s1.semaphore 0 64 false).2.word64 64).toInt < ((s1.core 0).getS 1).toInt ∧ s1.cisBad 64 8 = false ∧
    s1.askedWay 0 = false :=
  ⟨issues_of (by decide +kernel), by decide +kernel, by decide +kernel, issues_of (by decide +kernel), by decide +kernel, by decide +kernel, by decide +kernel, issues_of (by decide +kernel),
    by decide +kernel, by decide +kernel, by decide +kernel⟩

theorem wit_AcquiresReadAndComplete :
    let s1 := stMem.afterFetch 0 none
    Issues stMem 0 (iw 7 5 0 1) none (sRegs [7, 5]) ∧ (s1.xlateNow 0 0 64 false).1.toOption = some ⟨false, true, false, 0⟩ ∧
    s1.place ⟨false, true, false, 0⟩ 64 = .cis 64 ∧ s1.mayTouch 0 64 8 = true ∧ s1.loadUnperformed 0 = false ∧
    s1.cisBad 64 8 = false ∧
    ((waiting (.acq 64 (some (5, false)) true 63 none 0 false)).core 0).wait = some (.acq 64 (some (5, false)) true 63 none 0 false) :=
  ⟨issues_of (by decide +kernel), by decide +kernel, by decide +kernel, by decide +kernel, by decide +kernel, by decide +kernel, by decide +kernel⟩

/-- Counter 1 of the registered regions is open to the core and shows 77. -/
def stCnt : State := ((stMem.setReg64 .rgnCntLo .rgnCntHi 1 77).setReg .rgnCfg 1 1).modCore 0 fun k => k.setS 8 78

theorem wit_CounterWaitsEnd :
    let s1 := stCnt.afterFetch 0 none
    let im := 2 * (bitsOf 0x12 2 1) + 16
    Issues stCnt 0 (iw 7 0 1 im) none (.p 7 :: sRegs [7, 1]) ∧ Issues stCnt 0 (iw 7 0 8 im) none (.p 7 :: sRegs [7, 8]) ∧
    bitsOf im 2 1 ≠ 3 ∧ bitsOf im 15 4 < State.counterCount (bitsOf im 2 1) ∧ s1.counterOwned 0 (bitsOf im 2 1) 1 = true ∧
    s1.counter 0 (bitsOf im 2 1) 1 = 77 ∧ (10 : Nat) ≤ 77 ∧ (77 : Nat) < ((s1.core 0).getS 8).toNat ∧ s1.askedWay 0 = false :=
  ⟨issues_of (by decide +kernel), issues_of (by decide +kernel), by decide +kernel, by decide +kernel, by decide +kernel, by decide +kernel, by decide +kernel, by decide +kernel, by decide +kernel⟩

theorem wit_CounterWaitsEnd_wakes :
    ((waiting (.cwt 1 1 77 true 7 3) stCnt).core 0).wait = some (.cwt 1 1 77 true 7 3) ∧
    (77 : DWord).toNat ≤ (waiting (.cwt 1 1 77 true 7 3) stCnt).counter 0 1 1 ∧
    ((waiting (.wat 64 64 0x8000000000000000 false true 7 3 0)).core 0).wait = some (.wat 64 64 0x8000000000000000 false true 7 3 0) ∧
    (0x8000000000000000 : DWord).toInt ≤ (stMem.word64 64).toInt ∧ stMem.cisBad 64 8 = false := by decide +kernel

theorem wit_FencesAndBarriers :
    Issues stMem 0 (iw 0 0 0 0) none [] ∧ (stMem.afterFetch 0 none).fenReady 0 = true ∧ (waiting .fen).fenReady 0 = true ∧
    ((waiting .fen).core 0).wait = some .fen := ⟨issues_of (by decide +kernel), by decide +kernel, by decide +kernel, by decide +kernel⟩

/-- A launch of cores 0 and 1, of which core 1 has arrived at barrier 15. -/
def atBarrier : State :=
  let s := (stMem.setCore 1 { core0 with run := .waiting, wait := some (.bar 15 false 2 true), icache := [] }).setLaunch 0
    { launch0 with cores := [0, 1], barriers := [(15, ⟨2, [1]⟩)] }
  s.modCore 0 fun k => (k.setS 8 2).setS 9 1

theorem wit_FencesAndBarriers_last :
    let s1 := atBarrier.afterFetch 0 none
    let x := { launch0 with cores := [0, 1], barriers := [(15, ⟨2, [1]⟩)] }
    Issues atBarrier 0 (iw 0 8 0 15) none (sRegs [8]) ∧ s1.launchOf 0 = some (0, x) ∧ x.passed.contains 0 = false ∧ s1.fenReady 0 = true ∧
    s1.askedWay 0 = false ∧ (s1.core 0).getS 8 = 2 ∧ x.barriers.get? 15 = some ⟨2, [1]⟩ ∧
    (s1.core 1).wait = some (.bar 15 false 2 true) :=
  ⟨issues_of (by decide +kernel), by decide +kernel, by decide +kernel, by decide +kernel, by decide +kernel, by decide +kernel, by decide +kernel⟩

theorem wit_FencesAndBarriers_alone :
    let s1 := atBarrier.afterFetch 0 none
    Issues atBarrier 0 (iw 0 9 0 14) none (sRegs [9]) ∧ (s1.core 0).getS 9 = 1 ∧
    ({ launch0 with cores := [0, 1], barriers := [(15, ⟨2, [1]⟩)] } : Launch).barriers.get? 14 = none := ⟨issues_of (by decide +kernel), by decide +kernel, by decide +kernel⟩

theorem wit_SystemInstructionsAndEnd :
    let s1 := stMem.afterFetch 0 none
    Issues stMem 0 (iw 7 0 0 0) none (sRegs [7]) ∧ (s1.sysReg 0 0).isSome = true ∧ s1.sysReg 0 0xFFF = none ∧
    Issues stMem 0 (iw 7 0 0 0xFFF) none (sRegs [7]) ∧ Issues stMem 0 (iw 0 1 0 4) none (sRegs [1]) ∧
    ((s1.core 0).getS 1).toNat ≤ 0x13 ∧ Issues stMem 0 (iw 0 5 0 4) none (sRegs [5]) ∧ 0x13 < ((s1.core 0).getS 5).toNat ∧
    Issues stMem 0 (iw 0 0 0 0x13) none [] ∧ (Code.ofByte 0x13).isSome = true ∧ Code.ofByte 0x13 ≠ some .ok ∧
    (s1.core 0).jobs = [] :=
  ⟨issues_of (by decide +kernel), by decide +kernel, by decide +kernel, issues_of (by decide +kernel), issues_of (by decide +kernel), by decide +kernel, issues_of (by decide +kernel),
    by decide +kernel, issues_of (by decide +kernel), by decide +kernel, by decide +kernel, by decide +kernel⟩

/-- A job of a unit. -/
def job0 : Job := newJob 4 0 (iw 0 0 0 0) 0 [] [] [] []

/-- Core 0 with jobs outstanding. -/
def withJobs (js : List Job) (s : State := stMem) : State := s.modCore 0 fun k => { k with
  jobs := js, nextJob := js.foldl (fun n j => max n (j.id + 1)) 0 }

/-- A jobs list with one LKU. -/
def adding : State := withJobs [{ job0 with cls := 7, func := 1 }]

theorem wit_FencesAndBarriers_held :
    Issues adding 0 (iw 0 0 0 0) none [] ∧ (adding.afterFetch 0 none).fenReady 0 = false ∧
    ((waiting .fen adding).core 0).wait = some .fen ∧ (waiting .fen adding).fenReady 0 = false :=
  ⟨issues_of (by decide +kernel), by decide +kernel, by decide +kernel, by decide +kernel⟩

theorem wit_SystemInstructionsAndEnd_held :
    ((adding.afterFetch 0 none).core 0).jobs ≠ [] ∧ (adding.afterFetch 0 none).askedWay 0 = false := by decide +kernel

/-- Context 0 with its alias of working memory at VA 0. -/
def aliased : State := stMem.setFlag .ctxCfg 0 3 true

theorem wit_SystemInstructionsAndEnd_pointers :
    Issues aliased 0 (iw 7 5 0 0) none (sRegs [7, 5]) ∧ ((aliased.afterFetch 0 none).toHost 0 64).1.toOption = some 64 ∧
    Issues aliased 0 (iw 7 5 0 1) none (sRegs [7, 5]) ∧ ((aliased.afterFetch 0 none).toModule 0 64).1.toOption = some 64 :=
  ⟨issues_of (by decide +kernel), by decide +kernel, issues_of (by decide +kernel), by decide +kernel⟩

theorem wit_CounterWaitsEnd_timeout :
    let s := waiting (.wat 64 64 0x7FFFFFFFFFFFFFFF false true 7 3 0)
    let u := waiting (.cwt 1 1 78 true 7 3) stCnt
    (s.core 0).wait = some (.wat 64 64 0x7FFFFFFFFFFFFFFF false true 7 3 0) ∧
    s.watMet 64 0x7FFFFFFFFFFFFFFF false 0 = false ∧ (u.core 0).wait = some (.cwt 1 1 78 true 7 3) ∧
    decide ((78 : DWord).toNat ≤ u.counter 0 1 1) = false ∧ decide ((77 : DWord).toNat ≤ u.counter 0 1 1) = true := by
  decide +kernel

/-! ### Witnesses: the units -/

/-- A tensor descriptor: base, space, format, rank, extents and the first stride. -/
def mkD (base space fmt rank e0 e1 str1 : Nat) : Desc := BitVec.ofNat 256
  (base + 2 ^ 57 * space + 2 ^ 59 * fmt + 2 ^ 66 * rank + 2 ^ 68 * e0 + 2 ^ 88 * e1 + 2 ^ 128 * str1)

/-- Core 0 with small tensors of two by two elements. -/
def stX : State := stMem.modCore 0 fun k => { k with icache := [4, 5, 6, 7, 8], t := [
  (1, mkD 0x400 0 9 1 2 2 64), (2, mkD 0x800 0 9 1 2 2 64), (3, mkD 0x1000 0 12 1 2 2 64), (4, mkD 0x1400 0 0 1 2 2 64),
  (5, mkD 0x1800 0 0 1 2 2 64), (6, mkD 64 1 9 1 2 2 64), (7, mkD 0x2000 0 9 1 2 2 64), (8, mkD 0x2400 0 9 0 16 0 0)] }

def mstWord : IWord := iw 0 2 0 49

def mx1 : State := goes [execWld 0 (iw 0 1 0 1)] stX
def mx2 : State := goes [execMatrixStart 0] mx1
def mx3 : State := goes [execWldLoadDone 0] mx2
def mx4 : State := goes [execMst 0 mstWord] mx3
def mx5 : State := goes [execMatrixStart 0] mx4
/-- The multiplication is complete and its sums stand in the banks. -/
def mx6 : State := mx5.modCore 0 fun k => { k with jobs := [] }
def mx7 : State := goes [execMdr 0 (iw 0 3 0 1)] mx6
def mx8 : State := goes [execMatrixStart 0] mx7

theorem wit_MatrixInstructionsDispatch_wld :
    let s1 := stX.afterFetch 0 none
    Issues stX 0 (iw 0 1 0 1) none [.t 1] ∧ s1.queued 0 4 < 8 ∧ (s1.core 0).isBusy (companionsOf ((s1.core 0).getT 1)) = false ∧
    wldCode s1 0 (iw 0 1 0 1) = .ok := ⟨issues_of (by decide +kernel), by decide +kernel, by decide +kernel, by decide +kernel⟩

theorem wit_MatrixInstructionsDispatch_mst :
    let s1 := mx3.afterFetch 0 none
    Issues mx3 0 mstWord none [.t 2] ∧ mstOut mstWord ≠ 3 ∧ mstSwp mstWord = true ∧ ((s1.core 0).getT 2).scaling = 0 ∧
    mstCode s1 0 mstWord = .ok := ⟨issues_of (by decide +kernel), by decide +kernel, by decide +kernel, by decide +kernel, by decide +kernel⟩

theorem wit_MatrixInstructionsDispatch_mdr :
    Issues mx6 0 (iw 0 3 0 1) none [.t 3] ∧ mdrCode (mx6.afterFetch 0 none) 0 (iw 0 3 0 1) = .ok :=
  ⟨issues_of (by decide +kernel), by decide +kernel⟩

theorem wit_MatrixInstructionsDispatch_mtf :
    Issues mx6 0 (iw 7 0 0 0) none (sRegs [7]) ∧ (mx6.afterFetch 0 none).jobsOf 0 [4] = [] ∧
    Issues mx1 0 (iw 7 0 0 0) none (sRegs [7]) ∧ (((mx1.afterFetch 0 none).jobsOf 0 [4]).map fun j => j.func) = [0] ∧
    (∀ j ∈ ((mx1.afterFetch 0 none).core 0).jobs, j.id < ((mx1.afterFetch 0 none).core 0).nextJob) :=
  ⟨issues_of (by decide +kernel), by decide +kernel, issues_of (by decide +kernel), by decide +kernel, by decide +kernel⟩

/-- The same after the reduction's accumulators were filled, with a full queue. -/
def mxFull : State := withJobs ((List.range 8).map fun i => { job0 with id := i }) mx6

theorem wit_MatrixInstructionsDispatch_full :
    Issues mxFull 0 (iw 0 3 0 1) none [.t 3] ∧ 8 ≤ (mxFull.afterFetch 0 none).queued 0 4 ∧
    mdrCode (mxFull.afterFetch 0 none) 0 (iw 0 3 0 1) = .ok ∧ (mxFull.afterFetch 0 none).askedWay 0 = false ∧
    ((mx6.modCore 0 fun k => { k with launch := none }).core 0).launch = none ∧ (mx6.core 0).launch.isSome = true ∧
    Issues mx6 0 (iw 0 0 0 0) none [] := ⟨issues_of (by decide +kernel), by decide +kernel, by decide +kernel, by decide +kernel, by decide +kernel, by decide +kernel,
  issues_of (by decide +kernel)⟩

theorem wit_MatrixUnitRuns_start :
    (∀ s ∈ [mx1, mx4, mx7], ((s.jobsOf 0 [4]).find? fun j => j.prog == .queued).isSome = true) ∧
    (((mx1.jobsOf 0 [4]).find? fun j => j.prog == .queued).map fun j => (j.func, mxReady mx1 0 j)) = some (0, true) ∧
    (((mx4.jobsOf 0 [4]).find? fun j => j.prog == .queued).map fun j => (j.func, mxReady mx4 0 j)) = some (1, true) ∧
    (((mx7.jobsOf 0 [4]).find? fun j => j.prog == .queued).map fun j => (j.func, mxReady mx7 0 j)) = some (2, true) ∧
    (((mx1.jobsOf 0 [4]).find? fun j => j.prog == .queued).map fun j => mx1.job 0 j.id == some j) = some true := by decide +kernel

/-- A load that runs, behind it an MST that has to wait for it. -/
def mxWait : State := goes [execMst 0 mstWord] mx2

theorem wit_MatrixUnitRuns_held :
    (((mxWait.jobsOf 0 [4]).find? fun j => j.prog == .queued).map fun j => mxReady mxWait 0 j) = some false := by decide +kernel

theorem wit_MatrixUnitRuns_complete :
    (((mx2.jobsOf 0 [4]).find? fun j => j.func == 0 && j.prog == .running).map fun j =>
      residOk (j.main.rowBlocks * j.main.ext1) none []) = some true ∧
    (((mx5.jobsOf 0 [4]).find? fun j => j.prog == .running && decide (j.func ≠ 0)).map fun j => j.func) = some 1 ∧
    (((mx8.jobsOf 0 [4]).find? fun j => j.prog == .running && decide (j.func ≠ 0)).map fun j => j.func) = some 2 := by decide +kernel

/-- A chain of no further stages. -/
def chain : DWord := 0x3E <<< 58

def vc1 : State := goes [execVch 0 (iw 5 4 0 0) chain] mx6
def vc2 : State := goes [execVchStart 0] vc1

/-- A multiplication that forwards its output, and a chain that takes it. -/
def fw1 : State := goes [execMst 0 (iw 0 2 0 (49 + 256))] mx3

theorem wit_VectorChainsRun :
    let s1 := mx6.afterFetch 0 (some chain)
    let w := iw 5 4 0 0
    Issues mx6 0 w (some chain) ((vNamed w (Chain.of chain)).map .t ++ (List.range 8).map (fun i => .s (vSb w + i))) ∧
    vchFields w chain = true ∧ (s1.core 0).isBusy ((vCompanions (s1.core 0).getT w (Chain.of chain)).map .t) = false ∧
    s1.queued 0 5 < 8 ∧ vSrc w ≠ 2 ∧ vchCode s1 0 w (Chain.of chain) none = .ok :=
  ⟨issues_of (by decide +kernel), by decide +kernel, by decide +kernel, by decide +kernel, by decide +kernel, by decide +kernel⟩

theorem wit_VectorChainsRun_direct :
    let s1 := fw1.afterFetch 0 (some chain)
    let w := iw 5 0 0 2
    Issues fw1 0 w (some chain) ((vNamed w (Chain.of chain)).map .t ++ (List.range 8).map (fun i => .s (vSb w + i))) ∧
    vchFields w chain = true ∧ vSrc w = 2 ∧ ((s1.unpaired 0).map fun m => (decide (m.id < (s1.core 0).nextJob),
      vchCode s1 0 w (Chain.of chain) (some m))) = [(true, .ok)] :=
  ⟨issues_of (by decide +kernel), by decide +kernel, by decide +kernel, by decide +kernel⟩

theorem wit_VectorChainsRun_run :
    (((vc1.jobsOf 0 [5]).find? fun j => j.prog == .queued).map fun j =>
      (vc1.job 0 j.id == some j, vSrc j.w, vchReady vc1 0 j)) = some (true, 0, true) ∧
    (((vc2.jobsOf 0 [5]).find? fun j => j.prog == .running).map fun j => vSrc j.w) = some 0 := by decide +kernel

/-- A chain behind a running one whose output it reads. -/
def vcHeld : State := goes [execVch 0 (iw 4 5 0 0) chain] vc2

theorem wit_VectorChainsRun_held :
    (((vcHeld.jobsOf 0 [5]).find? fun j => j.prog == .queued).map fun j => vchReady vcHeld 0 j) = some false := by decide +kernel

/-- A transfer from working memory to the scratchpad and a fill, both queued. -/
def dm1 : State := goes [execDma 0 (iw 7 6 0 0), execFil 0 (iw 8 3 0 0)] stX
def dmJob (f : Job → Job) : State := dm1.modJob 0 0 f

theorem wit_DescriptorsDispatchAndStart :
    let s1 := stX.afterFetch 0 none
    Issues stX 0 (iw 7 6 0 0) none [.t 7, .t 6] ∧ dmaCode s1 0 0 (iw 7 6 0 0) = .ok ∧ dmaCode s1 0 2 (iw 5 4 0 0) = .ok ∧
    Issues stX 0 (iw 5 4 0 0) none [.t 5, .t 4] ∧ Issues stX 0 (iw 8 3 0 3) none [.t 8, .s 3] ∧
    dmaCode s1 0 1 (iw 8 3 0 3) = .ok ∧ (s1.dmaJobs 0).length < s1.fld .dmaCtrl 0 4 0 ∧
    (s1.core 0).isBusy ((([(s1.core 0).getT 6, (s1.core 0).getT 7].filter fun d => d.scaling != 0).map Desc.scaleT).map .t) = false :=
  ⟨issues_of (by decide +kernel), by decide +kernel, by decide +kernel, issues_of (by decide +kernel), issues_of (by decide +kernel), by decide +kernel, by decide +kernel, by decide +kernel⟩

/-- The same with no entry in the TLB. -/
def dmNoTlb : State := dm1.modCore 0 fun k => { k with tlb := [] }

theorem wit_DescriptorsDispatchAndStart_start :
    ((slotJob dm1 0 0).map fun j => (dm1.job 0 j.id == some j, dmaReady dm1 0 j, j.func, j.target, j.toPad)) =
      some (true, true, 0, 3, true) ∧
    ((slotJob dm1 0 0).map fun j => (j.prog == .queued, decide (dmaSize j.padSide < 4096), j.dev.rowAddr 0)) = some (true, true, 64) ∧
    ((dm1.jobsOf 0 [6]).any fun x => x.prog == .short) = false ∧ dm1.ctxOn 0 = true ∧
    (dm1.tlbHit 0 0 64).map (fun l => decide (dm1.place l 64 = .cis 64)) = some true ∧ dmNoTlb.tlbHit 0 0 64 = none := by decide +kernel

theorem wit_DescriptorsGoOnAndComplete_fill :
    dm1.memWf = true ∧ ((slotJob dm1 0 1).map fun j => (dm1.job 0 j.id == some j, j.prog == .queued, j.func, dmaReady dm1 0 j,
      (j.desc j.w.dst.toNat).rank)) = some (true, true, 1, true, 0) := by decide +kernel

theorem wit_DescriptorsGoOnAndComplete_rest :
    ((slotJob (dmJob fun j => { j with prog := .short, target := 0 }) 0 0).map fun j => (j.prog == .short, j.target, j.func)) =
      some (true, 0, 0) ∧
    ((slotJob (dmJob fun j => { j with prog := .halted 0 64 0 true }) 0 0).map fun j => j.prog == .halted 0 64 0 true) = some true ∧
    ((slotJob (dmJob fun j => { j with prog := .issued }) 0 0).map fun j => j.prog == .issued) = some true ∧
    dm1.txns = [] ∧ dm1.hostWaits = [] := by decide +kernel

/-- A fill behind a transfer into the same bytes. -/
def dmHeld : State := goes [execDma 0 (iw 7 6 0 0), execFil 0 (iw 7 3 0 0)] stX

theorem wit_DescriptorsDispatchAndStart_held :
    ((slotJob dmHeld 0 1).map fun j => (j.prog == .queued, dmaReady dmHeld 0 j)) = some (true, false) := by decide +kernel

/-- A running weight load whose residual list names a block beyond its tensor. -/
def badList : State := mx2.modJob 0 0 fun j => { j with
  prog := .running
  descs := [(1, mkD 0x400 0 7 1 32 2 64 ||| BitVec.ofNat 256 (2 ^ 64 + 2 ^ 218 * 41 + 2 ^ 212 * 42)), (9, mkD 0x800 0 9 0 2 0 0)] }

theorem wit_MatrixUnitRuns_badList :
    (((badList.jobsOf 0 [4]).find? fun j => j.func == 0 && j.prog == .running).map fun j =>
      residOk (j.main.rowBlocks * j.main.ext1) none (residEntries badList 0 j)) = some false := by decide +kernel

/-! ### Witnesses: tables -/

/-- A table of eight rows of four FP32 elements, updatable, in instar 1. -/
def tab0 : Table where
  rows := 8
  elems := 4
  fmt := 0
  scaling := 0
  rsc := false
  rbi := false
  upd := true
  noshd := false
  tscale := 0
  gshift := 3
  shards := [(0, 0)]
  cur := 1
  other := 0
  ostate := 0
  mirror := false
  clone := false
  packCur := false
  packOther := false
  touched := false

/-- A dirty page of it. -/
def pg0 : Page where
  tid := 0
  group := 0
  page := 0
  loc := false
  packed := false
  insts := [1]
  engine := 0
  data := some ((List.range 128).map fun i => BitVec.ofNat 8 (if i % 4 = 3 then 0x3F else i * 7))
  poison := []
  dirty := some (3, 0)
  writing := false
  again := none
  above := false
  miss := false
  lpn := some 9
  used := 0
  hashed := 0
  rows := some []
  swept := false
  fresh := []

/-- Core 0 with lists in its scratchpad, the table, and its page in the cache. -/
def stL : State := { (stMem.modCore 0 fun k => { k with icache := [4, 5, 6, 7, 8], t := [
    (10, mkD 0x400 0 12 0 1 0 0), (11, mkD 0x800 0 0 1 4 1 16), (12, mkD 0x404 0 12 0 1 0 0), (13, mkD 0x408 0 12 0 2 0 0)] }) with
  pads := [(0, Mem.writeL [] 0x400 [0, 0, 0, 0, 9, 0, 0, 0, 0, 0, 0, 0, 1, 0, 0, 0])]
  tables := [(0, tab0)]
  pages := [(0, pg0)]
  nextPage := 1
  launches := [(0, { launch0 with pins := [(0, 1)] })] }

/-- The extension word of a lookup. -/
def lkWord (n : Nat) : DWord := BitVec.ofNat 64 (0xF800000000000000 + n)

def gather : IWord := iw 11 10 0 0
def lk1 : State := goes [execLkp 0 gather (lkWord 0)] stL
def lk2 : State := goes [execLookupUnitStart 0] lk1

/-- The home engine has answered with a sum of four elements. -/
def lk3 : State := { lk2 with parts := [], psums := [⟨0, 0, 0, [0x3F800000, 0, 0, 0], 1, 0, false, [], .ok⟩] }
def lkBad : State := goes [execLkp 0 (iw 11 12 0 0) (lkWord 0)] stL
def up1 : State := goes [execLku 0 (iw 0 10 0 0) (lkWord 11)] stL
def up2 : State := goes [execLookupUnitStart 0] up1
def lkFull : State := withJobs ((List.range 32).map fun i => { job0 with id := i, cls := 7 }) stL

/-- What a lookup instruction needs to reach its own checks, and the code they give. -/
def lkAsks (s : State) (lku : Bool) (w : IWord) (w2 : DWord) : Bool × Code × Nat :=
  let x := LkExt.of lku w2
  (issuesB s 0 w (some w2) ((lkReads w x ++ lkWrites lku w x).map .t) && lkFields lku w w2,
    lkCode (s.afterFetch 0 (some w2)) 0 lku w x, (s.afterFetch 0 (some w2)).queued 0 7)

theorem wit_LookupUnitRuns :
    lkAsks stL false gather (lkWord 0) = (true, .ok, 0) ∧ lkAsks stL true (iw 0 10 0 0) (lkWord 11) = (true, .ok, 0) ∧
    lkAsks lkFull false gather (lkWord 0) = (true, .ok, 32) ∧ (lkFull.afterFetch 0 (some (lkWord 0))).askedWay 0 = false ∧
    (lkAsks { stL with tables := [] } false gather (lkWord 0)).1 = true ∧
    (lkAsks { stL with tables := [] } false gather (lkWord 0)).2.1 ≠ .ok := by decide +kernel

theorem wit_LookupUnitRuns_start :
    (((lk1.jobsOf 0 [7]).find? fun j => j.prog == .queued && padClear (lk1.before 0 j.id) j).map fun j =>
      lk1.job 0 j.id == some j && lk1.table (lkTid j.w) == some tab0 && !badLists (readLists lk1 0 j) (lkSkip j.w) tab0.rows &&
        (readLists lk1 0 j).idx == [0] && j.func == 0 && lkOp j.w == 0 && (lkExt j).wgt.isNone) = some true ∧
    lk1.homeOf 0 tab0 (tab0.groupOf 0) = (lk1.node, 0) ∧ (lk1.core 0).bags.isEmpty = true ∧ (lk1.core 0).bagWaits.isEmpty = true ∧
    (((lk1.jobsOf 0 [7]).find? fun j => j.prog == .queued).map fun j => decide (4 * j.cols ≤ 65536)) = some true ∧
    (((lkBad.jobsOf 0 [7]).find? fun j => j.prog == .queued && padClear (lkBad.before 0 j.id) j).map fun j =>
      badLists (readLists lkBad 0 j) (lkSkip j.w) tab0.rows) = some true := by decide +kernel

theorem wit_EnginesServePartsAndAdds_part :
    ((lk2.partsOf 0).map fun p => !p.begun && p.items.length == 1 && p.op == 0 && p.vec.isEmpty && p.count == 0 && p.subs == 0 &&
      p.flags == 0) = [true] ∧
    ((lk2.partsOf 0).map fun p => (p.sender == .core 0 0 0, p.tid, p.inst)) = [(true, 0, 1)] ∧ lk2.inReset 3 0 = false ∧
    lk2.table 0 = some tab0 ∧ tab0.serves 1 = true ∧ lk2.duty 0 0 tab0 (tab0.groupOf 0) = .mine ∧
    (lk2.hotCopy 0 (lk2.hotHalf 0) 0 0 1).isNone = true ∧
    decide (lk2.rowAt 0 tab0 1 0 = .at_ 0 0) = true := by decide +kernel

theorem wit_EnginesServePartsAndAdds_add :
    ((up2.addsOf 0).map fun a => (a.begun, a.sender == .core 0 0 0, a.tid, a.inst, a.row, a.vec.length)) =
      [(false, true, 0, 1, 0, 4)] ∧ (up2.job 0 0).isSome = true ∧ up2.inReset 3 0 = false ∧ up2.table 0 = some tab0 ∧
    tab0.serves 1 = true ∧ tab0.upd = true ∧ tab0.shadowed = true ∧ tab0.ostate = 0 ∧
    up2.duty 0 0 tab0 (tab0.groupOf 0) = .mine ∧ up2.shadowOf 0 0 1 = none ∧
    (up2.poolUsed 0 + 4 * tab0.elems) * 10 ≤ up2.poolBytes * 9 := by decide +kernel

/-- A packet of a type to this module. -/
def pkt (type dst tag : Nat) : Packet := ⟨dst, 0, 1, type, false, tag, 0, 0, 0, []⟩

/-- An add of core 0 that another module applies. -/
def upFar : State := { up1 with txns := [(3, ⟨.update 0 0, pkt 4 1 3, 0, 0, 0, 0, none, false⟩)] }

theorem wit_EnginesServePartsAndAdds_far :
    let p := pkt 0x13 upFar.node (3 + 16384 * upFar.genOf 8 4)
    let r := upFar.takeTxn p
    p.type = 0x13 ∧ p.dst = upFar.node ∧ (r.1.map fun x => x.owner == .update 0 0) = some true ∧ (r.2.job 0 0).isSome = true ∧
    (r.2.cores.all fun kv => kv.2.lkWaits.isEmpty) = true ∧ (r.2.core 0).lkWaits = [] := by decide +kernel

/-- The bag of the gather waits for one more sum. -/
def lkTwo : State := lk3.modCore 0 fun k => { k with bags := k.bags.map fun b => { b with left := 2 } }

theorem wit_PartialSumsFillTheirBags :
    lk3.memWf = true ∧ (lk3.psums.map fun x => (x.core, x.job, x.bag, x.code)) = [(0, 0, 0, .ok)] ∧
    ((lk3.core 0).bags.map fun b => (b.job, b.bag, b.left, b.vec)) = [(0, 0, 1, [])] ∧
    ((lk3.job 0 0).map fun j => ((lkExt j).flg, (lkExt j).raw, lkOp j.w, j.done)) = some (none, false, 0, 1) ∧
    (lk3.psums.map fun x => x.vec.length) = [4] ∧ (lk3.core 0).bagWaits = [] ∧
    ((lkTwo.core 0).bags.map fun b => b.left) = [2] := by decide +kernel

/-- A shadow of row 2. -/
def sh0 : Shadow := ⟨0, 2, [1], 0, [0x3F800000, 0x40000000, 0, 0xBF800000], 0, false, false, none⟩

/-- No page waits for an age before it is written back, or every page waits for an hour. -/
def atOnce : State := stL.setFld .govCfg 0 23 8 0
def later : State := stL.setFld .govCfg 0 23 8 255

theorem wit_GovernorWritesAndFolds :
    let paced := atOnce.setFlag .govCfg 0 0 false
    atOnce.wellShut = false ∧ atOnce.dirtyFirst = some (0, pg0) ∧ atOnce.page 0 = some pg0 ∧ atOnce.lagged pg0 = true ∧
    (atOnce.setFlag .govCfg 0 0 true).flag .govCfg 0 0 = true ∧ paced.flag .govCfg 0 0 = false ∧
    (0 : Int) < ({ paced with tokens := 1 } : State).tokens ∧ ({ paced with tokens := 0 } : State).tokens ≤ 0 ∧
    later.dirtyFirst = some (0, pg0) ∧ later.lagged pg0 = false ∧ later.wellShut = false := by decide +kernel

/-- An add that waits for a shadow behind a held fold, and a dirty limit of zero. -/
def overFull : State := { ((stL.setFlag .govCfg 0 0 false).setFld .govCfg 0 7 1 0) with
  adds := [(0, [⟨.node 1 2, 0, 1, 0, 0, [], false, true, 0, none, none, some 0⟩])], tokens := -5, ticks := 500000 }

theorem wit_GovernorWritesAndFolds_over : overFull.dirtyFirst = some (0, pg0) ∧ overFull.wellShut = false ∧
    overFull.dirtyFull = true ∧ heldLong overFull = true ∧ heldLong { overFull with ticks := 499999 } = false ∧
    stL.dirtyFull = false := by decide +kernel

theorem wit_GovernorWritesAndFolds_fold :
    let s := { stL with shadows := [sh0] }
    s.parts = [] ∧ s.adds = [] ∧ s.repacks = [] ∧ (s.pages.all fun kv => kv.2.swept == false) = true ∧
    s.table 0 = some tab0 ∧ s.foldHeld 0 tab0 sh0 = false ∧ s.rowAt 0 tab0 1 2 = .at_ 0 32 ∧
    s.page 0 = some pg0 ∧ pg0.insts = [1] ∧ pg0.data.isSome = true ∧ State.rowPoison pg0 32 tab0.rowSize = false ∧
    (tab0.scaleOf (s.rowBytes tab0 (.at_ 0 32)).1).isZero = false := by decide +kernel

/-- The table staged for REGISTER. -/
def staged : State := (List.range 6).foldl (fun s i => s.setReg .lkeTstage i (BitVec.ofNat 32
  ((8 + 2 ^ 42 * 15 + 2 ^ 52 * 1 + 2 ^ 61 + 2 ^ 96 * 3 + 2 ^ 128 * 4096) / 2 ^ (32 * i)))) { stL with tables := [] }

/-- The table with no launch that pins it. -/
def unpinned : State := { stL with launches := [(0, launch0)] }

theorem wit_TableAndStoreCommands_tables :
    Accepted staged .entry .lkeTcmd 0 1 (staged.registerCheck 0) ∧ unpinned.table 0 = some tab0 ∧
    Accepted unpinned .entry .lkeTcmd 0 2 (unpinned.retireCheck 0) :=
  ⟨accepted_of (by decide +kernel), by decide +kernel, accepted_of (by decide +kernel)⟩

/-- Constants for the first hash of the sketches. -/
def hashing : State := (stL.setReg .cmsHashALo 3 5).setReg .cmsHashBLo 3 7

/-- An inactive hot-row store that holds a loaded list. -/
def hotReady : State := (stL.setFld .lkeState 63 2 1 2).setReg .hotListHi 63 0

theorem wit_TableAndStoreCommands_stores :
    Accepted hashing .entry .cmsHashBHi 3 0 (hashing.hashCheck 3 0) ∧ stL.cmsOn 1023 = false ∧
    Accepted stL .entry .cmsSet 1023 0x80000000 (stL.cmsSetCheck 1023 0x80000000) ∧
    Accepted stL .entry .cmsCtrl 63 1 (stL.snapCheck 63 1) ∧
    Accepted stL .entry .hotCtrl 63 0x80000001 (stL.hotCheck 63 0x80000001) ∧
    Accepted hotReady .entry .hotCtrl 63 0x40000000 (hotReady.hotCheck 63 0x40000000) :=
  ⟨accepted_of (by decide +kernel), by decide +kernel, accepted_of (by decide +kernel), accepted_of (by decide +kernel),
    accepted_of (by decide +kernel), accepted_of (by decide +kernel)⟩

/-- The arguments of a lifecycle command, and its table. -/
def lc (a0 a1 a3 : Nat) (t : Table) (s : State := stL) : State :=
  ((({ s with tables := [(0, t)] } : State).setReg .lcArg 0 (BitVec.ofNat 32 a0)).setReg .lcArg 1 (BitVec.ofNat 32 a1)).setReg .lcArg 3
    (BitVec.ofNat 32 a3)

/-- A lifecycle command is accepted. -/
def lcOk (op : Nat) (full : Bool) (s : State) : Bool :=
  acceptedB s .entry .lcCmd 0 (BitVec.ofNat 32 op) (s.lcCheck full (BitVec.ofNat 32 op))

theorem wit_LifecycleCommands :
    lcOk 1 false (lc 1 0 0 tab0) = true ∧ lcOk 2 false (lc 0 64 1 tab0) = true ∧ lcOk 3 false (lc 2 0 0 tab0) = true ∧
    lcOk 4 false (lc 0 0 0 { tab0 with ostate := 1 }) = true ∧ lcOk 5 false (lc 8 0 0 { tab0 with ostate := 2 }) = true ∧
    lcOk 6 false (lc 0 0 0 { tab0 with ostate := 4 }) = true ∧ lcOk 7 false (lc 0 0 0 { tab0 with ostate := 1 }) = true := by
  decide +kernel

/-- A directory entry for the table's first group. -/
def directed : State := { stL with dir := [(State.dirKey 0 0, ⟨0, 0, 0, 0, none⟩)] }

theorem wit_LifecycleCommands_groups :
    lcOk 8 false (lc 0x10 0 (1 + 4096 * 3) tab0) = true ∧
    lcOk 9 false (lc 0 0 (2 + 2 ^ 18) tab0) = true ∧ lcOk 10 false (lc 0 0 0 tab0 directed) = true ∧
    lcOk 11 false (lc 0 0 0 tab0) = true ∧ lcOk 12 false (lc 0 0 0 tab0) = true ∧ (lc 0 0 0 tab0).table 0 = some tab0 := by
  decide +kernel

/-- A migration of the table's first group. -/
def mig0 (cutting : Bool) : Mig := ⟨0, 0, 1, 3, [], [], cutting⟩
def moving (cutting : Bool) : State := ({ stL with
  migs := [(7, mig0 cutting)], dir := [(State.dirKey 0 0, ⟨2, 1, 3, 0, none⟩)] } : State).setReg .migState 7 1

theorem wit_LifecycleEvents_ends :
    ({ stL with lcRun := some (.write 0 false 0 0) } : State).cmdJobs = [] ∧
    ({ stL with lcRun := some (.write 0 false 0 0) } : State).lcRun = some (.write 0 false 0 0) ∧
    ({ stL with lcRun := some (.fold 0 [] .ok) } : State).lcRun = some (.fold 0 [] .ok) ∧
    ({ stL with lcRun := some (.flush [] (some 1) .ok) } : State).lcRun = some (.flush [] (some 1) .ok) ∧
    ({ stL with lcRun := some (.flush [] (some 1) .ok) } : State).dirtyBefore 1 = [] ∧
    (stL.setFlag .cmsCtrl 63 2 true).flag .cmsCtrl 63 2 = true ∧ (stL.setFlag .cmsCtrl 63 2 true).cmsSets 63 = [] ∧
    (stL.setFlag .cmsCtrl 63 2 true).snapWait.getD 63 [] = [] ∧
    (({ stL with hots := [(63, ⟨[], [], some (0, 0, 0), none⟩)] } : State).hot 63).load = some (0, 0, 0) := by decide +kernel

theorem wit_LifecycleEvents_instars :
    (lc 0 0 0 { tab0 with ostate := 3 } unpinned).table 0 = some { tab0 with ostate := 3 } ∧
    (lc 0 0 0 { tab0 with ostate := 3 } unpinned).pinCount 0 0 = 0 ∧
    (lc 0 0 0 { tab0 with ostate := 3 } { stL with launches := [(0, { launch0 with pins := [(0, 0)] })] }).pinCount 0 0 ≠ 0 ∧
    stL.dir.length < 65536 := by decide +kernel

theorem wit_LifecycleEvents_migrations :
    (moving false).migs.get? 7 = some (mig0 false) ∧ (mig0 false).cutting = false ∧ (mig0 false).delta.length ≤ 128 ∧
    (moving true).migs.get? 7 = some (mig0 true) ∧ (mig0 true).cutting = true ∧ (moving true).table 0 = some tab0 ∧
    (moving true).partsOf ((moving true).homeOf 0 tab0 0).2 = [] ∧ (moving true).addsOf ((moving true).homeOf 0 tab0 0).2 = [] ∧
    (moving true).cutReady (mig0 true) tab0 ((moving true).homeOf 0 tab0 0).2 = true ∧
    ((moving true).cutOver 7 (mig0 true) tab0 ((moving true).homeOf 0 tab0 0).2).isSome = true ∧
    (moving false).lostCopy (mig0 false) = false ∧ (moving false).wellShut = false ∧ (moving false).cmdJobs = [] := by decide +kernel

theorem wit_LifecycleEvents_ack :
    let s := stL.setReg .migState 7 0x80000000
    Accepted s .entry .migState 7 0x80000000 .ok ∧ s.flag .migState 7 31 = true :=
  ⟨accepted_of (by decide +kernel), by decide +kernel⟩

/-- The page's data has come from the well. -/
def pageCame : State := { stL with
  pages := [(0, { pg0 with data := none, miss := true, dirty := none })]
  wells := [(0, { Well.reset with arrived := [(9, .ok, [7, 7])] })] }

theorem wit_LifecycleEvents_room (p : Page) : (pageCame.setPages p).length < 16 :=
  Nat.lt_of_le_of_lt (List.length_filter_le _ _) (by decide +kernel)

theorem wit_LifecycleEvents_page :
    (pageCame.well 0).arrived = [(9, .ok, [7, 7])] ∧
    (pageCame.pages.find? (fun kv => kv.2.lpn == some 9 && kv.2.engine / 32 == 0 && kv.2.miss)).map Prod.fst = some 0 ∧
    pageCame.parts = [] ∧ pageCame.adds = [] ∧ (pageCame.shadows.filter (·.due)) = [] ∧ pageCame.repacks = [] ∧
    (pageCame.pages.all fun kv => kv.2.swept == false) = true ∧ pageCame.hots = [] ∧
    pageCame.lcRun = none := by decide +kernel

/-- A page that a migration brings. -/
def brought : MovedPage := ⟨0, false, false, 1, List.replicate 2048 7, []⟩

theorem wit_LifecycleEvents_room_for_pages :
    stL.table 0 = some tab0 ∧ stL.dir.length < 65536 ∧
    (([brought] : List MovedPage).foldl (fun o m => o.bind fun s => bringPage 0 0 5 s m)
      (some { stL with dir := stL.dir.set (State.dirKey 0 0) ⟨0, stL.node, 5, 0, none⟩ })).isSome = true := by decide +kernel

/-! ### Witnesses: the cistern and the well -/

/-- The cistern is in service, and the well is up with good hold-up. -/
def up : State := { ((((stL.setFlag .welState 0 0 true).setFlag .welState 0 5 false).setFlag .welState 0 3 true).setFlag .cisState
  0 0 true) with nandHot := [] }

/-- Sub-channel 0 of channel 0 with writes that wait. -/
def writesWait (l : List Nat) : State := { up with subs := [(0, ⟨false, [], l⟩)] }

theorem wit_CisternAccesses :
    up.cisReady = true ∧ up.inReset 6 0 = false ∧ up.cisQ.getD 0 [] = [] ∧ State.subOf 0 up.sliceBytes = 0 ∧
    up.outstanding 0 < 256 ∧ (up.sub 0).writing = false ∧ (up.sub 0).reads = [] ∧
    up.workAddr 0 (up.sliceBytes / 64 * 64) = some 0 ∧ up.cis.wf = true ∧ up.sliceBytes % 64 = 0 ∧
    (writesWait (List.replicate 30 64)).cis.wf = true ∧ ((writesWait (List.replicate 30 64)).sub 0).writes.length < 31 ∧
    (up.sub 0).writes = [] ∧ ((writesWait [64]).sub 0).writes = [64] ∧
    (st0.setFlag .cisScrubCfg 0 8 false).flag .cisScrubCfg 0 8 = false ∧
    (st0.setFlag .cisScrubCfg 0 8 true).flag .cisScrubCfg 0 8 = true ∧ st0.inReset 6 (st0.scrubPos / 2 ^ 29) = false ∧
    (st0.sub (State.subOf (st0.scrubPos / 2 ^ 29) (st0.scrubPos % 2 ^ 29 * 64))).reads = [] := by decide +kernel

/-- What the code makes of an access read with errors. -/
def readAs (bad : Bool) (err : AccessErr) : Verdict :=
  (decodeAccess (misread err (encodeAccess (List.replicate 64 5) bad))).1

theorem wit_CisternAccesses_clean : readAs false [] = .clean := by decide +kernel
theorem wit_CisternAccesses_poison : readAs true [] = .poison := by decide +kernel
theorem wit_CisternAccesses_corrected : readAs false [(35, 0x8001)] = .corrected := by decide +kernel
theorem wit_CisternAccesses_bad : readAs false [(0, 1), (35, 0x8001)] = .bad := by decide +kernel

/-- Context 0 with a pool of a contiguous range, and sizes and addresses in registers. -/
def pooled (x : Pool) : State := { (stL.modCore 0 fun k => ((k.setS 5 256).setS 6 0x100100).setS 7 0x999999) with
  pools := [(15, x)] }

def poolNew : Pool := ⟨0x100000, 0x20000, 0x1FFF, true, 0, [(0x100000, 3)], []⟩
def poolUsed1 : Pool := ⟨0x100000, 0x20000, 0x1FFF, false, 0, [], [(0x100100, 0)]⟩

/-- The fields of a pool staged for POOL_SET, with no launch in its context. -/
def poolStaged : State := { ((stL.setReg .poolStage 0 0x10000000).setReg .poolStage 2 0x20000000).setReg .poolStage 4 0x1FFF with
  launches := [] }

/-- A pool with no launch in its context. -/
def poolIdle : State := { pooled poolNew with launches := [] }

theorem wit_PoolsAllocateAndFree_commands :
    Accepted poolStaged .entry .poolCmd 0 1 (poolStaged.poolCheck 1) ∧
    Accepted poolIdle .entry .poolCmd 0 0xF02 (poolIdle.poolCheck 0xF02) ∧
    Accepted poolIdle .entry .poolCmd 0 3 (poolIdle.poolCheck 3) :=
  ⟨accepted_of (by decide +kernel), accepted_of (by decide +kernel), accepted_of (by decide +kernel)⟩

/-- What ALC finds: the pool, and how a size fits it. -/
def alcFinds (x : Pool) : Bool × Option Nat × Bool :=
  let s1 := (pooled x).afterFetch 0 none
  (s1.pools.get? 15 == some x && issuesB (pooled x) 0 (iw 9 5 0 15) none (.p 7 :: sRegs [9, 5]) &&
    decide (((s1.core 0).getS 5).toNat ≤ Pool.bytes (Pool.top x.classes)), x.fit ((s1.core 0).getS 5).toNat,
    ((x.fit ((s1.core 0).getS 5).toNat).map x.candidates == some []))

theorem wit_PoolsAllocateAndFree_alc : alcFinds poolNew = (true, some 0, false) ∧ alcFinds poolUsed1 = (true, some 0, true) := by
  decide +kernel

theorem wit_PoolsAllocateAndFree_fre :
    let s1 := (pooled poolUsed1).afterFetch 0 none
    let hit := fun a => ((s1.ctxPools 0).find? fun kv => (kv.2.used.get? a).isSome).map Prod.fst
    Issues (pooled poolUsed1) 0 (iw 0 6 0 0) none (sRegs [6]) ∧ ((s1.core 0).getS 6).toNat = 0x100100 ∧ hit 0x100100 = some 15 ∧
    poolUsed1.used.get? 0x100100 = some 0 ∧ poolUsed1.merge = false ∧
    Issues (pooled poolUsed1) 0 (iw 0 7 0 0) none (sRegs [7]) ∧ hit 0x999999 = none ∧
    (s1.ctxPools 0).any (fun kv => (kv.2.free.get? 0x999999).isSome) = false :=
  ⟨issues_of (by decide +kernel), by decide +kernel, by decide +kernel, by decide +kernel, by decide +kernel,
    issues_of (by decide +kernel), by decide +kernel, by decide +kernel⟩

/-- Half 0 of the well. -/
def withW (w : Well) (s : State := up) : State := { s with wells := [(0, w)] }

/-- A codeword's data, and a place. -/
def data3 : List Byte := List.replicate 2048 3
def pca0 : Nat := pcaAt 0 (bidAt 1 3 0 5) 2 4

/-- The blocks of a stripe block of channels 0 to 3. -/
def blocksOf (n erases : Nat) : SMap Blk := (List.range 4).map fun c =>
  (bidAt c 3 0 5, { Blk.fresh with erases := erases, stripe := some n })

/-- One codeword in a stripe block of group 3 that takes programs, or no more. -/
def wellOne : Well := { Well.reset with
  map := [(9, pca0)], jmap := [(9, pca0)], cells := [(pca0, ⟨0, 9, 4, 0, data3⟩)], seq := 4, marker := 0, nextStripe := 8
  blocks := blocksOf 7 0, stripes := [(7, ⟨3, 0, [(0, 5), (1, 5), (2, 5), (3, 5)], 3, false⟩)] }
def wellOpen : Well := { wellOne with opened := [7] }

theorem wit_WellRequestsAndUpkeep_read :
    ((withW { wellOne with reqs := [.read 9] } (up.setFlag .welState 0 5 true)).well 0).reqs = [.read 9] ∧
    (up.setFlag .welState 0 5 true).wellShut = true ∧ up.wellShut = false ∧ up.wellUp = true ∧
    ({ wellOne with lost := [9] } : Well).lost.contains 9 = true ∧ wellOne.lost.contains 9 = false ∧ wellOne.quick 9 = none ∧
    (wellOne.quick 8).isSome = true := by decide +kernel

theorem wit_WellRequestsAndUpkeep_write :
    ((withW { wellOne with reqs := [.write 9 0 [3]] }).well 0).reqs = [.write 9 0 [3]] ∧ wellOne.buf.length < 12288 ∧
    up.defers 0 = false ∧ ({ up with nandHot := [0] } : State).defers 0 = true ∧ up.wellMode 0 ≠ 2 ∧
    (wellOne.map.get? 9).isSome = true ∧ up.page 0 = some pg0 ∧ up.holdupOk = true ∧
    (up.setFlag .welState 0 3 false).holdupOk = false ∧ (up.setFld .whState 0 1 0 2).wellMode 0 = 2 ∧
    ((withW { wellOne with reqs := [.trim 9] }).well 0).reqs = [.trim 9] ∧ up.parts = [] ∧ up.adds = [] ∧
    up.shadows.filter (·.due) = [] ∧ up.repacks = [] ∧ (up.pages.all fun kv => kv.2.swept == false) = true ∧ up.hots = [] ∧
    up.lcRun = none := by decide +kernel

theorem wit_WellRequestsAndUpkeep_moves :
    ({ wellOne with failed := List.range 128 } : Well).freeStripes * 50 < stripeCount ∧
    ({ wellOne with failed := List.range 128 } : Well).emptiest = some 7 ∧ stripeCount ≤ wellOne.freeStripes * 50 ∧
    wellOne.eraseMax ≤ wellOne.eraseMin + 300 ∧ ({ wellOne with blocks := blocksOf 7 301 } : Well).eraseMin + 300 <
      ({ wellOne with blocks := blocksOf 7 301 } : Well).eraseMax ∧
    ({ wellOne with blocks := blocksOf 7 301 } : Well).coldest = some 7 := by decide +kernel

theorem wit_WellRequestsAndUpkeep_tables :
    wellOpen.unacked = [] ∧ ((wellOpen.mark 0).journal 0 0).isSome = true ∧
    (({ wellOpen with pend := [(9, some pca0)] } : Well).journal 0 0).isSome = true ∧
    ((wellOpen.mark 0).checkpoint 0).isSome = true := by decide +kernel

theorem wit_WellRequestsAndUpkeep_media :
    let s := (up.setFlag .whScrubCfg 0 0 true).setFld .whScrubCfg 0 15 8 9
    let b := bidAt 3 3 0 5
    s.wellUp = true ∧ s.flag .whScrubCfg 0 0 = true ∧ (wellOne.blk b).stripe = some 7 ∧ (wellOne.stripe 7).pos ≠ 0 ∧
    (wellOne.stripe 7).gone = false ∧ 8 < s.fld .whScrubCfg 0 15 8 ∧
    (wellOne.blk b).reads + (wellOne.stripe 7).pos < 1000 * (s.setFld .whScrubCfg 0 31 16 1).fld .whScrubCfg 0 31 16 ∧
    wellOne.failed.contains (8 * 15 + 7) = false := by decide +kernel

/-- Channel 2's die of group 3 has failed, and with it channel 1's. -/
def oneDead : Well := { wellOpen with failed := [19], rebuilding := [3] }
def twoDead : Well := { wellOpen with failed := [11, 19], rebuilding := [3] }

/-- The stripe blocks that hold codewords of failed dies of group 3. -/
def touchedBy (w : Well) : List Nat := (w.stripes.filter fun kv =>
  kv.2.group == 3 && !kv.2.gone && kv.2.blks.any fun cb => (w.dead 3).contains cb.1).map (·.1)

theorem wit_WellRequestsAndUpkeep_rebuild :
    oneDead.rebuilding = [3] ∧ touchedBy oneDead = [7] ∧ (oneDead.rebuild 0 (touchedBy oneDead)).isSome = true ∧
    touchedBy twoDead = [7] ∧ (twoDead.rebuild 0 (touchedBy twoDead)).isNone = true := by decide +kernel

theorem wit_WellDiesEndTheirWork :
    let s := up.setFld .whScrubCfg 0 31 16 1
    let r := fun (n : Nat) => (⟨9, pca0, n, []⟩ : NandRead)
    ([r 0] : List NandRead).find? (·.lpn == 9) = some (r 0) ∧ wellOne.cells.get? pca0 = some ⟨0, 9, 4, 0, data3⟩ ∧
    (wellOne.blk (pcaBid pca0)).stripe = some 7 ∧ ((Well.bidsOf (wellOne.stripe 7)).all fun b =>
      decide (((wellOne.countReads (r 0)).blk b).reads < 1000 * s.fld .whScrubCfg 0 31 16)) = true ∧
    wellOne.map.get? 9 = some (r 3).pca ∧ (wellOne.buf.any fun b => b.lpn == 9) = false ∧
    up.defers 0 = false ∧ (wellOpen.places 0).isEmpty = false ∧ 0 < wellOpen.room ∧
    ({ wellOne with erasing := [7] } : Well).erasing = [7] ∧
    ((([r 1] : List NandRead).any fun x => wellOne.inStripe 8 x.pca) = false) := by decide +kernel

/-- Both codewords of a page position of two blocks: the one and its parity. -/
def pair : Well := { wellOne with
  stripes := [(7, ⟨3, 0, [(1, 5), (7, 5)], 3, false⟩)]
  blocks := [(bidAt 1 3 0 5, { Blk.fresh with stripe := some 7 }), (bidAt 7 3 0 5, { Blk.fresh with stripe := some 7 })]
  parity := [(pcaAt 0 (bidAt 7 3 0 5) 2 4, (⟨0, 9, 4, 0, data3⟩ : Cell).stored 0)] }

theorem xor_zeros (n : Nat) (bs : List Byte) (h : bs.length = n) :
    List.zipWith (fun a b => a ^^^ b) (List.replicate n 0) bs = bs := by
  induction bs generalizing n with
  | nil => simp
  | cons b bs ih =>
    subst h
    rw [List.length_cons, List.replicate_succ, List.zipWith_cons_cons, ih _ rfl]
    simp

theorem xorAll_one (bs : List Byte) (h : bs.length = 2256) : xorAll [bs] = bs := xor_zeros 2256 bs h

theorem stored_length (h : Nat) (c : Cell) : (c.stored h).length = 2256 := by
  have (n v : Nat) : (leBytes n v).length = n := by
    induction n generalizing v with
    | zero => rfl
    | succ n ih => simp [leBytes, ih]
  simp [Cell.stored, this]

theorem wit_WellDiesEndTheirWork_rebuilt : pair.rebuilt 0 pca0 = some ⟨0, 9, 4, 0, data3⟩ := by
  have h1 : (pair.blk (pcaBid pca0)).stripe = some 7 := by decide +kernel
  have h2 : (pair.stripe 7).blks.any (fun cb => cb.1 != pcaChan pca0 && (pair.dead (pair.stripe 7).group).contains cb.1) = false := by
    decide +kernel
  have h3 : pair.parityFirst 7 = [bidAt 7 3 0 5, bidAt 1 3 0 5] := by decide +kernel
  have h4 : ([bidAt 1 3 0 5].filter fun b => b != pcaBid pca0) = [] := by decide +kernel
  have h5 : pair.parity.getD (pcaAt 0 (bidAt 7 3 0 5) (bitsOf pca0 13 3) (bitsOf pca0 2 0)) (List.replicate 2256 0) =
      (⟨0, 9, 4, 0, data3⟩ : Cell).stored 0 := rfl
  have h6 : pair.cells.get? pca0 = some ⟨0, 9, 4, 0, data3⟩ := by decide +kernel
  simp only [Well.rebuilt, h1, Option.bind_some, h2, h3, h4, h5, h6, List.map_nil, xorAll_one _ (stored_length 0 _)]
  simp

theorem wit_WellMountsAndCommands_mount :
    let down := { up.setFlag .welState 0 0 false with mountDue := true }
    down.cmdJobs = [] ∧ down.wellUp = false ∧ down.welMount = none ∧ down.cisReady = true ∧ down.mountDue = true ∧
    up.mountDue = false ∧ (down.well 0).marker ≠ 0 ∧ (down.well 1).marker ≠ 0 ∧ ((withW wellOne down).well 0).marker = 0 ∧
    ({ down with welMount := some 1 } : State).welMount = some 1 ∧ down.welRun = none := by decide +kernel

theorem wit_WellMountsAndCommands_commands :
    let shut := up.setFlag .welState 0 5 true
    Accepted up .entry .welCmd 0 1 (welCheck up 1) ∧ Accepted up .entry .welCmd 0 2 (welCheck up 2) ∧
    Accepted { up with tables := [] } .entry .welCmd 0 0x5A170003 (welCheck { up with tables := [] } 0x5A170003) ∧
    Accepted (shut.setFlag .welState 0 0 false) .entry .welCmd 0 4 (welCheck (shut.setFlag .welState 0 0 false) 4) ∧
    ({ up with welRun := some 2 } : State).welRun = some 2 ∧ ({ up with welRun := some 3 } : State).welRun = some 3 ∧
    ({ up with welRun := some 1 } : State).wellUp = true ∧ (up.setFlag .welState 0 4 true).flag .welState 0 4 = true ∧
    ((up.well 0).reads.all fun _ => false) = true ∧ up.defers 0 = false ∧ up.defers 1 = false :=
  ⟨accepted_of (by decide +kernel), accepted_of (by decide +kernel), accepted_of (by decide +kernel),
    accepted_of (by decide +kernel), by decide +kernel, by decide +kernel, by decide +kernel, by decide +kernel,
    by decide +kernel, by decide +kernel, by decide +kernel⟩

/-! ### Witnesses: queues and launches -/

/-- An address register, as its pair of registers was last written. -/
def withAddr (r : Reg) (i v : Nat) (s : State) : State := { s with addrs := s.addrs.set (r.key i) v }

/-- Bytes written to working memory. -/
def wr (a : Nat) (bs : List Byte) (s : State) : State := { s with cis := Mem.writeL s.cis a bs }

/-- A submission entry of a type: class, image and parameter block. -/
def entry0 (type cl image param : Nat) : List Byte :=
  [BitVec.ofNat 8 type, 0, BitVec.ofNat 8 cl, 0] ++ leBytes 4 77 ++ leBytes 8 image ++ leBytes 8 param ++ List.replicate 40 0

/-- A queue's configuration: enabled or not, kind, rings of eight. -/
def qcfg (kind : Nat) (en : Nat := 1) : Word := BitVec.ofNat 32 (en + 2 * kind + 2 ^ 18 * 3 + 2 ^ 23 * 3)

/-- A LAUNCH queue 5 with two entries in its ring, a TASK queue 6 with one, and queue 7 that is not enabled. -/
def fe0 : State :=
  let s := { stMem with launches := [], nextLaunch := 0, cores := [] }
  let s := ((s.setFld .secState 0 17 14 4).setFlag .hifState 0 0 true).setFlag .hifState 0 16 true
  let s := withAddr .ctxRootHi 0 0x100000 (wr 0x100000 (leBytes 8 0x140001) (wr 0x140000 (leBytes 8 0x13) s))
  let s := ((s.setReg .feQCfg 5 (qcfg 0)).setReg .feQCfg 6 (qcfg 1)).setReg .feQCfg 7 (qcfg 0 0)
  let s := withAddr .feQSqHi 5 0 (withAddr .feQCqHi 5 0x210000 (withAddr .feQSqHi 6 0x202000 (withAddr .feQCqHi 6 0x212000 s)))
  let s := wr 0 (entry0 1 1 0x220000 0x230000) (wr 0x40 (entry0 1 1 0x220000 0x230000) s)
  let s := wr 0x202000 (entry0 5 1 0x220000 0x230000) (s.setFld .kpcClst 0 1 0 0)
  wr 0x220000 (leBytes 2 1 ++ [0, 0] ++ leBytes 2 1 ++ leBytes 2 0 ++ leBytes 4 0x1000 ++ leBytes 4 8 ++ leBytes 2 1)
    (wr 0x230000 (leBytes 2 1) s)

def fe1 : State := goes [execSqDoorbell .entry 5 2, execSqDoorbell .entry 6 1] fe0
def fe2 : State := goes [execEntryFetch 5, execEntryFetch 6] fe1
def fe3 : State := goes [execLaunchEntry 0] fe2
/-- No composer runs. -/
def noComposer (s : State) : Bool := (List.range 16).all fun k => !s.flag .cmpCtl k 0

theorem wit_QueuesTakeTheirDoorbells :
    noComposer fe0 = true ∧ (fe0.queue 5).buf = [] ∧ fe0.arrives .entry = true ∧ fe0.qEn 5 = true ∧ fe0.qEn 7 = false ∧
    (7 : Word).toNat < fe0.sqSize 5 ∧ (7 : Word).toNat < fe0.sqSize 7 ∧ (0 : Word).toNat < fe0.cqSize 5 ∧
    ((fe0.queue 5).sqTail + fe0.sqSize 5 - (fe0.queue 5).sqHead) % fe0.sqSize 5 ≤
      ((7 : Word).toNat + fe0.sqSize 5 - (fe0.queue 5).sqHead) % fe0.sqSize 5 ∧
    ((0 : Word).toNat + fe0.cqSize 5 - (fe0.queue 5).cqHead) % fe0.cqSize 5 ≤
      ((fe0.queue 5).cqTail + fe0.cqSize 5 - (fe0.queue 5).cqHead) % fe0.cqSize 5 := by decide +kernel

/-- Queue 5 blocked, and a queue with messages to send. -/
def blocked : State := fe1.setQueue 5 { fe1.queue 5 with fetch := .blocked }
def unsignalled : State := (fe0.setReg .feQIrq 5 (BitVec.ofNat 32 (2 ^ 11 + 2 ^ 20 * 5 + 3))).setQueue 5 { fe0.queue 5 with unsig := 2 }

theorem wit_QueuesTakeTheirDoorbells_control :
    Accepted blocked .entry .feQCtrl 5 1 (blocked.qCtrlCheck 5 1) ∧ Accepted fe0 .entry .feQCtrl 7 2 (fe0.qCtrlCheck 7 2) ∧
    Accepted fe0 .entry .feSpillHead 0 0 (fe0.spillHeadCheck 0) ∧ Accepted fe0 .entry .cmpTails 15 0 (fe0.tailsCheck 15 0) ∧
    unsignalled.flag .feQIrq 5 11 = true ∧ unsignalled.fld .feQIrq 5 31 20 ≠ 0 ∧ (unsignalled.queue 5).unsig ≠ 0 ∧
    unsignalled.portUp (unsignalled.homePort (unsignalled.qCtx 5)) = true ∧ unsignalled.msixMask = [] ∧
    unsignalled.appears (unsignalled.homePort (unsignalled.qCtx 5)) (unsignalled.ctxFn (unsignalled.qCtx 5)) = true ∧
    unsignalled.hostSent = [] ∧ (∀ q, q < 8 → (fe0.queue q).fetch ≠ .blocked) :=
  ⟨accepted_of (by decide +kernel), accepted_of (by decide +kernel), accepted_of (by decide +kernel),
    accepted_of (by decide +kernel), by decide +kernel, by decide +kernel, by decide +kernel, by decide +kernel, by decide +kernel⟩

theorem wit_EntriesBecomeLaunches_fetch :
    let t := fe1.xlateEngine (fe1.fetcherOf 5) (fe1.qCtx 5) (fe1.entryVa 5 0) false
    fe1.serving = true ∧ fe1.qEn 5 = true ∧ (fe1.queue 5).fetch = .active ∧ fe1.published 5 = 2 ∧ fe1.fetchNext 5 = (0, 2) ∧
    (t.1.toOption.map fun l => decide (t.2.place l (fe1.entryVa 5 0) = .cis 0)) = some true ∧
    t.2.mayTouch (fe1.qCtx 5) 0 128 = true := by decide +kernel

theorem wit_EntriesBecomeLaunches_start :
    fe2.heldBy 0 < 8 ∧ fe2.nextLaunchQueue 0 = some 5 ∧ (fe2.takeEntry 5).isSome = true ∧
    ((fe3.launch 0).map fun x => (x.phase, fe3.parked x, decide (x.minCores ≤ (fe3.spanCores x).length),
      decide (fe3.spanCores x).Nodup, fe3.mayStart 0 x)) = some (.waiting, [], true, true, true) := by decide +kernel

/-- The launch is to start again; its cores have ended. -/
def restarting : State := (st0.setFld .secState 0 17 14 4).setLaunch 0 { launch0 with phase := .restart, cores := st0.spanCores launch0 }
def finished : State := st0.modCore 0 fun k => { k with ended := true, run := .idle }

theorem wit_EntriesBecomeLaunches_again :
    ((restarting.launch 0).map fun x => (x.phase, restarting.serving && decide (x.first + x.clusters ≤ 144), decide (x.cores = restarting.spanCores x))) =
      some (.restart, true, true) ∧
    ((restarting.launch 0).map fun x => (restarting.spanOf x).all fun n => (restarting.clLaunch n).all fun m => m == 0) = some true ∧
    ((finished.launch 0).map fun x => (x.code, finished.launchOver 0 x)) = some (.ok, true) := by decide +kernel

/-- Core 0 and a TASK queue 6 with an entry; a queue number, a scratchpad address and a handle stand in its registers. -/
def tk0 : State := ({ (((stMem.setReg .feQCfg 6 (qcfg 1)).setFld .secState 0 17 14 4).modCore 0 fun k =>
      ((k.setS 9 6).setS 10 0x400).setS 12 6) with
    fetched := [(6, [⟨6, 0, List.replicate 64 5, false⟩])] } : State).setQueue 6 { stMem.queue 6 with fetch := .active, sqTail := 2 }

theorem wit_TasksAreTakenAndPosted_qwt :
    let s1 := tk0.afterFetch 0 none
    Issues tk0 0 (iw 13 9 10 0x50000) none (.p 7 :: sRegs [13, 9, 10]) ∧ s1.qwtCode 0 6 0x400 = .ok ∧ s1.qwtWaiters 6 = [] ∧
    ((s1.takeEntry 6).map fun x => x.1.poison) = some false ∧ s1.askedWay 0 = false :=
  ⟨issues_of (by decide +kernel), by decide +kernel, by decide +kernel, by decide +kernel, by decide +kernel⟩

/-- A core that waits for a task. -/
def tasking : State := waiting (.qwt 6 0x400 5 13 0) tk0

/-- Core 0 waits for a task before core 1 asks for one. -/
def crowded : State := { tk0 with cores := tk0.cores.set 1 (tasking.core 0) }

theorem wit_TasksAreTakenAndPosted_wake :
    State.firstWaiter (tasking.qwtWaiters 6) = some 0 ∧ (tasking.core 0).wait = some (.qwt 6 0x400 5 13 0) ∧
    ((tasking.takeEntry 6).map fun x => x.1.poison) = some false ∧ (crowded.afterFetch 0 none).qwtWaiters 6 ≠ [] := by
  decide +kernel

/-- A core that holds a task. -/
def holding : State := tk0.setLaunch 0 { launch0 with tasks := [(6, 0, 77, 1)] }

theorem wit_TasksAreTakenAndPosted_qpt :
    let s1 := holding.afterFetch 0 none
    Issues holding 0 (iw 0 12 0 1) none (sRegs [12, 0]) ∧ (s1.taskOf 0 6).isSome = true ∧ s1.releaseReady 0 = true ∧
    Code.ofByte 0 = some .ok ∧ (tk0.afterFetch 0 none).taskOf 0 6 = none :=
  ⟨issues_of (by decide +kernel), by decide +kernel, by decide +kernel, by decide +kernel, by decide +kernel⟩

theorem wit_TasksAreTakenAndPosted_release :
    adding.releaseReady 0 = false ∧ (waiting (.release (.qpt 6 0 0 5 true)) holding).releaseReady 0 = true ∧
    (match signalBody 0 64 false 5 (waiting (.release (.sig 64 5))) with | .ok _ => true | _ => false) = true ∧
    (match signalBody 0 64 true 5 (waiting (.release (.rel 64 5))) with | .ok _ => true | _ => false) = true := by
  decide +kernel

/-- A composer with one step and one chunk in its rings, from queue 8. -/
def composing : State :=
  let s := withAddr .feQSqHi 8 0x204000 (withAddr .feQCqHi 8 0x214000 (fe0.setReg .feQCfg 8 (qcfg 0)))
  let s := withAddr .cmpStRingHi 1 0x240000 (withAddr .cmpChRingHi 1 0x250000 (withAddr .cmpTemplateHi 1 0x260000
    (withAddr .cmpBatchHi 1 0x270000 s)))
  let s := wr 0x240000 (leBytes 4 9 ++ leBytes 2 1 ++ List.replicate 58 7) (wr 0x250000 (leBytes 4 9 ++ leBytes 2 3 ++ List.replicate 58 0)
    (wr 0x260000 (leBytes 2 1) s))
  (((s.setReg .cmpCtl 1 (BitVec.ofNat 32 (1 + 2 * 8 + 2 ^ 13 * 3 + 2 ^ 18 * 3 + 2 ^ 23))).setReg .cmpFill 1
    (BitVec.ofNat 32 (100 + 2 ^ 16 * 200))).setReg .cmpSteps 1 8).setReg .cmpTails 1 0x10001

theorem wit_EntriesBecomeLaunches_batch :
    composing.flag .cmpCtl 1 0 = true ∧ (composing.chunksOf 1).length + (composing.stepsOf 1).length ≠ 0 ∧
    composing.freeBuf 1 = some 0 ∧
    ((composing.batchOf 1).map fun b => (b.2.emitBatch 1 0 b.1).map fun t => (t.closeBatch 1 false).isNone) = some (some true) := by
  decide +kernel

/-! ### Witnesses: scheduling -/

/-- Two banks of a cycle table: entry 0 names cluster 2, entry 1 names clusters with a make-way time. -/
def sched (run pend : Bool) (next : Nat := 0) (stop : Bool := false) : State :=
  let s := (stMem.setReg .schBank 0 (BitVec.ofNat 32 (100 + 2 ^ 14 * 2 + 2 ^ 24 * 5))).setReg .schBank 1
    (BitVec.ofNat 32 (100 + 2 ^ 14 * 1 + 2 ^ 24 * 2))
  let s := ((s.setReg .cycleWord 0 5).setReg .cycleWord 5 0x0103).setReg .cycleWord 8 2
  let s := ((s.setReg .cycleWord 12 (BitVec.ofNat 32 (50 * 2 ^ 16))).setReg .cycleWord 13 4).setReg .cycleWord 4096 7
  { (s.setFlag .schState 0 0 run).setFlag .schState 0 2 pend with schNext := next, schStop := stop }

theorem wit_CycleTableAssignsClasses_commands :
    Accepted (sched true false) .entry .schCmd 0 1 ((sched true false).schCheck 1) ∧ (sched true false).schRunning = true ∧
    Accepted (sched false false) .entry .schCmd 0 1 ((sched false false).schCheck 1) ∧ (sched false false).schRunning = false ∧
    Accepted (sched false false) .entry .schCmd 0 2 ((sched false false).schCheck 2) ∧
    Accepted (sched true false) .entry .schCmd 0 4 ((sched true false).schCheck 4) :=
  ⟨accepted_of (by decide +kernel), by decide +kernel, accepted_of (by decide +kernel), by decide +kernel,
    accepted_of (by decide +kernel), accepted_of (by decide +kernel)⟩

theorem wit_CycleTableAssignsClasses_frames :
    (sched true false 1).schNext = 1 ∧ 1 < (sched true false 1).bankN (sched true false 1).schBankNo ∧
    fieldAt ((sched true false 1).cycleEntry (sched true false 1).schBankNo 0) 21 1 ≠ 0 ∧
    (sched true false 2).bankN (sched true false 2).schBankNo ≤ (sched true false 2).schNext ∧
    (sched true false 2).schPending = false ∧ (sched true true 2).schPending = true ∧ (sched true false 2).schStop = false ∧
    (sched true false 2 true).schStop = true := by decide +kernel

/-- The named cluster does not run. -/
def asleep : State := ((sched true false).setFld .kpcClst 0 1 0 1).setFld .kpcClst 2 1 0 1

theorem wit_CycleTableAssignsClasses_prewake :
    (asleep.namedBy (asleep.cycleEntry asleep.schBankNo 0)).any (fun n => !asleep.inRun n && !asleep.flag .kpcClst n 2) = true := by
  decide +kernel

/-- Cluster 0's word of KPC_CLST, with no launch. -/
def clst (v : Nat) (policy : Nat := 0) : State := ({ st0 with launches := [], cores := [] }.setReg .schPolicy 0
  (BitVec.ofNat 32 policy)).setReg .kpcClst 0 (BitVec.ofNat 32 v)

theorem wit_ClustersParkAndWake :
    (∀ p ∈ [1, 2], (clst 0 p).inRun 0 = true ∧ (clst 0 p).clusterBusy 0 = false) ∧ (clst 0 1).parkState 0 = 1 ∧ 2 ≤ (clst 0 2).parkState 0 ∧
    ({ clst 4 with moving := [(0, 3)] } : State).moving.get? 0 = some (2 + 1) ∧ (clst 4).wakeWait.contains 0 = false ∧
    (clst 0).power = .on ∧ (clst 0).fld .glbClmap 0 9 8 ≠ 3 ∧ (clst 1).inRun 0 = false ∧ (clst 1).flag .kpcClst 0 2 = false ∧
    (clst 4).flag .kpcClst 0 2 = true ∧ ({ clst 4 with moving := [(0, 0)] } : State).moving.get? 0 = some 0 := by decide +kernel

/-- A launch that another one of its class waits for, with a place to save it. -/
def wanted0 : State := withAddr .schSaveHi 0 0x10000000 (({ stMem with
  launches := [(0, launch0), (1, { launch0 with phase := .waiting, cores := [] })] } : State).setFlag .schSaveHi 0 31 true)

/-- The same with a quantum and a reservation age. -/
def timed : State := (wanted0.setReg .schTimes 0 5).setReg .schPolicy 0 (BitVec.ofNat 32 (2 ^ 16 * 3))

/-- The launch was asked to make way and its core has stopped; it was suspended. -/
def asked0 : State := (wanted0.setLaunch 0 { launch0 with asked := true }).modCore 0 fun k => { k with
  stop := some .yieldPoint, run := .stopped }
def suspended : State := { (wanted0.setFld .kpcClst 0 1 0 0).setFld .secState 0 17 14 4 with launches := [(0, { launch0 with phase := .suspended })], cores := [] }

theorem wit_LaunchesMakeWayAndResume :
    timed.launch 1 = some { launch0 with phase := .waiting, cores := [] } ∧ timed.fld .schPolicy 0 31 16 ≠ 0 ∧
    timed.launch 0 = some launch0 ∧ timed.fld .schTimes 0 15 0 ≠ 0 ∧ timed.wanted 0 launch0 = true ∧ timed.saveOn = true ∧
    asked0.launch 0 = some { launch0 with asked := true } ∧ (∀ p ∈ launch0.cores, asked0.coreSaved p = true) ∧
    (asked0.core 0).ended = false := by decide +kernel

theorem wit_LaunchesMakeWayAndResume_resume :
    let x := { launch0 with phase := .suspended }
    suspended.launch 0 = some x ∧ suspended.mayStart 0 x = true ∧ (x.cores.all fun p => (suspended.spanCores x).contains p) = true ∧ suspended.parked x = [] ∧ x.halts = [] ∧
    suspended.pools = [] := by decide +kernel

/-- A yield point: keep 0, or 256 with GIVE. -/
def yieldWord (give : Bool) (keep : Nat) : IWord := { iw 0 0 0 (keep + bit give * 512) with yld := true }

theorem wit_LaunchesMakeWayAndResume_yield :
    Issues wanted0 0 (yieldWord false 256) none [] ∧ Issues wanted0 0 (yieldWord true 0) none [] ∧
    (wanted0.afterFetch 0 none).launchOf 0 = some (0, launch0) ∧ (wanted0.afterFetch 0 none).wanted 0 launch0 = true ∧
    (wanted0.afterFetch 0 none).saveOn = true :=
  ⟨issues_of (by decide +kernel), issues_of (by decide +kernel), by decide +kernel, by decide +kernel, by decide +kernel⟩

/-! ### Witnesses: the host interface and translation -/

/-- A window of VF 1, a region and a VF on each port. -/
def ho0 : State :=
  let s := fe0.setReg .fnWin 0 (BitVec.ofNat 32 (2 ^ 16 * 2))
  let s := (((s.setReg .rgnCfg 1 (BitVec.ofNat 32 (1 + 2 ^ 16 * 0x12))).setReg .rgnMask 1 0xFF).setReg .rgnBase 1 0x300).setReg .rgnSize
    1 2
  { s.setReg .hifCtx 0 1 with vfs := [1, 2, 65, 66], hlc := [5, 7], msixPend := [State.msixKey 0 1 3] }

/-- The port is down, and a host write of core 0 waits for it. -/
def ho1 : State := { (ho0.setFlag .hifState 0 0 false).setFlag .hifState 0 16 false with
  hostWaits := [⟨0, .store 0, 0, 0, 0, 0, [], false, 0, false⟩], perst := [] }

theorem wit_HostAccessesReachTheModule :
    ho0.cis.wf = true ∧ ho0.portUp 0 = true ∧ ho0.appears 0 0 = true ∧ ho0.appears 0 1 = true ∧
    ho0.bar2Code 0 4096 4 true = .ok ∧ ho0.bar2Code 1 (2 ^ 29 - 4) 4 true = .ok ∧ ho0.fnWindow 1 (2 ^ 29 - 3) 4 = false ∧
    ho0.bar2Code 0 4096 4096 false = .ok ∧ ho0.workSize < ho0.workSize - 3 + 4 ∧
    2 ^ 13 - 4 < ho0.fld .rgnSize 1 18 0 * 4096 ∧ ho0.admits 1 0x12 (2 ^ 13 - 4) 4 = true ∧ ho0.admits 1 0x13 0 4 = false := by
  decide +kernel

theorem wit_HostAccessesReachTheModule_clr :
    Accepted ho0 .entry .rgnCtrl 255 1 .ok := accepted_of (by decide +kernel)

theorem wit_HostAccessesReachTheModule_ports :
    ho0.warm = none ∧ ho0.power = .on ∧ ho0.hlc.contains 7 = true ∧ ho0.hlc.contains 6 = false ∧
    ho1.power = .on ∧ ho1.perst.contains 0 = false ∧ ho1.portUp 0 = false ∧ ho1.portUp (1 - 0) = false ∧
    (ho1.hostWaits.all fun w => w.port == 0 && !w.follows && decide (ho1.ctxFn w.ctx = 1)) = true ∧ (2 : BitVec 64).getLsbD 1 = true ∧
    (ho1.hostWaits.find? fun w => w.port == 0) = some ⟨0, .store 0, 0, 0, 0, 0, [], false, 0, false⟩ ∧
    ho0.msixPend.contains (State.msixKey 0 1 3) = true ∧ ho0.msixPend.contains (State.msixKey 0 1 2047) = false ∧
    ho0.hostSent = [] := by decide +kernel

/-- Queue 5's ring lies in host memory while both ports are down. -/
def ho2 : State := (withAddr .feQSqHi 5 (2 ^ 34) (wr 0x140008 (leBytes 8 0x17) fe1)).setFlag .hifState 0 0 false |>.setFlag .hifState 0 16
  false

theorem wit_HostAccessesReachTheModule_entries :
    let va := ho2.entryVa 5 (ho2.fetchNext 5).1
    let t := ho2.xlateEngine (ho2.fetcherOf 5) (ho2.qCtx 5) va false
    ho2.hostOpen (ho2.qCtx 5) = false ∧ ho2.qEn 5 = true ∧ (ho2.queue 5).fetch = .active ∧ (ho2.fetchNext 5).2 ≠ 0 ∧
    (t.1.toOption.map fun l => match t.2.place l va with | .host _ => true | _ => false) = some true := by decide +kernel

/-- Copy entries of queue 9: one to take, and one with a reserved flag. -/
def copyBytes (flags src dst len rows : Nat) : List Byte :=
  [3, BitVec.ofNat 8 flags, 0, 0] ++ leBytes 4 77 ++ leBytes 8 src ++ leBytes 8 dst ++ leBytes 4 len ++ leBytes 4 rows ++ leBytes 8 0 ++
    leBytes 8 len ++ List.replicate 16 0

/-- Two jobs of engine 0 wait as entries; context 0 maps host memory. -/
def cp0 (flags : Nat) : State :=
  let s := wr 0x140008 (leBytes 8 0x17) (withAddr .feQSqHi 9 0x1000 (withAddr .feQCqHi 9 0x215000 (ho0.setReg .feQCfg 9 (qcfg 2))))
  { s with fetched := [(9, [⟨9, 0, copyBytes flags (2 ^ 34 + 0x100) 0x8000 100 1, false⟩])] }.setQueue 9 { s.queue 9 with
    fetch := .active, sqTail := 1 }

/-- The job, in the queue of its engine. -/
def job9 : CopyJob := State.newCopy 9 0 1 (copyBytes 0 0x100 0x8000 100 1)
def cpQueued : State := (cp0 0).setCopy 0 job9

/-- It runs and holds its translations: from the host to working memory, or the other way. -/
def leafOf (host : Bool) : TlbEntry := ⟨0, 0, 0, ⟨host, true, true, 0⟩⟩
def jobIn : CopyJob := { job9 with prog := .running, slot := some 0, srcT := some (leafOf true), dstT := some (leafOf false) }
def jobOut : CopyJob := { job9 with
  engine := 4, prog := .running, slot := some 0, src := 0x8000, dst := 0x100, srcT := some (leafOf false), dstT := some (leafOf true) }

theorem wit_CopyEnginesMoveTheirJobs_entry :
    ((cp0 0).copiesOf 0).length < 8 ∧ (cp0 0).nextCopyQueue 0 = some 9 ∧
    (((cp0 0).takeEntry 9).map fun x => State.copyCode x.1) = some .ok ∧
    (((cp0 4).takeEntry 9).map fun x => State.copyCode x.1) = some .badField := by decide +kernel

theorem wit_CopyEnginesMoveTheirJobs_job :
    cpQueued.copyJob 0 = some job9 ∧ job9.prog = .queued ∧ cpQueued.copySlot 0 = some 0 ∧ job9.order = false ∧
    ((cpQueued.setCopy 0 { job9 with prog := .issued }).copyJob 0).map (·.prog) = some .issued ∧ cpQueued.hostWaits = [] := by
  decide +kernel

theorem wit_CopyEnginesMoveTheirJobs_piece :
    let s := cpQueued.setCopy 0 jobIn
    let (src, dst, n) := State.copyPiece jobIn
    s.copyJob 0 = some jobIn ∧ jobIn.prog = .running ∧ jobIn.done < jobIn.len * jobIn.rows ∧ s.inReset 4 0 = false ∧
    s.ctxOn (s.qCtx 9) = true ∧ s.heldLeaf (s.qCtx 9) src false jobIn.srcT = some (leafOf true).leaf ∧
    s.heldLeaf (s.qCtx 9) dst true jobIn.dstT = some (leafOf false).leaf ∧ s.place (leafOf true).leaf src = .host 0x100 ∧
    s.place (leafOf false).leaf dst = .cis 0x8000 ∧ s.mayTouch (s.qCtx 9) 0x8000 n = true ∧ s.leaves 0 (s.qCtx 9) = true := by
  decide +kernel

theorem wit_CopyEnginesMoveTheirJobs_out :
    let s := cpQueued.setCopy 0 jobOut
    let (src, dst, n) := State.copyPiece jobOut
    s.copyJob 0 = some jobOut ∧ 4 ≤ jobOut.engine % 8 ∧ s.inReset 4 4 = false ∧
    s.heldLeaf (s.qCtx 9) src false jobOut.srcT = some (leafOf false).leaf ∧
    s.heldLeaf (s.qCtx 9) dst true jobOut.dstT = some (leafOf true).leaf ∧ s.place (leafOf false).leaf src = .cis 0x8000 ∧
    s.place (leafOf true).leaf dst = .host 0x100 ∧ s.mayTouch (s.qCtx 9) 0x8000 n = true ∧
    s.egressOk (s.qCtx 9) 0 0x100 n = true ∧ s.cisBad 0x8000 n = false ∧ s.hostWaits = [] ∧ s.leaves 0 (s.qCtx 9) = true := by
  decide +kernel

/-- Core 0 in a translation that walks: of a mapped address, of one that no entry maps, or as a fault record holds it. -/
def stall0 (va : Nat) : Stall := ⟨2, 0, iw 9 5 0 0, va, false, 0, none, false, 0⟩
def walker (x : Stall) (halt : Bool := false) : State :=
  { (((cp0 0).setFlag .ctxCfg 0 1 halt).setCore 0 { regs0 with stall := some x, run := .waiting, launch := none }) with
    walkQ := [.core 0] }

/-- What a walk ends with: a leaf, or a fault. -/
def walkEnds (s : State) (st : Stream) (va : Nat) : Nat :=
  match ((s.freeWalker st).walk st 0 va false).1 with
  | .leaf _ => 1
  | .fault _ => 2
  | _ => 0

theorem wit_WalksAndFaultRecordsEnd_core :
    let s := walker (stall0 (2 ^ 34 + 8))
    let u := walker (stall0 (2 ^ 40)) true
    (s.core 0).stall = some (stall0 (2 ^ 34 + 8)) ∧ (s.core 0).stop = none ∧ s.holdsWalker (.core 0) = true ∧ s.ctxOn 0 = true ∧
    (stall0 0).epoch = s.epoch 0 ∧ walkEnds s (.core 0) (2 ^ 34 + 8) = 1 ∧ walkEnds u (.core 0) (2 ^ 40) = 2 ∧ u.ctxHalt 0 = true ∧
    (walker (stall0 (2 ^ 40))).ctxHalt 0 = false ∧ walkEnds (walker (stall0 (2 ^ 40))) (.core 0) (2 ^ 40) = 2 ∧
    (u.core 0).launch = none ∧ u.recOf 0 (2 ^ 40 / 2 ^ 28) = none ∧ u.recs.length < 4096 ∧
    ((walker { stall0 8 with record := some 0, ready := true }).core 0).stall = some { stall0 8 with record := some 0, ready := true } ∧
    ((walker { stall0 8 with record := some 0 }).core 0).stall = some { stall0 8 with record := some 0 } ∧
    ({ s with walkQ := [] } : State).holdsWalker (.core 0) = false := by decide +kernel

/-- A descriptor that walks. -/
def dmaWalk : State := { withJobs [{ job0 with cls := 6, w := iw 2 1 0 0, descs := [(1, 0x40 ||| (1 <<< 57)), (2, 0)], prog := .walking 64 0 }]
  (cp0 0) with walkQ := [.dma 0 0] }

/-- A copy job that walks. -/
def copyWalk0 : State := { cpQueued.setCopy 0 { job9 with prog := .walking (2 ^ 34) 0 } with walkQ := [.copy 0] }

theorem wit_WalksAndFaultRecordsEnd_engines :
    ((slotJob dmaWalk 0 0).map fun j => j.prog == .walking 64 0) = some true ∧ dmaWalk.holdsWalker (.dma 0 0) = true ∧
    dmaWalk.ctxOn (dmaWalk.core 0).ctx = true ∧ dmaWalk.epoch (dmaWalk.core 0).ctx = 0 ∧
    ((copyWalk0.copyWalking 0).map fun x => (x.2.2.1, x.2.2.2, x.2.1.engine)) = some (2 ^ 34, 0, 0) ∧
    copyWalk0.holdsWalker (.copy 0) = true ∧ copyWalk0.ctxOn (copyWalk0.qCtx 9) = true ∧ copyWalk0.epoch (copyWalk0.qCtx 9) = 0 ∧
    walkEnds copyWalk0 (.copy 0) (2 ^ 34) = 1 := by decide +kernel

/-- A fault record that waits for its ring. -/
def faulted : State := { ((withAddr .fringHi 0 0x300000 (cp0 0)).setReg .fringCfg 0 3) with
  ringWait := [4095], recs := [(4095, ⟨0, 2 ^ 12, [.core 0], 2 ^ 40, false, .noEntry, 0, .core 0⟩)] }

theorem wit_WalksAndFaultRecordsEnd_ring :
    faulted.cis.wf = true ∧ faulted.fringFull = false ∧ (faulted.recs.get? 4095).isSome = true ∧
    Accepted faulted .entry .fringHead 0 0 (faulted.fringHeadCheck 0) ∧
    Accepted faulted .entry .xltFcmp 0 0xFFF (faulted.fcmpCheck 0xFFF) ∧
    Code.ofByte ((0xFFF : Word).toNat / 4096 % 256) = some .ok :=
  ⟨by decide +kernel, by decide +kernel, by decide +kernel, accepted_of (by decide +kernel), accepted_of (by decide +kernel),
    by decide +kernel⟩

/-- Context 0 with translations held, and an invalidation of it that runs. -/
def held0 : State := { cp0 0 with
  wcache := [(0, [⟨0, 34, 0, 0, 0x140000⟩])], ats := [(0, [⟨0, 0, 3, 9⟩])] }
def running0 : State := { held0 with inval := some ⟨0, none, false⟩ }
def undrained : State := { running0.setReg .ctxEpoch 0 1 with
  hostWaits := [⟨0, .store 0, 0, 0, 0, 0, [], false, 0, false⟩] }

theorem wit_InvalidationsDiscardTranslations :
    Accepted held0 .entry .xltInv 0 0xC0 (held0.invCheck 0xC0) ∧ (0xC0 : Word).getLsbD 7 = true ∧ (0xC0 : Word).getLsbD 6 = true ∧
    held0.cores = [] ∧ running0.inval = some ⟨0, none, false⟩ ∧ running0.drained ⟨0, none, false⟩ = true ∧
    undrained.drained ⟨0, none, false⟩ = false ∧ held0.inval = none ∧ held0.ctxOn 0 = true ∧ held0.ctxOn 63 = false :=
  ⟨accepted_of (by decide +kernel), by decide +kernel, by decide +kernel, by decide +kernel, by decide +kernel, by decide +kernel,
    by decide +kernel, by decide +kernel, by decide +kernel, by decide +kernel⟩

theorem wit_InvalidationsDiscardTranslations_enables :
    Accepted held0 .entry .ctxCfg 0 0 (held0.ctxCfgCheck 0 0) ∧ Accepted held0 .entry .ctxCfg 63 1 (held0.ctxCfgCheck 63 1) :=
  ⟨accepted_of (by decide +kernel), accepted_of (by decide +kernel)⟩

/-- The host translates for context 0. -/
def atsOn : State := (cp0 0).setFlag .ctxCfg 0 2 true

theorem wit_InvalidationsDiscardTranslations_host :
    atsOn.ctxOn 0 = true ∧ atsOn.flag .ctxCfg 0 2 = true ∧ (match atsOn.walk (streamOf (.core 0)) 0 (2 ^ 34 + 8) false with
      | (.leaf l, t) => (match t.place l (2 ^ 34 + 8) with | .host _ => true | _ => false)
      | _ => false) = true := by decide +kernel

/-- Core 0 waits for a semaphore of context 0. -/
def watching : State := held0.setCore 0 { regs0 with
  run := .waiting, wait := some (.wat 64 64 5 false true 7 3 0), waddr := 64 }

theorem wit_InvalidationsDiscardTranslations_wat :
    let u := ({ (watching.setReg .ctxEpoch 0 (watching.reg .ctxEpoch 0 + 1)).discard 0 none with inval := some ⟨0, none, false⟩ } : State)
    Accepted watching .entry .xltInv 0 0xC0 (watching.invCheck 0xC0) ∧ (watching.core 0).ctx = 0 ∧
    (watching.core 0).wait = some (.wat 64 64 5 false true 7 3 0) ∧ (watching.cores.map (·.1)) = [0] ∧
    (u.semaphore 0 64 false).1.toOption = some 64 :=
  ⟨accepted_of (by decide +kernel), by decide +kernel, by decide +kernel, by decide +kernel, by decide +kernel⟩

/-! ### Witnesses: the Turlis link, faults and recovery -/

/-- A packet of a type to this module from node 1. -/
def pk (type addr arg tag : Nat) (body : List Byte := []) (pmask : Nat := 0) : Packet :=
  ⟨stMem.node, 0, 1, type, false, tag, pmask, addr, arg, body⟩

/-- Link 0 leads to node 1; counter 1 digests its two chunks and counter 2 admits node 5 only; window 0 of core 0 is open; digest
stream 3 goes to node 1. -/
def tl0 : State :=
  let s := ((stMem.setReg .rt 1 0).setFld .lnkState 0 2 0 3)
  let s := ((s.setReg .cntCfg 1 (BitVec.ofNat 32 (1 + 2 ^ 7 + 2 ^ 9))).setReg .cntBase 1 1).setReg .cntSize 1 2
  let s := ((s.setReg .cntCfg 2 (BitVec.ofNat 32 (1 + 2 ^ 9 * 5))).setReg .cntBase 2 8).setReg .cntSize 2 1
  let s := s.setReg .dmaWinCfg 0 (BitVec.ofNat 32 (1 + 2 ^ 8 + 2 ^ 16 + 2 ^ 31))
  let s := ((s.setReg .dsCfg 3 (BitVec.ofNat 32 (1 + 2 ^ 19))).setReg .dsBase 3 4).setReg .dsGeom 3 2
  { s with links := [(0, Link.reset)] }

/-- The same with a chunk of counter 1. -/
def chunked (x : Chunk) : State := { tl0 with cntChunks := [(1, [(0, x)])] }

theorem wit_RemoteRequestsAndAnswers_write :
    let p := pk 1 64 0 5 (line1 ++ line1) 2
    tl0.forMe p 0x01 = true ∧ p.addr + 128 ≤ tl0.workSize ∧ tl0.cis.wf = true ∧ tl0.cntsMet 64 128 = [] ∧ tl0.keys = [] ∧
    ((List.range 128).all fun x => tl0.keyAt (64 + x) == tl0.keyAt 64) = true ∧
    tl0.cntsMet (65536 + 16) 64 = [1] ∧ tl0.cntAdmits 1 1 = true ∧ tl0.flag .cntCfg 1 7 = true ∧
    ((List.range 64).all fun x => tl0.keyAt (65536 + 16 + x) == tl0.keyAt (65536 + 16)) = true ∧
    (tl0.setFlag .cntCfg 1 7 false).flag .cntCfg 1 7 = false ∧ (tl0.setFlag .cntCfg 1 7 false).cntsMet (65536 + 16) 64 = [1] ∧
    (tl0.cntRange 1).1 ≤ 65536 + 16 ∧ (65536 + 16 - (tl0.cntRange 1).1) % 65536 + 64 ≤ 65536 ∧
    (tl0.cntChunk 1 0).settling = none ∧ (tl0.cntChunk 1 0).digest = none ∧
    tl0.forMe (pk 1 (8 * 65536 + 3) 0 5 [1, 2]) 0x01 = true ∧ tl0.cntsMet (8 * 65536 + 3) 2 = [2] ∧ tl0.cntAdmits 2 1 = false := by
  decide +kernel

theorem wit_RemoteRequestsAndAnswers_aperture :
    let a := State.apertureBase + 4096
    tl0.forMe (pk 1 a 0 5 line1) 0x01 = true ∧ tl0.workSize < a + 64 ∧ tl0.memWf = true ∧
    a + 64 ≤ State.apertureBase + State.apertureSize ∧
    tl0.windowFor (tl0.physCore 0 0) 4096 64 1 = some 0 ∧ tl0.windowFor (tl0.physCore 0 0) (3 * 4096) 64 1 = none ∧
    tl0.workSize < State.apertureBase - 1 + 64 := by decide +kernel

theorem wit_RemoteRequestsAndAnswers_read :
    tl0.forMe (pk 2 64 64 5) 0x02 = true ∧ tl0.workSize < 2 ^ 43 + 64 ∧ 64 + 64 ≤ tl0.workSize ∧ tl0.touchesSealed 64 64 = false ∧
    tl0.touchesSealed (tl0.workSize - 64) 64 = false := by decide +kernel

/-- Context 1 is sealed, with a pool at 1 MiB. -/
def sealed1 : State := { tl0.setFlag .secCtrl 1 0 true with
  keys := [(1, 1)], nextKey := 2, pools := [(16, ⟨0x100000, 0x20000, 0x1FFF, true, 0, [(0x100000, 3)], []⟩)] }

theorem wit_RemoteRequestsAndAnswers_sealed :
    sealed1.forMe (pk 2 0x100000 64 5) 0x02 = true ∧ 0x100000 + 64 ≤ sealed1.workSize ∧ sealed1.touchesSealed 0x100000 64 = true := by
  decide +kernel

theorem wit_RemoteRequestsAndAnswers_digest :
    let full := chunked { State.noChunk with bytes := 65536, sum := 77 }
    let settling := chunked { State.noChunk with bytes := 65536, sum := 77, settling := some 3, digest := some 77, peer := 1 }
    full.forMe (pk 0x21 65536 77 0) 0x21 = true ∧ full.chunkCnt 65536 1 = some 1 ∧ (65536 : Nat).testBit 44 = false ∧
    (full.cntChunk 1 0).settling = none ∧ 65536 ≤ (full.cntChunk 1 0).bytes ∧ (full.cntChunk 1 0).sum = 77 ∧
    (full.cntChunk 1 0).sum ≠ 78 ∧ (65536 + 2 ^ 44 : Nat).testBit 44 = true ∧ (65536 + 2 ^ 44) % 2 ^ 44 = 65536 ∧
    settling.chunkCnt 65536 1 = some 1 ∧ (settling.cntChunk 1 0).settling.isSome = true ∧ (settling.cntChunk 1 0).digest = some 77 ∧
    (settling.cntChunk 1 0).resent = none := by decide +kernel

theorem wit_RemoteRequestsAndAnswers_streams :
    tl0.forMe (pk 0x22 (4 * 65536) 0 0) 0x22 = true ∧ tl0.chunkDs (4 * 65536) 1 = some 3 ∧ tl0.txns = [] ∧ tl0.route 1 0 = some 0 ∧
    tl0.forMe (pk 0x23 (5 * 65536) 3 0) 0x23 = true ∧ tl0.chunkDs (5 * 65536) 1 = some 3 ∧
    Accepted tl0 .entry .cntCtrl 255 1 (tl0.cntCtrlCheck 255 1) :=
  ⟨by decide +kernel, by decide +kernel, by decide +kernel, by decide +kernel, by decide +kernel, by decide +kernel,
    accepted_of (by decide +kernel)⟩

/-- A transaction of an owner under tag 5. -/
def asking (o : Owner) (type : Nat) (retry : Bool := false) (refused : Option Nat := none) (w : Option Wait := none) : State :=
  { tl0 with
    txns := [(5, ⟨o, { pk type 100 8 0 with dst := 1 }, 0, 0, 0, 0, refused, retry⟩)]
    cores := [(0, { tl0.core 0 with wait := w })] }

/-- An answer to it. -/
def answer (type arg : Nat) (body : List Byte := []) : Packet := pk type 0 arg (5 + 16384 * tl0.genOf 8 4) body

theorem wit_RemoteRequestsAndAnswers_answers :
    (answer 0x10 0).tag / 16384 = tl0.genOf 8 (4 + (answer 0x10 0).tag % 16384 / 8192) ∧ (answer 0x10 0).tag % 16384 = 5 ∧
    ((asking (.store 0) 1).txns.get? 5).isSome = true ∧ tl0.txns.get? 5 = none ∧ tl0.forMe (answer 0x10 0) 0x10 = true ∧
    tl0.forMe (answer 0x11 8 (line1.take 8)) 0x11 = true ∧ tl0.forMe (answer 0x14 Code.busy.toNat) 0x14 = true ∧
    Code.ofByte (answer 0x14 Code.range.toNat).arg = some .range ∧ ((asking (.store 0) 1).cores.all fun kv => kv.2.lkWaits.isEmpty) = true ∧
    ((asking (.load 0) 2).txns.get? 5).map (fun x => x.owner == .load 0) = some true ∧
    ((asking (.acq 0) 2 false none (some (.acq 64 none true 7 (some 5) 0 false))).core 0).wait =
      some (.acq 64 none true 7 (some 5) 0 false) ∧
    ((asking (.dma 0 0 512) 2).txns.get? 5).map (fun x => x.owner == .dma 0 0 512) = some true ∧ (answer 0x11 8).pmask = 0 ∧
    (pk 0x11 0 0 (16384 * 3 + 5)).tag / 16384 ≠ tl0.genOf 8 4 := by decide +kernel

theorem wit_RemoteRequestsAndAnswers_ends :
    ((asking (.store 0) 1 true (some 3)).txns.get? 5).map (fun x => (x.retry, x.refused.isSome, x.pkt.dst)) = some (true, true, 1) ∧
    (asking (.store 0) 1 true).route 1 0 = some 0 ∧ ((asking (.store 0) 1 true).setReg .rt 1 0xFF).route 1 0 = none ∧
    ((asking (.store 0) 1).txns.get? 5).map (fun x => x.retry) = some false := by decide +kernel

/-- Link 0 in a state, in a powered cage, with node 3's port 2 as its neighbour. -/
def lnk0 (st : Nat) (f : Link → Link := id) : State :=
  { ((tl0.setFld .lnkState 0 2 0 st).setFld .lnkNbr 0 11 0 3).setFld .lnkNbr 0 17 12 2 with links := [(0, f Link.reset)], cages := [(0, 1)] }
def laned (st : Nat) : State := ((lnk0 st).setFlag .lnkState 0 5 true).setFlag .lnkState 0 6 true

/-- A flit that begins a packet, by its number. -/
def flit (seq : Nat) (bad : Nat := 0) : Flit := ⟨0, bad, flitBytes seq 0 false false 0 [0, 0, 0, 0, 0] (packetBytes (pk 1 64 0 5 [1, 2]))⟩

theorem wit_LinksTrainAndCarry_flit :
    let f := flit 1
    let t := packetsOf (Link.reset).part (flitFirst f) (flitArea f)
    2 ≤ (lnk0 3).fld .lnkState 0 2 0 ∧ (flit 1 2).bad ≠ 0 ∧ flitCrcOk { f with bytes := 2 :: f.bytes.drop 1 } = false ∧ f.bad = 0 ∧
    flitCrcOk f = true ∧ flitIdle f = false ∧ flitRpl f = false ∧ flitSeq f = (Link.reset.rxSeq + 1) % 1024 ∧ t.1.length = 1 ∧
    ((t.1.map packetOf) = [some (pk 1 64 0 5 [1, 2])]) ∧ Link.reset.wait = [] ∧ State.pktOk (pk 1 64 0 5 [1, 2]) = true ∧
    (pk 1 64 0 5 [1, 2]).dst = (lnk0 3).node := by decide +kernel

theorem wit_LinksTrainAndCarry_train :
    (lnk0 1).power = .on ∧ (lnk0 1).flag .lnkCtrl 0 0 = false ∧ (lnk0 1).cageOk 0 = true ∧ (lnk0 1).fld .lnkState 0 2 0 = 1 ∧
    State.pktOk (pk 0x20 0 (3 + 4096 * 2) 0) = true ∧ (lnk0 2).fld .lnkState 0 2 0 = 2 ∧ (lnk0 2).fld .lnkNbr 0 11 0 = 3 ∧
    (lnk0 2).fld .lnkNbr 0 17 12 = 2 ∧ (lnk0 3).flag .secState 0 18 = false ∧
    (laned 3).flag .lnkState 0 (5 + 1) = true ∧ ((laned 3).lnk 0).failRx = none ∧ (laned 4).fld .lnkState 0 2 0 = 4 ∧
    ((laned 4).lnk 0).failRx = none ∧ ((laned 3).lnk 0).failTx = none ∧
    ((lnk0 3 fun x => { x with failover := true }).lnk 0).failover = true ∧ (lnk0 1).linkUp 0 = false ∧
    (lnk0 3).cages.get? 8 = none ∧ (lnk0 3).power ≠ .off ∧ ((List.range 4).all fun k => !(lnk0 3).linkUp (4 * 8 + k)) = true := by
  decide +kernel

theorem wit_LinksTrainAndCarry_control :
    Accepted (lnk0 3) .entry .lnkCtrl 0 2 ((lnk0 3).lnkCtrlCheck 0 2) ∧ Accepted (lnk0 3) .entry .lnkCtrl 0 1 ((lnk0 3).lnkCtrlCheck 0 1) :=
  ⟨accepted_of (by decide +kernel), accepted_of (by decide +kernel)⟩

/-- A domain reset in a phase. -/
def domain (kind inst phase : Nat) (s : State := stMem) : State := { s with resets := [⟨kind, inst, 2, phase, false, none, 7⟩] }

theorem wit_ResetsFencesAndScans_phases :
    (∀ p ∈ [0, 1, 2, 3], (domain 1 0 p).resetOf 1 0 = some ⟨1, 0, 2, p, false, none, 7⟩) ∧
    ((domain 1 0 2 { stMem with cores := [] }).core 0).launch = none ∧ (domain 3 63 1).resetOf 3 63 = some ⟨3, 63, 2, 1, false, none, 7⟩ ∧
    ((domain 3 63 1).resets.all fun y => decide (y.kind ≤ 7)) = true ∧ (domain 8 1 2).resetOf 8 1 = some ⟨8, 1, 2, 2, false, none, 7⟩ ∧
    stMem.warm = none ∧ stMem.power = .on ∧ ((stMem.setFlag .chrysHi 0 31 true).flag .chrysHi 0 31) = true ∧
    767 < domCount 1 ∧ stMem.resets = [] ∧ ({ stMem with warm := some 2 } : State).warm = some 2 := by decide +kernel

theorem wit_ResetsFencesAndScans_command :
    Accepted stMem .entry .resetCmd 0 0x10051 (stMem.resetCmdCheck 0x10051) ∧ (0x10051 : Word).getLsbD 16 = true ∧
    bitsOf (0x10051 : Word).toNat 3 0 ≠ 9 ∧ Accepted stMem .entry .resetCmd 0 0x10009 (stMem.resetCmdCheck 0x10009) ∧
    bitsOf (0x10009 : Word).toNat 3 0 = 9 :=
  ⟨accepted_of (by decide +kernel), by decide +kernel, by decide +kernel, accepted_of (by decide +kernel), by decide +kernel⟩

/-- A chrysalis record that waits for its ring. -/
def chrys0 : State := { withAddr .chrysHi 0 0x400000 ((stMem.setFlag .cisState 0 0 true).setFlag .chrysHi 0 31 true) with
  chrysWait := [[1, 2, 3]] }

theorem wit_ResetsFencesAndScans_ring : chrys0.cis.wf = true ∧ chrys0.chrysWait = [[1, 2, 3]] ∧ chrys0.flag .cisState 0 0 = true ∧
    chrys0.flag .chrysHi 0 31 = true := by decide +kernel

/-- The sump's messages are on and one is due; link 0 has corrected errors. -/
def sump0 (n : Nat) : State :=
  { (((stMem.setReg .sumpCfg 0 (BitVec.ofNat 32 (2 ^ 11 + 2 ^ 12 * 4 + 3))).setFlag .hifState 0 0 true).setFlag .hifState 0 16 true).setReg
    .lnkFecCorr 0 (BitVec.ofNat 32 n) with sumpIrq := true }

theorem wit_ResetsFencesAndScans_sump :
    let s := sump0 3
    s.sumpIrq = true ∧ s.flag .sumpCfg 0 11 = true ∧ s.portUp s.svcPort = true ∧ s.msixMask = [] ∧ s.hostSent = [] ∧
    s.ceCount 5 0 = some 3 ∧ 3 - s.ceLast.getD (4096 * 5 + 0) 0 < s.fld .sumpCfg 0 19 12 ∧ (sump0 4).ceCount 5 0 = some 4 ∧
    (sump0 4).fld .sumpCfg 0 19 12 ≤ 4 - (sump0 4).ceLast.getD (4096 * 5 + 0) 0 ∧
    ((s.bump .ceDie 5 2).ceCount 8 5).isSome = true := by decide +kernel

theorem wit_ResetsFencesAndScans_parity :
    (regAt (Reg.kpcState.row.base)).map (fun ri => (ri.1 == .kpcState, State.statusReg ri.1)) = some (true, true) ∧
    (regAt (Reg.feQCfg.row.base)).map (fun ri => State.statusReg ri.1) = some false ∧
    ((stMem.reg .sumpTail 0).toNat + 0xFFFFFFFF - (stMem.reg .sumpHead 0).toNat) % 0xFFFFFFFF < 4096 := by decide +kernel

/-- Cluster 0 awake, with no launch. -/
def scan0 : State := (({ stMem with launches := [], cores := [] } : State).setFlag .scanCfg 0 0 true).setFld .kpcClst 0 1 0 0

theorem wit_ResetsFencesAndScans_scan :
    (List.range 144).find? (fun m => scan0.bears m 5) = some 0 ∧ scan0.flag .glbClmap 0 (16 + 5) = false ∧
    (scan0.setFlag .glbClmap 0 (16 + 5) true).flag .glbClmap 0 (16 + 5) = true ∧ scan0.fld .glbClmap 0 9 8 ≠ 3 ∧
    scan0.flag .scanCfg 0 0 = true ∧ scan0.flag .kpcClst 0 2 = false ∧ scan0.fld .kpcClst 0 1 0 < 2 ∧ scan0.launches = [] ∧
    scan0.clLaunch 0 = none ∧ Accepted scan0 .entry .rasFence 0 0x80000005 (scan0.fenceCheck 0x80000005) ∧
    (0x80000005 : Word).getLsbD 31 = true ∧ bitsOf (0x80000005 : Word).toNat 11 0 = 5 :=
  ⟨by decide +kernel, by decide +kernel, by decide +kernel, by decide +kernel, by decide +kernel, by decide +kernel, by decide +kernel,
    by decide +kernel, by decide +kernel, accepted_of (by decide +kernel), by decide +kernel, by decide +kernel⟩

/-! ### Witnesses: power, boot, security, registers, the whole machine and single rules -/

/-- Cluster `n` runs for clusters 0 to 2. -/
def run3 : State := ((List.range 3).foldl (fun s n => s.setFld .kpcClst n 1 0 0) stMem).setFld .secState 0 17 14 4

/-- A cap of 500 W that protects class 0, and samples of `w` W. -/
def cap0 (w : Nat) (prot : Bool) : State :=
  { (run3.setReg .kpcCap 0 500).setFlag .kpcCap 0 11 prot with powerLog := List.replicate 100 w, dutyP := [(1, 5), (2, 4)] }

theorem wit_TheKeeperGoverns_power :
    let avg := fun (s : State) w => ({ s with powerLog := (w :: s.powerLog).take 100 } : State).powerAvg
    let above := fun (s : State) n => s.runClusters.contains n && decide (4 < s.dutyP.getD n 16)
    (cap0 600 false).power = .on ∧ ((cap0 600 false).dutyP.all fun kv => decide (kv.2 ≤ 16)) = true ∧ 500 < avg (cap0 600 false) 700 ∧
    (above (cap0 600 false) 1 && !(cap0 600 false).protectedCl 1) = true ∧ (above (cap0 600 true) 1 && (cap0 600 true).protectedCl 1) =
      true ∧ above (cap0 600 false) 2 = false ∧ avg (cap0 490 false) 490 = 490 ∧ 500 * 97 < 490 * 100 ∧ avg (cap0 300 false) 300 ≤ 485 ∧
    ({ cap0 300 true with powerLow := 9 } : State).powerLow = 9 ∧ (cap0 300 true).powerLow < 9 ∧ ((cap0 300 true).protectedCl 1 &&
      decide ((cap0 300 true).dutyP.getD 1 16 < 16)) = true ∧
    ({ cap0 600 false with power := .keeper } : State).power = .keeper := by decide +kernel

/-- Readings: every die, memory package and NAND package alike. -/
def temps (d m n : Nat) : Temps := ⟨List.replicate 6 d, List.replicate 12 m, List.replicate 8 n, 30⟩

theorem wit_TheKeeperGoverns_thermal :
    run3.power = .on ∧ (temps 120 50 50).dies.any (decide <| 120 ≤ ·) = true ∧ (temps 50 106 50).mem.any (decide <| 105 < ·) = true ∧
    (temps 50 50 86).nand.any (decide <| 85 < ·) = true ∧
    decide (115 ≤ (temps 115 50 50).dies.getD 5 0 ∧ 9 ≤ ({ run3 with hotFor := [(5, 9)] } : State).hotFor.getD 5 0) = true ∧
    ((temps 114 105 85).dies.all (decide <| · < 115) && (temps 114 105 85).mem.all (decide <| · ≤ 105) &&
      (temps 114 105 85).nand.all (decide <| · ≤ 85)) = true ∧ run3.dutyT = [] ∧ 110 ≤ (temps 110 50 50).dies.getD 0 0 ∧
    (State.dieClusters 0).contains 1 = true ∧ run3.runClusters.contains 1 = true ∧ (cap0 0 false).protectedCl 1 = false ∧ run3.thermOn = [] ∧
    ((cap0 0 true).protectedCl 1) = true := by decide +kernel

/-- The rail of die 0 at 700 mV, with its ceiling at 760 mV; maintenance in a phase. -/
def rail0 (maint : Nat) : State := { (run3.setFld .kpcVid 0 29 20 760).setFld .kpcVid 0 9 0 700 with maint := maint }

theorem wit_TheKeeperGoverns_rails :
    (rail0 0).power = .on ∧ (rail0 0).maint = 0 ∧ (rail0 0).runClusters.filter ((rail0 0).bears · 0) = [0] ∧
    (rail0 0).fld .kpcVid 0 9 0 = 700 ∧ (rail0 1).maint ≠ 2 ∧ (rail0 2).maint = 2 ∧ (rail0 0).flag .kpcState 0 0 = false ∧
    (planRail 700 760 24 false).beyond = false ∧ (planRail 700 760 25 false).vid = 700 ∧ (planRail 760 760 (-3) false).beyond = true := by
  decide +kernel

theorem wit_TheKeeperGoverns_maintenance :
    Accepted (rail0 0) .entry .kpcMaintCmd 0 1 ((rail0 0).maintCheck 1) := accepted_of (by decide +kernel)

/-- The keeper alone, at a temperature. -/
def kept (t : Nat) : State := ({ run3 with power := .keeper } : State).setFld .kpcTemp 0 7 0 t

theorem wit_TheKeeperGoverns_commands :
    run3.power = .on ∧ run3.warm = none ∧ ({ run3 with warm := some 0 } : State).warm.isSome = true ∧ (kept 90).power = .keeper ∧
    (kept 90).lost = false ∧ ((List.range 6).all fun d => decide ((kept 90).fld .kpcTemp d 7 0 ≤ 90)) = true ∧
    90 < (kept 91).fld .kpcTemp 0 7 0 := by decide +kernel

/-- An image of this module with an SVN, its signature right or wrong; the two slots as the keeper powers up. -/
def image (ok : Bool) (v : Nat) : FwImage := ⟨0x48360F1A, 1, true, BitVec.ofNat 32 v, 4096, ok, true, [9]⟩
def booting (a b : FwImage) : State := { State.reset with bootDue := true, slots := [(0, a), (1, b)] }

theorem wit_TheModuleBoots :
    let s := booting (image true 3) (image false 3)
    let u := booting (image false 3) (image true 3)
    let v := booting (image false 3) (image false 3)
    s.bootDue = true ∧ s.lost = false ∧ s.power ≠ .on ∧ s.slotPref % 2 = 0 ∧ s.accepts (s.slotImage 0) = true ∧
    u.accepts (u.slotImage 1) = true ∧ u.accepts (u.slotImage (u.slotPref % 2)) = false ∧ v.accepts (v.slotImage 0) = false ∧
    v.accepts (v.slotImage 1) = false ∧ run3.lost = false ∧ run3.power = .on ∧ (kept 50).lost = false ∧
    ({ kept 50 with lost := true } : State).lost = true ∧ run3.portUp 0 = false ∧ ho0.portUp 1 = true ∧ ho0.warm = none ∧
    ho0.power = .on ∧ answers run3 = true := by decide +kernel

/-- Two digest records wait, the later of a write held for queue 1. -/
def dig0 (held : List HeldWrite) : State := { run3 with digQ := [⟨0, 8, 1, 1⟩, ⟨0, 8, 1, 2⟩], held := held }

/-- Context 1 is sealed under key 0, or off. -/
def key1 : State := { (run3.setFlag .ctxCfg 1 0 true).setFlag .secCtrl 1 0 true with keys := [(1, 0)], nextKey := 1 }
def ctx1 : State := { run3.setFlag .ctxCfg 1 0 true with launches := [], cores := [] }
def svn5 : State := run3.setFld .secState 0 13 8 5

theorem wit_DigestKeysAndAttestation_digest :
    (dig0 []).digQ = ⟨0, 8, 1, 1⟩ :: [⟨0, 8, 1, 2⟩] ∧ (dig0 []).held = [] ∧ (dig0 [⟨.entry, 8, 3⟩]).held = ⟨.entry, 8, 3⟩ :: [] ∧
    Src.entry ≠ .mgmt ∧ run3.digQ = [] ∧ run3.digN < 2 ^ 64 := by decide +kernel

theorem wit_DigestKeysAndAttestation_commands :
    Accepted run3 .entry .secCmd 0 1 (run3.secCheck 1) ∧ Accepted svn5 .mgmt .secCmd 0 0x3C5A0002 (svn5.secCheck 0x3C5A0002) ∧
    Accepted ctx1 .entry .secCtrl 1 2 (ctx1.sealCheck 1 2) ∧ Accepted key1 .entry .secCtrl 1 4 (key1.sealCheck 1 4) :=
  ⟨accepted_of (by decide +kernel), accepted_of (by decide +kernel), accepted_of (by decide +kernel), accepted_of (by decide +kernel)⟩

theorem wit_DigestKeysAndAttestation_spdm :
    let s : State := { run3 with sessions := [(0, false), (1, true)], nextSession := 2 }
    answersAll s = true ∧ s.sessions.contains (0, false) = true ∧ s.sessions.contains (1, true) = true := by decide +kernel

theorem wit_RegistersCommandsAndManagement_accesses :
    let s := run3
    s.arrives .entry = true ∧ State.fromVf .entry = false ∧ s.holds .entry = false ∧
    (regAt (Reg.glbSpare.row.base)).map (fun ri => (ri.1 == .glbSpare, ri.2)) = some (true, 0) ∧ Reg.glbSpare.row.w1c = 0 ∧
    Reg.glbSpare.row.base < 0xC10000 ∧ Reg.glbSpare.countHi = none ∧ Reg.jobLaunchedLo.countHi = some .jobLaunchedHi ∧
    Reg.jobLaunchedLo.latched = false ∧ Reg.jobLaunchedHi.latched = true ∧ (2 : Nat) &&& (0xFFFFFFFF ^^^ Reg.kpcMaintCmd.known) ≠ 0 ∧
    s.regCheck .secCmd 0 3 = .badField ∧ (3 : Nat) &&& (0xFFFFFFFF ^^^ Reg.secCmd.known) = 0 := by
  decide +kernel

/-- No launch and no core at work. -/
def launched0 (s : State) : State := { s with launches := [], cores := [] }

theorem wit_RegistersCommandsAndManagement_accepted :
    let u := fun r => (launched0 run3).wakeFor r 0
    Accepted run3 .entry .glbSpare 0 5 (run3.regCheck .glbSpare 0 5) ∧
    Accepted (u .lzcCtrl) .entry .lzcCtrl 0 1 ((u .lzcCtrl).regCheck .lzcCtrl 0 1) ∧
    Accepted (u .lzcCtrl) .entry .lzcCtrl 0 2 ((u .lzcCtrl).regCheck .lzcCtrl 0 2) ∧
    Accepted (u .numClear) .entry .numClear 0 1 .ok ∧
    Accepted (u .numSeedHi) .entry .numSeedHi 0 7 ((u .numSeedHi).seedCheck 0 7) :=
  ⟨accepted_of (by decide +kernel), accepted_of (by decide +kernel), accepted_of (by decide +kernel), accepted_of (by decide +kernel),
    accepted_of (by decide +kernel)⟩

theorem wit_RegistersCommandsAndManagement_pair : ∃ t u, exec (.registerWrite .entry (BitVec.ofNat 26 Reg.glbSpare.row.base) 4 5) run3 = .next t ∧
    t.arrives .entry = true ∧ t.holds .entry = false ∧
    exec (.registerWrite .entry (BitVec.ofNat 26 (Reg.glbSpare.row.base + 4)) 4 0) t = .next u ∧ Reg.glbSpare.row.base % 8 = 0 :=
  ⟨_, _, rfl, by decide +kernel, by decide +kernel, rfl, by decide +kernel⟩

/-- A command entry of `ps` pairs in queue 5 of a kind. -/
def cmdq (kind n : Nat) (ps : List (Nat × Nat)) : State :=
  let bs := [2, BitVec.ofNat 8 n, 0, 0] ++ leBytes 4 77 ++ leBytes 8 0 ++ (ps.flatMap fun p => leBytes 4 p.1 ++ leBytes 4 p.2) ++
    List.replicate (48 - 8 * ps.length) 0
  let s : State := { fe0.setReg .feQCfg 5 (qcfg kind) with fetched := [(5, [⟨5, 0, bs, false⟩])] }
  s.setQueue 5 { s.queue 5 with fetch := .active, sqTail := 3 }

/-- What its pairs do. -/
def written (s : State) : Option (Code × Option (Nat × Nat) × Bool) :=
  (s.takeEntry 5).map fun x =>
    let r := State.entryWrites (if s.qKind 5 = 3 then 0x600000 else 0xA00000) (s.qKind 5) (x.2.qOwner 5)
      ((List.range (fieldAt x.1.bytes 1 1)).map fun k => (fieldAt x.1.bytes (16 + 8 * k) 4, fieldAt x.1.bytes (20 + 8 * k) 4)) none x.2
    (r.1, r.2.1, (r.2.1.map r.2.2.cmdRuns).getD false)

theorem wit_RegistersCommandsAndManagement_entries :
    (cmdq 4 1 [(8, 1)]).qKind 5 = 4 ∧ (cmdq 3 1 [(8, 1)]).qKind 5 = 3 ∧ (cmdq 3 1 []).inReset 3 ((cmdq 3 1 []).qOwner 5) = false ∧
    (cmdq 4 1 []).digQ.length + 12 ≤ 4096 ∧
    ((cmdq 4 13 []).takeEntry 5).map (fun x => State.cmdEntryCode x.1) = some .range ∧
    ((cmdq 4 1 [(0, 1)]).takeEntry 5).map (fun x => State.cmdEntryCode x.1) = some .ok := by decide +kernel

theorem wit_RegistersCommandsAndManagement_management :
    let s : State := { run3 with sump := [(0, ⟨0, 1, 2, 3, .ok, 0, none, 0, 0, 0, 0, 0⟩)] }
    answersAll s = true ∧ mgmtReach s 8 = true ∧ s.digQ.length < 4096 ∧ s.holds .mgmt = false ∧
    mgmtReach ({ s with power := .keeper } : State) 0x600000 = false ∧
    ({ s with held := [⟨.mgmt, 8, 3⟩] } : State).holds .mgmt = true ∧
    (s.sump.get? (4096 % 4096)).map (·.seq) = some 0 ∧ sensor s 3 = some (s.fld .kpcTemp 3 7 0) := by decide +kernel

theorem wit_EveryStepKeepsTheInvariant : sealed1.Inv ∧ sealed1.keys ≠ [] ∧ ∃ t, step sealed1 = .next t :=
  ⟨⟨by decide +kernel, by decide +kernel, by decide +kernel⟩, by decide +kernel, _, rfl⟩

theorem wit_RejectedWritesChangeOnlyTheStatus :
    let r := Reg.kpcMaintCmd
    run3.arrives .entry = true ∧ run3.holds .entry = false ∧ r.row.base % 4 = 0 ∧ r.row.base < 0xC10000 ∧
    (regAt r.row.base).map (fun ri => (ri.1 == r, ri.2)) = some (true, 0) ∧ 2 &&& (0xFFFFFFFF ^^^ r.known) ≠ 0 := by decide +kernel

theorem wit_FltAndFaultCompletionRejections_flt : Issues st0 0 (iw 0 0 0 0x14) none [] ∧ 0x13 < (iw 0 0 0 0x14).imm.toNat % 256 ∧
    Issues st0 0 (iw 0 0 0 0x100) none [] ∧ (iw 0 0 0 0x100).imm.toNat % 256 = 0 ∧
    ((st0.afterFetch 0 none).launchOf 0).map (fun lx => lx.2.phase) = some .running :=
  ⟨issues_of (by decide +kernel), by decide +kernel, issues_of (by decide +kernel), by decide +kernel, by decide +kernel⟩

theorem wit_FltAndFaultCompletionRejections_fcmp :
    let s : State := { run3 with recs := [(3, ⟨0, 0, [], 0, false, .noEntry, 0, .core 0⟩)] }
    s.reaches .entry .xltFcmp = true ∧ s.holds .entry = false ∧ s.recs.get? (4099 % 4096) ≠ none ∧ s.recs.get? (5 % 4096) = none ∧
    Code.ofByte (4099 / 4096) ≠ none ∧ Code.ofByte (0xEE003 / 4096) = none ∧ 0xEE003 < 2 ^ 20 ∧ s.recs.get? (0xEE003 % 4096) ≠ none := by
  decide +kernel

theorem wit_FunctionsReachTheirOwn_bar2 :
    ho0.portUp 0 = true ∧ ho0.appears 0 1 = true ∧ ho0.appears 0 0 = true ∧ ho0.cis.wf = true ∧ 0 < [(1 : Byte)].length ∧
    (ho0.reg .fnWin (4 * (1 - 1) + 0)).toNat = 2 ^ 16 * 2 ∧ (ho0.reg .fnWin (4 * (1 - 1) + 1)).toNat = 0 ∧
    2 ^ 29 - 1 + 1 ≤ ho0.workSize ∧ ho0.touchesSealed (2 ^ 29 - 1) 1 = false := by decide +kernel

theorem wit_FunctionsReachTheirOwn_bar0 :
    ho0.portUp 1 = true ∧ ho0.appears 1 2 = true ∧ ho0.holds (.host 1 2) = false ∧ ho0.ctxFn (ho0.qCtx (0x5000 / 0x1000)) ≠ 2 ∧
    0x5000 % 0x1000 < 8 ∧ 0x1000400 ≤ 0x1000FFC ∧ ¬ (0x1001000 ≤ 0x1001008 ∧ 0x1001008 < 0x1001008) := by decide +kernel

theorem wit_DigestsAreSums : 0 + [(7 : DWord)].length + [(9 : DWord)].length ≤ 8192 := by decide

/-! ### Decoding: words of the spec's worked examples -/

/-- The word of a class and function with its fields. -/
def word (cls func : Nat) (w : IWord) : DWord := IWord.toBits (BitVec.ofNat 6 cls) (BitVec.ofNat 6 func) w

/-- LKP t10, t4, t5 with TID 17, OP MEAN and FLG_T t11 (worked example of Embedding lookup). -/
theorem test_decode_lkp : decodeInstr 0 0x1C02841400000811 0xF80000000000002B = .lkp 0 (iw 10 4 5 0x811) 0xF80000000000002B := by decide

/-- The second word alone decodes as BAD_OPCODE (R72). -/
theorem test_decode_marker : decodeInstr 0 0xF80000000000002B 0 = .inputStationary 0 0xF80000000000002B := by decide

/-- The producer's and the consumer's words (worked example of Memory model). -/
theorem test_decode_sync :
    decodeInstr 0 0x1800C20000000000 0 = .dma 0 (iw 3 2 0 0) ∧ decodeInstr 0 0x20000A2C00000000 0 = .sig 0 (iw 0 10 11 0) ∧
    decodeInstr 0 0x20130A2C03E80003 0 = .wat 0 (iw 12 10 11 0x03E80003) ∧ decodeInstr 0 0x0420070000000005 0 = .brf 0 (iw 0 7 0 5) ∧
    decodeInstr 0 0x08334E0000000000 0 = .ldd 0 (iw 13 14 0 0) ∧ decodeInstr 0 0xFC00000000000000 0 = .endI 0 (iw 0 0 0 0) := by decide

/-- The words of the serving loop (worked example of Submission and completion). -/
theorem test_decode_loop :
    decodeInstr 0 0x2401841500000000 0 = .qwt 0 { iw 6 4 5 0 with yld := true } ∧
    decodeInstr 0 0x0911C50000000008 0 = .lsd 0 (iw 7 5 0 8) ∧ decodeInstr 0 0x08B0072000000000 0 = .std 0 (iw 0 7 8 0) ∧
    decodeInstr 0 0x2410060000000000 0 = .qpt 0 (iw 0 6 0 0) ∧ decodeInstr 0 0x04000000FFFFFFFB 0 = .br 0 (iw 0 0 0 0xFFFFFFFB) := by
  decide

/-- CWT s9, s8 (worked example of Host interface). -/
theorem test_decode_cwt : decodeInstr 0 0x2042402001F40053 0 = .cwt 0 (iw 9 0 8 0x01F40053) := by decide

/-- One word of each other class, its fields placed by R70: ADDI, WLD, VCH, TLD, ALC and MTS; and class 0x0B, function 0x08 of
class 0x04 and function 0x03 of class 0x06, which are unassigned (R73, R126). -/
theorem test_decode_classes :
    decodeInstr 5 (word 0x00 0x1D (iw 63 0 1 9)) 0 = .fcf 5 (iw 63 0 1 9) ∧ decodeInstr 0 (word 0x04 0 (iw 0 3 0 16)) 0 = .wld 0 (iw 0 3 0 16) ∧
    decodeInstr 0 (word 0x05 0 (iw 1 2 3 4)) 77 = .vch 0 (iw 1 2 3 4) 77 ∧ decodeInstr 0 (word 0x03 0 (iw 1 2 0 0)) 0 = .tld 0 (iw 1 2 0 0) ∧
    decodeInstr 0 (word 0x0A 0 (iw 1 2 0 0)) 0 = .alc 0 (iw 1 2 0 0) ∧ decodeInstr 0 (word 0x3F 3 (iw 1 2 0 0)) 0 = .mts 0 (iw 1 2 0 0) ∧
    decodeInstr 0 (word 0x0B 0 (iw 0 0 0 0)) 0 = .inputStationary 0 (word 0x0B 0 (iw 0 0 0 0)) ∧
    decodeInstr 0 (word 0x04 8 (iw 0 0 0 0)) 0 = .inputStationary 0 (word 0x04 8 (iw 0 0 0 0)) ∧
    decodeInstr 0 (word 0x06 3 (iw 0 0 0 0)) 0 = .inputStationary 0 (word 0x06 3 (iw 0 0 0 0)) := by decide

/-! ### Ill-formed commands -/

theorem test_wf_registers :
    (Instr.registerWrite .entry 0 0 0).wf = false ∧ (Instr.registerWrite .entry 0 9 0).wf = false ∧
    (Instr.registerWrite .entry 0x3FFFFFC 8 0).wf = false ∧ (Instr.registerWrite .entry 0x3FFFFFC 4 0).wf = true ∧
    (Instr.registerRead .entry 0 0).wf = false ∧ (Instr.registerRead .entry 0x3FFFFFC 8).wf = false ∧
    (Instr.registerRead .entry 0 4097).wf = false ∧ (Instr.registerRead .entry 0 4096).wf = true := by decide

theorem test_wf_host :
    (Instr.hostBar2Write 0 0 0 []).wf = false ∧ (Instr.hostBar2Write 0 0 0x1FFFFFFFFFF [1, 2]).wf = false ∧
    (Instr.hostBar2Read 0 0 0 4097).wf = false ∧ (Instr.hostBar2Read 0 0 0x1FFFFFFFFFF 1).wf = true ∧
    (Instr.regionWrite 0 0 0 [] false).wf = false ∧ (Instr.regionWrite 0 0 0x3FFFFFFFFF [1, 2] false).wf = false ∧
    (Instr.bar4Read 0 0 0).wf = false ∧ (Instr.bar4Read 0 0x3FFFFFFFFF 2).wf = false ∧
    (Instr.hostSnoop 0 (some [1])).wf = false ∧ (Instr.hostSnoop 0 none).wf = true := by decide

/-- INPUT_STATIONARY stands for the words that spell no instruction only. -/
theorem test_wf_word : (Instr.inputStationary 0 0x20000A2C00000000).wf = false ∧
    (Instr.inputStationary 0 (word 0x04 8 (iw 0 0 0 0))).wf = true := by decide

theorem test_wf_packets :
    (Instr.flitReceive 0 ⟨0, 0, []⟩).wf = false ∧ (Instr.write 0 (pk 2 0 0 0)).wf = false ∧ (Instr.write 0 (pk 1 0 0 0)).wf = true ∧
    (Instr.read 0 (pk 1 0 0 0)).wf = false ∧ (Instr.wack 0 (pk 1 0 0 0)).wf = false ∧ (Instr.rdata 0 (pk 1 0 0 0)).wf = false ∧
    (Instr.nak 0 (pk 1 0 0 0)).wf = false ∧ (Instr.hello 0 (pk 1 0 0 0)).wf = false ∧ (Instr.digest 0 (pk 1 0 0 0)).wf = false ∧
    (Instr.resend 0 (pk 1 0 0 0)).wf = false ∧ (Instr.verdict 0 (pk 1 0 0 0)).wf = false ∧ (Instr.uack 0 (pk 1 0 0 0)).wf = false ∧
    (Instr.part 0 (some (pk 1 0 0 0))).wf = false ∧ (Instr.psum 0 (some (pk 1 0 0 0))).wf = false ∧
    (Instr.update 0 (some (pk 1 0 0 0))).wf = false ∧ (Instr.part 0 none).wf = true := by decide

/-- Each field of a header has its bound. -/
theorem test_wf_header :
    let p := pk 1 0 0 0
    Packet.wf p = true ∧ Packet.wf { p with dst := 4096 } = false ∧ Packet.wf { p with hops := 16 } = false ∧
    Packet.wf { p with src := 4096 } = false ∧ Packet.wf { p with type := 256 } = false ∧ Packet.wf { p with tag := 2 ^ 32 } = false ∧
    Packet.wf { p with pmask := 2 ^ 32 } = false ∧ Packet.wf { p with addr := 2 ^ 64 } = false ∧
    Packet.wf { p with arg := 2 ^ 64 } = false ∧ Packet.wf { p with body := List.replicate 2049 0 } = false := by decide +kernel

theorem test_wf_sensors :
    (Instr.thermalSample (temps 50 50 50)).wf = true ∧ (Instr.thermalSample { temps 50 50 50 with dies := [] }).wf = false ∧
    (Instr.thermalSample { temps 50 50 50 with mem := [] }).wf = false ∧ (Instr.thermalSample { temps 50 50 50 with nand := [] }).wf = false ∧
    (Instr.maintenancePoint ⟨List.replicate 144 20, List.replicate 36 (50, 50), ⟨50, []⟩, (0, 0), 300⟩).wf = true ∧
    (Instr.maintenancePoint ⟨[], List.replicate 36 (50, 50), ⟨50, []⟩, (0, 0), 300⟩).wf = false ∧
    (Instr.maintenancePoint ⟨List.replicate 144 20, [], ⟨50, []⟩, (0, 0), 300⟩).wf = false ∧
    (Instr.maintenancePoint ⟨List.replicate 144 20, List.replicate 36 (50, 50), ⟨256, []⟩, (0, 0), 300⟩).wf = false := by decide +kernel

theorem test_wf_components :
    let e : TopoEntry := ⟨true, true, 5, [], [(1, 2)], List.replicate 64 0⟩
    FwComponent.wf (.image { image true 3 with digest := [] }) = false ∧ FwComponent.wf (.partition ⟨[]⟩) = false ∧
    FwComponent.wf (.topology [(0, e)]) = true ∧ FwComponent.wf (.topology [(256, e)]) = false ∧
    FwComponent.wf (.topology [(0, { e with nbrs := List.replicate 37 (0, 0) })]) = false ∧
    FwComponent.wf (.topology [(0, { e with routes := [(4096, 0)] })]) = false ∧
    FwComponent.wf (.topology [(0, { e with digest := [] })]) = false ∧
    (Instr.challenge []).wf = false ∧ (Instr.keyExchange []).wf = false ∧
    (Instr.destinationReserve 0 0 0 [⟨0, false, false, 0, [], []⟩] []).wf = false ∧
    (Instr.destinationReserve 0 0 0 [⟨0, false, false, 0, List.replicate 2048 0, [32]⟩] []).wf = false := by decide +kernel

/-! ### Single results that the spec gives -/

/-- The digest of a chunk with x0 = 0x10, x5 = 0x3 and key 3 is 2,235 (worked example of The Turlis link). -/
theorem test_digest : digestWords 3 0 (([0x10, 0, 0, 0, 0, 3] : List Nat).flatMap (leBytes 8)) = 2235 := by decide

/-- 21 ps at 735 mV plan 740 mV (worked example of Power, clocks and ageing). -/
theorem test_plan : (planRail 735 800 21 false).vid = 740 := by decide

/-- Offset 0x5_0117_2840 of channel 27 is address 0x12_3456_7840 (worked example of Cistern). -/
theorem test_channel : on.workAddr 27 0x501172840 = some 0x1234567840 := by decide +kernel

/-- 2.9 / 0.875, −5.0 / 0.875, 0.8 and 0.297 round to codes 0x5, 0xF, 0x2 and 0x1 of E2M1 (worked example of Number formats). -/
theorem test_e2m1 :
    let code := fun (m : Int) (e : Int) => encodeElem .e2m1 0 (roundUnbounded .rne .e2m1 (.fin (decide (m < 0)) m.natAbs e))
    code 3394 (-10) = 0x5 ∧ code (-5851) (-10) = 0xF ∧ code 819 (-10) = 0x2 ∧ code 304 (-10) = 0x1 := by decide +kernel

/-- ADD and SUB wrap modulo 2^64, and a write to s0 changes nothing (R65, R87). -/
theorem test_scalar :
    let s := st0.setCore 0 ((regs0.setS 8 0xFFFFFFFFFFFFFFFF).setS 9 1)
    (goes [exec (.add 0 (iw 10 8 9 0))] s |>.core 0).getS 10 = 0 ∧ (goes [exec (.sub 0 (iw 10 0 9 0))] s |>.core 0).getS 10 =
      0xFFFFFFFFFFFFFFFF ∧ (goes [exec (.add 0 (iw 0 9 9 0))] s |>.core 0).getS 0 = 0 := by decide +kernel

/-- The first command of the queue runs on the state without it (the step of a block). -/
theorem test_step : ∃ t, step { on with pending := [.tapInstruction .idcode, .powerKeeper] } = .next t ∧ t.tap = .idcode ∧
    t.pending = [.powerKeeper] := ⟨_, rfl, rfl, rfl⟩

end Sys2Proof.Tests
end

/-!
PROOFS. The statements of the scope chapter: register accesses and their last-write status (O53, O57), the state after reset
(O54), the host interface (O43) and the keeper (O50).
-/

namespace Sys2Proof.Machine

/-! ### Register accesses (R6 to R8, R443, R464 to R467) -/

namespace Reg

/-- FE_LAST_STATUS is one register (R467): a set records there under index 0, or elsewhere. -/
theorem last_fe_or (r : Reg) (i : Nat) : (r.last i).1 ≠ .feLast ∨ r.last i = (.feLast, 0) := by
  unfold Reg.last
  dsimp only
  repeat' split
  all_goals simp

/-- Keys of registers with indices in range tell the registers apart. -/
theorem eq_of_key_eq {r q : Reg} {i j : Nat} (h : r.key i = q.key j) (hi : i < 1048576) (hj : j < 1048576) : r = q := by
  have hidx : r.ctorIdx = q.ctorIdx := by unfold key at h; omega
  rw [← ofNat_ctorIdx r, hidx, ofNat_ctorIdx]

end Reg

namespace State

/-! #### The last-write status (R467) -/

/-- Recording a status sets the status register of a set, whose low byte is then the code. -/
theorem recordLast_spec (s : State) (r : Reg) (i : Nat) (code : Code) :
    ∃ w : Word, s.recordLast (r.last i) code = s.setReg (r.last i).1 (r.last i).2 w ∧ bitsOf w.toNat 7 0 = code.toNat := by
  have hcode : code.toNat < 256 := by cases code <;> decide
  rcases Reg.last_fe_or r i with hl | hl
  · rw [recordLast, if_neg hl]
    refine ⟨_, rfl, ?_⟩
    simp only [bitsOf, BitVec.toNat_ofNat, Nat.shiftRight_zero]
    omega
  · rw [hl, recordLast, if_pos rfl]
    refine ⟨_, rfl, ?_⟩
    simp only [bitsOf, setBits, BitVec.toNat_ofNat, Nat.shiftRight_zero]
    omega

/-! #### Writes that reach their register (R7, R8, R460) -/

/-- The state in which a write to a queue's register has named the queue in FE_LAST_STATUS (R467). -/
def nameQueue (s : State) (r : Reg) (i : Nat) : State :=
  if Block.at r.row.base = some .fe ∧ r.row.n1 = 4096 ∧ ¬ r.row.core then s.setFld .feLast 0 19 8 i else s

/-- The code that a write earns: the reserved bits come before the register's own check (R7, R8). -/
def writeCode (r : Reg) (v : Word) (check : Code) : Code :=
  if v.toNat &&& (0xFFFFFFFF ^^^ r.known) ≠ 0 then .badField else check

variable {s : State} {src : Src} {r : Reg} {i : Nat} {v : Word} {check : Code} {eff : State → State}

/-- A write that reaches its register, of a sender that is no VF and whose writes are not held. -/
theorem busWrite_eq (hreach : s.reaches src r = true) (hvf : fromVf src = false) (hholds : s.holds src = false) :
    s.busWrite src r i v check eff =
      if writeCode r v check ≠ .ok then (s.nameQueue r i).recordLast (r.last i) (writeCode r v check)
      else if ¬ notConfig r v ∧ 4096 ≤ s.digQ.length then s.holdWrite src (r.addr i) v
      else (eff (s.nameQueue r i)).noted src r i v := by
  unfold busWrite nameQueue writeCode
  rw [hreach, hvf, hholds]
  cases hb : Block.at r.row.base with
  | none => rfl
  | some b => cases b <;> simp <;> rfl

/-- A write that its register accepts has its effect and is recorded. -/
theorem busWrite_accepted (h : Accepted s src r i v check) :
    s.busWrite src r i v check eff = (eff (s.nameQueue r i)).noted src r i v := by
  obtain ⟨hreach, hvf, hholds, hres, rfl, hroom⟩ := h
  have hcode : writeCode r v .ok = .ok := if_neg (not_not.mpr hres)
  have hroom' : ¬(¬ notConfig r v = true ∧ 4096 ≤ s.digQ.length) := fun h => hroom.elim h.1 (by omega)
  rw [busWrite_eq hreach hvf hholds, if_neg (not_not.mpr hcode), if_neg hroom']

/-- A write with a code other than OK changes the last-write status alone. -/
theorem busWrite_rejected (hreach : s.reaches src r = true) (hvf : fromVf src = false) (hholds : s.holds src = false)
    (hcode : writeCode r v check ≠ .ok) :
    s.busWrite src r i v check eff = (s.nameQueue r i).recordLast (r.last i) (writeCode r v check) := by
  rw [busWrite_eq hreach hvf hholds, if_pos hcode]

/-! #### Wakes (R443) -/

/-- A wake leaves every register but those of the clusters' power states, the functions, the power and the held writes. -/
theorem wake_spec (s : State) {n : Nat} (hn : n < 144) :
    (∀ r i, r ≠ .kpcClst → i < 1048576 → (s.wake n).reg r i = s.reg r i) ∧
    (s.wake n).vfs = s.vfs ∧ (s.wake n).power = s.power ∧ (s.wake n).held = s.held := by
  unfold wake
  repeat' split
  case isFalse.isFalse =>
    refine ⟨fun r i hr hi => reg_setReg_ne _ _ _ _ _ _ fun hk => hr ?_, rfl, rfl, rfl⟩
    exact Reg.eq_of_key_eq hk (by omega) (by omega)
  all_goals exact ⟨fun _ _ _ _ => rfl, rfl, rfl, rfl⟩

/-- An access to a register of a core wakes one cluster, or changes nothing. -/
theorem wakeFor_cases (s : State) (r : Reg) (i : Nat) : s.wakeFor r i = s ∨ ∃ n < 144, s.wakeFor r i = s.wake n := by
  unfold wakeFor
  split
  · split
    · rename_i n hn
      split
      · exact .inl rfl
      · exact .inr ⟨n, List.mem_range.mp (List.mem_of_find?_eq_some hn), rfl⟩
    · exact .inl rfl
  · exact .inl rfl

/-- A wake changes neither the ports nor the power: who arrives stays. -/
@[simp] theorem arrives_wakeFor (s : State) (src : Src) (r : Reg) (i : Nat) : (s.wakeFor r i).arrives src = s.arrives src := by
  rcases wakeFor_cases s r i with h | ⟨n, hn, h⟩
  · rw [h]
  · rw [h]
    obtain ⟨hreg, hvfs, hpow, -⟩ := wake_spec s hn
    have hhif : (s.wake n).reg .hifState 0 = s.reg .hifState 0 := hreg _ _ (by decide) (by decide)
    cases src <;> simp only [arrives, portUp, appears, flag, hvfs, hpow, hhif]

/-- A wake leaves the held writes. -/
@[simp] theorem holds_wakeFor (s : State) (src : Src) (r : Reg) (i : Nat) : (s.wakeFor r i).holds src = s.holds src := by
  rcases wakeFor_cases s r i with h | ⟨n, hn, h⟩
  · rw [h]
  · obtain ⟨-, -, -, hheld⟩ := wake_spec s hn
    rw [h, holds, holds, hheld]

/-! #### Accesses to BAR0 (R464, R465) -/

/-- A sender that arrives reaches every register. -/
theorem reaches_of_arrives (h : s.arrives src = true) : s.reaches src r = true := by rw [reaches, h, Bool.true_or]

/-- A write of a sender that arrives acts on the state in which the register's core is awake. -/
theorem regWrite_of_arrives (h : s.arrives src = true) : s.regWrite src r i v =
    (s.wakeFor r i).busWrite src r i v ((s.wakeFor r i).regCheck r i v) (regEff r i v) := by rw [regWrite, if_pos h]

/-- A sender that is no VF writes to BAR0 of PF0. -/
theorem put32_of_not_vf {off : Nat} (h : fromVf src = false) : s.put32 src off v = s.write32 src off v := by
  cases src with
  | host p fn =>
    have hfn : fn.val = 0 := by simpa [fromVf] using h
    rw [put32, if_pos hfn]
  | entry => rfl
  | mgmt => rfl

variable {off : Nat} {w : DWord}

/-- An aligned 4-byte write, when no write of its sender is held. -/
theorem bar0Write_four (harr : s.arrives src = true) (hvf : fromVf src = false) (hholds : s.holds src = false)
    (hal : off % 4 = 0) : s.bar0Write src off 4 w = s.write32 src off (w.setWidth 32) := by
  simp [bar0Write, harr, hholds, hal, put32_of_not_vf hvf]

/-- An aligned 8-byte write is two writes, the lower offset first. -/
theorem bar0Write_eight (harr : s.arrives src = true) (hvf : fromVf src = false) (hholds : s.holds src = false)
    (hal : off % 8 = 0) : s.bar0Write src off 8 w =
      (s.write32 src off (w.setWidth 32)).write32 src (off + 4) ((w >>> 32).setWidth 32) := by
  simp [bar0Write, harr, hholds, hal, put32_of_not_vf hvf]

/-- A 4-byte write that is not aligned is recorded with ALIGN. -/
theorem bar0Write_misaligned (harr : s.arrives src = true) (hal : off % 4 ≠ 0) :
    s.bar0Write src off 4 w = s.recordLast (.glbLast, 0) .align := by
  simp [bar0Write, harr, hal]

/-- An aligned 4-byte read of BAR0 of PF0. -/
theorem bar0Read_four (harr : s.arrives src = true) (hvf : fromVf src = false) (hal : off % 4 = 0) :
    s.bar0Read src off 4 = (s.read32 src off).2.emit (.readData (leBytes 4 (s.read32 src off).1.toNat) false) := by
  cases src with
  | host p fn =>
    have hfn : fn.val = 0 := by simpa [fromVf] using hvf
    simp [bar0Read, harr, hal, readWords, hfn]
  | entry => simp [bar0Read, harr, hal, readWords]
  | mgmt => simp [bar0Read, harr, hal, readWords]

/-- A 4-byte read that is not aligned is not supported. -/
theorem bar0Read_misaligned (harr : s.arrives src = true) (hal : off % 4 ≠ 0) :
    s.bar0Read src off 4 = s.emit .unsupported := by
  simp [bar0Read, harr, hal]

/-- An offset of BAR0 that lies in no MSI-X table, pending-bit array, sump window, chrysalis buffer or doorbell page. -/
def registerSpace (off : Nat) : Prop :=
  off < 0xC10000 ∨ 0xC18100 ≤ off ∧ off < 0x1010000 ∨ 0x1200000 ≤ off ∧ off < 0x3000000

/-- A write to an offset of a register is a write of the register. -/
theorem write32_reg (hoff : registerSpace off) (hreg : regAt off = some (r, i)) :
    s.write32 src off v = s.regWrite src r i v := by
  unfold registerSpace at hoff
  rw [write32, if_neg (by omega), if_neg (by omega), if_neg (by omega), hreg]

/-- A read of an offset of a register reads the register, with its core awake. -/
theorem read32_reg (hoff : registerSpace off) (hreg : regAt off = some (r, i)) :
    s.read32 src off = (s.wakeFor r i).readReg r i := by
  unfold registerSpace at hoff
  rw [read32, if_neg (by omega), if_neg (by omega), if_neg (by omega), if_neg (by omega), if_neg (by omega), hreg]

/-- A register write of a sender that arrives, is no VF and has no write held, rejected with a code other than OK. -/
theorem registerWrite_rejected {off : BitVec 26} (harr : s.arrives src = true) (hvf : fromVf src = false)
    (hholds : s.holds src = false) (hal : off.toNat % 4 = 0) (hoff : registerSpace off.toNat)
    (hreg : regAt off.toNat = some (r, i))
    (hcode : writeCode r (w.setWidth 32) ((s.wakeFor r i).regCheck r i (w.setWidth 32)) ≠ .ok) :
    exec (.registerWrite src off 4 w) s = .next (((s.wakeFor r i).nameQueue r i).recordLast (r.last i)
      (writeCode r (w.setWidth 32) ((s.wakeFor r i).regCheck r i (w.setWidth 32)))) := by
  have hwrite : s.bar0Write src off.toNat 4 w = _ := bar0Write_four harr hvf hholds hal
  rw [write32_reg hoff hreg, regWrite_of_arrives harr,
    busWrite_rejected (reaches_of_arrives ((arrives_wakeFor ..).trans harr)) hvf ((holds_wakeFor ..).trans hholds)
      hcode] at hwrite
  exact congrArg _ hwrite

/-- A register write that its register accepts. -/
theorem registerWrite_accepted {off : BitVec 26} (harr : s.arrives src = true) (hal : off.toNat % 4 = 0)
    (hoff : registerSpace off.toNat) (hreg : regAt off.toNat = some (r, i))
    (h : Accepted (s.wakeFor r i) src r i (w.setWidth 32) ((s.wakeFor r i).regCheck r i (w.setWidth 32))) :
    exec (.registerWrite src off 4 w) s =
      .next ((regEff r i (w.setWidth 32) ((s.wakeFor r i).nameQueue r i)).noted src r i (w.setWidth 32)) := by
  have hholds : s.holds src = false := (holds_wakeFor ..).symm.trans h.first
  have hwrite : s.bar0Write src off.toNat 4 w = _ := bar0Write_four harr h.whole hholds hal
  rw [write32_reg hoff hreg, regWrite_of_arrives harr, busWrite_accepted h] at hwrite
  exact congrArg _ hwrite

/-- A read of an offset of a register returns what the register gives, with its core awake. -/
theorem registerRead_reg {off : BitVec 26} (harr : s.arrives src = true) (hvf : fromVf src = false)
    (hal : off.toNat % 4 = 0) (hoff : registerSpace off.toNat) (hreg : regAt off.toNat = some (r, i)) :
    exec (.registerRead src off 4) s = .next (((s.wakeFor r i).readReg r i).2.emit
      (.readData (leBytes 4 ((s.wakeFor r i).readReg r i).1.toNat) false)) := by
  have hread : s.bar0Read src off.toNat 4 = _ := bar0Read_four harr hvf hal
  rw [read32_reg hoff hreg] at hread
  exact congrArg _ hread

/-- An aligned 8-byte write is the write of its low half and then that of its high half (R465). -/
theorem registerWrite_eight {off off4 : BitVec 26} {t u : State} (harr : s.arrives src = true) (hvf : fromVf src = false)
    (hholds : s.holds src = false) (hal : off.toNat % 8 = 0) (hoff4 : off4.toNat = off.toNat + 4)
    (ht : exec (.registerWrite src off 4 w) s = .next t) (harrt : t.arrives src = true) (hholdst : t.holds src = false)
    (hu : exec (.registerWrite src off4 4 (w >>> 32)) t = .next u) : exec (.registerWrite src off 8 w) s = .next u := by
  have hlow : s.bar0Write src off.toNat 4 w = t := Host.Outcome.next.inj ht
  have hhigh : t.bar0Write src off4.toNat 4 (w >>> 32) = u := Host.Outcome.next.inj hu
  rw [bar0Write_four harr hvf hholds (by omega)] at hlow
  rw [bar0Write_four harrt hvf hholdst (by omega), hoff4, ← hlow] at hhigh
  exact congrArg _ ((bar0Write_eight harr hvf hholds hal).trans hhigh)

/-- An accepted write to a register of a core, by the core's number. -/
theorem regWrite_core (harr : s.arrives src = true) (hcore : r.row.core = true)
    (h : Accepted (s.wakeFor r i) src r i v ((s.wakeFor r i).regCheck r i v)) :
    s.regWrite src r i v = (regEff r i v (s.wakeFor r i)).noted src r i v := by
  rw [regWrite_of_arrives harr, busWrite_accepted h, nameQueue, if_neg fun hq => hq.2.2 hcore]

/-- Naming the queue changes FE_LAST_STATUS alone, which is then the status register of the write's set. -/
theorem nameQueue_spec (s : State) (r : Reg) (i : Nat) :
    s.nameQueue r i = s ∨ ∃ x, s.nameQueue r i = s.setReg (r.last i).1 (r.last i).2 x := by
  unfold nameQueue
  split
  · rename_i h
    obtain ⟨hb, -, hc⟩ := h
    have hlast : r.last i = (.feLast, 0) := by rw [Reg.last, if_neg hc, hb]
    rw [hlast]
    exact .inr ⟨_, rfl⟩
  · exact .inl rfl

/-- A rejected write sets the status register of its set, whose low byte is then its code, and nothing else. -/
theorem recordLast_nameQueue_spec (s : State) (r : Reg) (i : Nat) (code : Code) :
    ∃ x : Word, (s.nameQueue r i).recordLast (r.last i) code = s.setReg (r.last i).1 (r.last i).2 x ∧
      bitsOf x.toNat 7 0 = code.toNat := by
  obtain ⟨x, hx, hcode⟩ := recordLast_spec (s.nameQueue r i) r i code
  refine ⟨x, hx.trans ?_, hcode⟩
  rcases nameQueue_spec s r i with hn | ⟨y, hn⟩
  · rw [hn]
  · rw [hn]; simp only [setReg, SMap.set_set]

end State

/-! ### Register reads, stored registers and command entries (R6, R336, R465) -/

namespace State

/-- What a read of a register returns, when it latches nothing. -/
theorem readReg_of_countHi_none {s : State} {r : Reg} {i : Nat} (h : r.countHi = none) : s.readReg r i =
    (if r.latched then s.latch.getD (r.key i) 0 else BitVec.ofNat 32 (s.view r i), s) := by
  rw [readReg, h]

/-- A read of the LO word of a count latches its HI word (R465). -/
theorem readReg_of_countHi {s : State} {r hi : Reg} {i : Nat} (h : r.countHi = some hi) (hl : r.latched = false) :
    s.readReg r i = (BitVec.ofNat 32 (s.view r i),
      { s with latch := s.latch.set (hi.key i) (BitVec.ofNat 32 (s.view hi i)) }) := by
  rw [readReg, h, hl]
  rfl

/-- A stored register without W1C bits takes the written value in its RW bits (R6). -/
theorem reg_store (s : State) (r : Reg) (i : Nat) (w : Word) (h : r.row.w1c = 0) : (s.store r i w).reg r i =
    BitVec.ofNat 32 (((s.reg r i).toNat &&& (0xFFFFFFFF ^^^ r.row.rw)) ||| (w.toNat &&& r.row.rw)) := by
  have hreg : (s.store r i w).reg r i = BitVec.ofNat 32 ((((s.reg r i).toNat &&& (0xFFFFFFFF ^^^ r.row.rw)) |||
      (w.toNat &&& r.row.rw)) &&& (0xFFFFFFFF ^^^ (w.toNat &&& r.row.w1c))) := by
    unfold store
    cases hlo : r.pairLo with
    | none => exact reg_setReg_self ..
    | some lo => exact reg_setReg_self ..
  rw [hreg, h, Nat.and_zero, Nat.xor_zero]
  exact BitVec.eq_of_toNat_eq (by
    rw [BitVec.toNat_ofNat, BitVec.toNat_ofNat, Nat.and_two_pow_sub_one_eq_mod _ 32, Nat.mod_mod])

/-- The owner's taking of an entry leaves the queue's registers. -/
theorem takeEntry_regs {s s1 : State} {q : Nat} {e : Entry} (h : s.takeEntry q = some (e, s1)) : s1.regs = s.regs := by
  unfold takeEntry at h
  split at h
  · cases h
  · split at h
    · cases h
    · cases h; rfl

/-- The code, the last command started and the state that the writes of an entry end with (R336). -/
def entryResult (s : State) (q : Nat) (e : Entry) : Code × Option (Nat × Nat) × State :=
  entryWrites (if s.qKind q = 3 then 0x600000 else 0xA00000) (s.qKind q) (s.qOwner q)
    ((List.range (fieldAt e.bytes 1 1)).map fun k => (fieldAt e.bytes (16 + 8 * k) 4, fieldAt e.bytes (20 + 8 * k) 4)) none s

/-- The record of an entry that ends with a code (R336). -/
def entryRec (s : State) (q : Nat) (e : Entry) (code : Code) : Rec :=
  plainRec q (fieldAt e.bytes 4 4) (s.queue q).sqHead code

section Entries

variable {s t : State} {q : Nat} {e : Entry} {c : Nat × Nat}

/-- An entry whose fields are wrong makes no write. -/
theorem runEntry_wrong (h : cmdEntryCode e ≠ .ok) : s.runEntry q e = s.post q (s.entryRec q e (cmdEntryCode e)) := if_pos h

/-- An entry that started no command ends with its writes. -/
theorem runEntry_plain (h : cmdEntryCode e = .ok) (hres : s.entryResult q e = (.ok, none, t)) :
    s.runEntry q e = t.post q (s.entryRec q e .ok) := by
  unfold entryResult at hres
  rw [runEntry, if_neg (not_not.mpr h)]
  simp only [hres]
  rfl

/-- An entry that started a command ends with the command. -/
theorem runEntry_command (h : cmdEntryCode e = .ok) (hres : s.entryResult q e = (.ok, some c, t)) : s.runEntry q e =
    if t.cmdRuns c then { t with
      cmdJobs := t.cmdJobs ++ [⟨q, (s.queue q).sqHead, fieldAt e.bytes 4 4, c.1, c.2⟩] }
    else t.post q (s.entryRec q e (t.cmdResult c)) := by
  unfold entryResult at hres
  rw [runEntry, if_neg (not_not.mpr h)]
  simp only [hres]
  rfl

/-- An entry ends with the code of its first rejected write. -/
theorem runEntry_rejected (h : cmdEntryCode e = .ok) (hres : (s.entryResult q e).1 ≠ .ok) :
    s.runEntry q e = (s.entryResult q e).2.2.post q (s.entryRec q e (s.entryResult q e).1) := by
  rcases hr : s.entryResult q e with ⟨code, last, t⟩
  rw [hr] at hres
  unfold entryResult at hr
  rw [runEntry, if_neg (not_not.mpr h)]
  simp only [hr]
  cases code
  case ok => exact absurd rfl hres
  all_goals rfl

/-- The owner of a command queue that is not in reset takes the queue's next entry while its writes find room for their digest
records (R336, R460). -/
theorem cmdEntry_runs {q : Fin 4096} {s1 : State}
    (hkind : s.qKind q.val = 4 ∨ s.qKind q.val = 3 ∧ s.inReset 3 (s.qOwner q.val) = false)
    (hroom : s.digQ.length + 12 ≤ 4096) (htake : s.takeEntry q.val = some (e, s1)) :
    exec (.cmdEntry q) s = .next (s1.runEntry q.val e) := by
  have hexec : exec (.cmdEntry q) s = execCmdEntry q s := rfl
  have hgo : ((s.qKind q.val ≠ 3 && s.qKind q.val ≠ 4) || (s.qKind q.val == 3 && s.inReset 3 (s.qOwner q.val)) ||
      decide (4096 < s.digQ.length + 12)) = false := by
    rcases hkind with hk | ⟨hk, hr⟩ <;> simp [*]
  rw [hexec, execCmdEntry]
  simp only [hgo, htake]
  rfl

end Entries

/-! #### Management requests (R421, R459, R465, R467) -/

section Management

variable {s : State} {off : BitVec 26} {v : Word} {seq : Nat}

/-- A register read of management. -/
theorem regRead_reached (hans : answersAll s = true) (hreach : mgmtReach s off.toNat = true) (hal : off.toNat % 4 = 0) :
    exec (.regRead off) s = .next ((s.read32 .mgmt off.toNat).2.emit
      (.response 0x03 .ok (leBytes 4 (s.read32 .mgmt off.toNat).1.toNat))) := by
  change execRegRead off s = _
  simp [execRegRead, hans, hreach, hal]

/-- A register write of management, when its record finds room and no earlier one is held. -/
theorem regWrite_performed (hans : answersAll s = true) (hreach : mgmtReach s off.toNat = true) (hal : off.toNat % 4 = 0)
    (hroom : s.digQ.length < 4096) (hheld : s.holds .mgmt = false) : exec (.regWrite off v) s =
      .next ((s.write32 .mgmt off.toNat v).emit (.response 0x04 ((s.write32 .mgmt off.toNat v).lastCode off.toNat) [])) := by
  change execRegWrite off v s = _
  simp [execRegWrite, hans, hreach, hal, hheld, hroom]

/-- A register write of management waits behind 4,096 records or behind a held one (R460). -/
theorem regWrite_waits (hans : answersAll s = true) (hreach : mgmtReach s off.toNat = true) (hal : off.toNat % 4 = 0)
    (hwait : 4096 ≤ s.digQ.length ∨ s.holds .mgmt = true) :
    exec (.regWrite off v) s = .next (s.holdWrite .mgmt off.toNat v) := by
  change execRegWrite off v s = _
  simp [execRegWrite, hans, hreach, hal, hwait]

/-- A register write of management that is not aligned. -/
theorem regWrite_misaligned (hans : answersAll s = true) (hreach : mgmtReach s off.toNat = true) (hal : off.toNat % 4 ≠ 0) :
    exec (.regWrite off v) s = .next ((s.recordLast (.glbLast, 0) .align).emit (.response 0x04 .align [])) := by
  change execRegWrite off v s = _
  simp [execRegWrite, hans, hreach, hal]

/-- A request for an offset that management does not reach is answered with a code that no rule names. -/
theorem mgmt_unreached (hans : answersAll s = true) (hreach : mgmtReach s off.toNat = false) :
    exec (.regRead off) s = .next (s.drawCode.2.emit (.response 0x03 s.drawCode.1 [])) ∧
    exec (.regWrite off v) s = .next (s.drawCode.2.emit (.response 0x04 s.drawCode.1 [])) := by
  change execRegRead off s = _ ∧ execRegWrite off v s = _
  simp [execRegRead, execRegWrite, hans, hreach]

/-- SUMP_READ gives the entry that stands in the place of its number, if it bears the number. -/
theorem sumpRead_eq {e : Sump} (hans : answersAll s = true) (he : s.sump.get? (seq % 4096) = some e) :
    exec (.sumpRead seq) s = .next (if e.seq = seq then s.emit (.response 0x05 .ok e.bytes)
      else s.drawCode.2.emit (.response 0x05 s.drawCode.1 [])) := by
  change execSumpRead seq s = _
  by_cases hseq : e.seq = seq <;> simp [execSumpRead, hans, he, hseq]

/-- PLDM_SENSOR_READ gives the value of the sensor. -/
theorem pldmSensorRead_eq {id x : Nat} (hans : answersAll s = true) (hx : sensor s id = some x) :
    exec (.pldmSensorRead id) s = .next (s.emit (.response 0x10 .ok (leBytes 4 x))) := by
  change execPldmSensorRead id s = _
  simp [execPldmSensorRead, hans, hx]

end Management

end State

open State

/-! ### Statements that hold -/

/-- Settles O54: every table of the state after reset is empty, so that each read gives its default. -/
theorem resetStateIsSound : Obligations.ResetStateIsSound :=
  ⟨⟨fun _ _ => rfl, rfl, fun _ => rfl, fun _ => ⟨rfl, rfl, rfl⟩, rfl, rfl, rfl, fun _ => rfl⟩,
    ⟨rfl, rfl, by decide, by decide⟩⟩

/-- Settles O57: the rejected write sets one register of the awake state, the last-write status of its set. -/
theorem rejectedWritesChangeOnlyTheStatus : Obligations.RejectedWritesChangeOnlyTheStatus := by
  unfold Obligations.RejectedWritesChangeOnlyTheStatus
  intro src off v s r i harr hvf hholds hal hoff hreg w s1 code hcode
  have hspace : registerSpace off.toNat := by unfold registerSpace; omega
  obtain ⟨x, hx, hlow⟩ := recordLast_nameQueue_spec s1 r i code
  exact ⟨_, (registerWrite_rejected harr hvf hholds hal hspace hreg hcode).trans (congrArg _ hx),
    by rw [fld, reg_setReg_self, hlow], fun q j h => reg_setReg_ne _ _ _ _ _ _ h, rfl⟩

/-- Settles O53: an access to a register meets the awake state (R443, log entry 35), then the register's own check and effect;
command entries and management requests follow the equations of their executors. -/
theorem registersCommandsAndManagement : Obligations.RegistersCommandsAndManagement := by
  unfold Obligations.RegistersCommandsAndManagement
  refine ⟨fun src s harr hvf hholds => ⟨?registers, fun r i w => reg_store s r i w, ?halves, ?misaligned, ?cores⟩,
    fun s => ⟨?entries, ?management, ?readings⟩⟩
  case registers =>
    intro off v r i hoff hal hreg w s1 s2
    have hread := registerRead_reg harr hvf hal hoff hreg
    have hrejected := registerWrite_rejected (w := v) harr hvf hholds hal hoff hreg
    refine ⟨registerWrite_accepted harr hal hoff hreg, fun hres => ?_, fun hres hcheck => ?_, fun hhi => ?_,
      fun hi hhi hl => ?_⟩
    · have hcode : writeCode r w (s1.regCheck r i w) = .badField := if_pos hres
      rw [hcode] at hrejected
      exact hrejected (by decide)
    · have hcode : writeCode r w (s1.regCheck r i w) = s1.regCheck r i w := if_neg (not_not.mpr hres)
      rw [hcode] at hrejected
      exact hrejected hcheck
    · rw [hread, readReg_of_countHi_none hhi]
    · rw [hread, readReg_of_countHi hhi hl]
  case halves => exact fun off off4 v t u hal hoff4 ht ha hh hu => registerWrite_eight harr hvf hholds hal hoff4 ht ha hh hu
  case misaligned =>
    exact fun off v hal => ⟨congrArg Host.Outcome.next (bar0Write_misaligned harr hal),
      congrArg Host.Outcome.next (bar0Read_misaligned harr hal)⟩
  case cores =>
    exact fun c v => ⟨fun h => congrArg Host.Outcome.next (regWrite_core harr rfl h),
      fun h => congrArg Host.Outcome.next (regWrite_core harr rfl h),
      fun h => congrArg Host.Outcome.next (regWrite_core harr rfl h),
      fun h => congrArg Host.Outcome.next (regWrite_core harr rfl h)⟩
  case entries =>
    intro q e s1 hkind hroom htake kind result ends
    have hresult : s1.entryResult q.val e = result := by
      have hk : s1.qKind q.val = kind := by simp only [qKind, fld, reg, takeEntry_regs htake, kind]
      rw [entryResult, hk]
    rw [cmdEntry_runs hkind hroom htake]
    refine ⟨fun h => congrArg _ (runEntry_wrong h), fun c t h hres => ?_,
      fun t h hres => congrArg _ (runEntry_plain h (hresult.trans hres)), fun h hres => ?_⟩
    · rw [runEntry_command h (hresult.trans hres)]
      exact ⟨fun hc => by rw [if_pos hc], fun hc => by rw [hc]; rfl⟩
    · rw [runEntry_rejected h (by rwa [hresult]), hresult]
      rfl
  case management =>
    exact fun hans off v => ⟨fun hreach => ⟨fun hal => regRead_reached hans hreach hal,
      fun hal hroom hheld => regWrite_performed hans hreach hal hroom hheld,
      fun hal hwait => regWrite_waits hans hreach hal hwait, fun hal => regWrite_misaligned hans hreach hal⟩,
      fun hreach => ⟨s.drawCode.1, mgmt_unreached hans hreach⟩⟩
  case readings =>
    refine fun hans => ⟨fun e seq he => ⟨fun hseq => ?_, fun hseq => ⟨s.drawCode.1, ?_⟩⟩,
      fun id x hx => pldmSensorRead_eq hans hx, fun id hid => if_pos hid, rfl, rfl, rfl, rfl, rfl⟩
    · rw [sumpRead_eq hans he, if_pos hseq]
    · rw [sumpRead_eq hans he, if_neg hseq]
      rfl

/-! ### Statements that fail -/

/-- H1's configuration space enables VF 1, whose place in the table of functions is 64 + 1. -/
def vfOfOtherPort : State := { State.reset with vfs := [65] }

/-- Refutes O43: its clause on HOST_LINK_DOWN says of every number f, not only of the 64 functions of a port (R375), that it
does not appear on the port whose link fell. The number 65 at H0 is the place of VF 1 of H1, which stays enabled. -/
theorem not_hostAccessesReachTheModule : ¬ Obligations.HostAccessesReachTheModule := by
  unfold Obligations.HostAccessesReachTheModule
  intro h
  obtain ⟨-, -, -, -, -, -, -, ⟨t, ht, -, -, happears, -⟩, -⟩ := h 0 0 vfOfOtherPort
  have hdown : exec (.hostLinkDown 0) vfOfOtherPort = .next (vfOfOtherPort.portDown 0) := rfl
  cases hdown.symm.trans ht
  exact absurd (happears 65) (by decide)

/-- A MIGRATE of slot 0 runs that an entry of command queue 0 started. H0 is up, and the tables of context 0, at 0, 0x800 and
0x1000, map the queue's completion ring to host memory at 0. -/
def migrating : State :=
  { ((((State.reset.setReg .feQCfg 0 0x2100007).setReg .ctxCfg 0 1).setReg .migState 0 1).setReg .cisWork 0 648).setReg
      .hifState 0 1 with
    power := .on
    bootDue := false
    cis := [(0, 0x01), (1, 0x08), (0x800, 0x01), (0x801, 0x10), (0x1000, 0x17)]
    migs := [(0, ⟨0, 0, 0, 0, [], [], false⟩)]
    cmdJobs := [⟨0, 0, 0, 4, 0⟩] }

/-- The record of the migration's entry, with ABORTED, goes to its ring before the dies lose power (R218, R336). -/
theorem migrating_trip_writes_record : (migrating.trip false).host.readN 16 1 = [0x0B] := by decide +kernel

/-- Refutes O50: entry to KEEPER does not leave host memory as it is, since a migration that it aborts ends its command entry
with a record, and the completion ring may lie in host memory. -/
theorem not_theKeeperGoverns : ¬ Obligations.TheKeeperGoverns := by
  unfold Obligations.TheKeeperGoverns
  rintro ⟨-, -, -, hcommands⟩
  obtain ⟨⟨t, ht, -, -, -, -, -, hhost, -⟩, -⟩ := (hcommands migrating).1 rfl
  have hkeeper : exec .powerKeeper migrating = .next ((migrating.trip false).emit (.response 0x01 .ok [])) := rfl
  rw [Host.Outcome.next.inj (ht.symm.trans hkeeper), emit_host] at hhost
  have hrecord := migrating_trip_writes_record
  rw [hhost] at hrecord
  exact absurd hrecord (by decide)

end Sys2Proof.Machine

/-!
PROOFS. The statements of the number formats: the matrix unit starts and completes its instructions (O21).
-/

namespace Sys2Proof.Machine

/-! ### Jobs that leave a core (R109, R420) -/

namespace Core

/-- `k'` has the fault record and the arrays of `k`, and of jobs none that `k` has not. -/
structure JobsLeave (k k' : Core) : Prop where
  fault : k'.fault = k.fault
  arrs : k'.arrs = k.arrs
  ids : ∀ x ∈ k'.jobs, ∃ y ∈ k.jobs, y.id = x.id

namespace JobsLeave

variable {k k' k'' : Core}

theorem of_jobs_subset (hf : k'.fault = k.fault) (ha : k'.arrs = k.arrs) (hj : k'.jobs ⊆ k.jobs) : k.JobsLeave k' :=
  ⟨hf, ha, fun x hx => ⟨x, hj hx, rfl⟩⟩

theorem refl (k : Core) : k.JobsLeave k := of_jobs_subset rfl rfl (List.Subset.refl _)

theorem trans (h : k.JobsLeave k') (h' : k'.JobsLeave k'') : k.JobsLeave k'' := by
  refine ⟨h'.fault.trans h.fault, h'.arrs.trans h.arrs, fun x hx => ?_⟩
  obtain ⟨y, hy, hyx⟩ := h'.ids x hx
  obtain ⟨z, hz, hzy⟩ := h.ids y hy
  exact ⟨z, hz, hzy.trans hyx⟩

end JobsLeave

/-- A scalar write leaves the jobs and the arrays. -/
theorem jobsLeave_setS (k : Core) (n : BitVec 6) (v : DWord) : k.JobsLeave (k.setS n v) := by
  unfold setS
  split
  · exact .refl k
  · split <;> exact .of_jobs_subset rfl rfl (List.Subset.refl _)

end Core

namespace State

/-- The end of a launch keeps the number of a job that goes on. -/
theorem jobAtEnd_id {j x : Job} (h : jobAtEnd j = some x) : x.id = j.id := by
  unfold jobAtEnd at h
  repeat' split at h
  all_goals cases h <;> rfl

theorem jobsLeave_endRecord (k : Core) (slot : Nat) (code : Code) : k.JobsLeave (endRecord k slot code) := by
  unfold endRecord
  split <;> exact .of_jobs_subset rfl rfl (List.Subset.refl _)

/-- The records of the halted descriptors are laid, then jobs are discarded (R420). -/
theorem jobsLeave_coreAtEnd (k : Core) : k.JobsLeave (coreAtEnd k) := by
  unfold coreAtEnd
  extract_lets k'
  have hrecords : k.JobsLeave k' := by
    refine List.foldlRecOn (motive := fun k' : Core => k.JobsLeave k') k.jobs _ (.refl k) fun k1 h1 j _ => ?_
    split
    · exact h1.trans (jobsLeave_endRecord ..)
    · exact h1
  refine hrecords.trans ⟨rfl, rfl, fun x hx => ?_⟩
  obtain ⟨y, hy, hyx⟩ := List.mem_filterMap.mp hx
  exact ⟨y, hy, (jobAtEnd_id hyx).symm⟩

/-- The end of a launch on a core: jobs leave it. -/
theorem jobsLeave_endLaunchOf (s : State) (p q : Nat) (code : Code) : (s.core q).JobsLeave ((s.endLaunchOf p code).core q) := by
  have hcores : ∀ (t : State) (l r : Nat), (t.core q).JobsLeave
      ((if (t.core r).launch = some l then (t.modCore r coreAtEnd).leaveRecs r else t).core q) := by
    intro t l r
    split
    · change (t.core q).JobsLeave ((t.modCore r coreAtEnd).core q)
      by_cases hqr : q = r
      · rw [hqr, core_modCore_self]
        exact jobsLeave_coreAtEnd _
      · rw [core_modCore_ne _ _ _ _ hqr]
        exact .refl _
    · exact .refl _
  unfold endLaunchOf endLaunch
  split
  · split
    · exact .refl _
    · split
      · exact .refl _
      · exact List.foldlRecOn (motive := fun t : State => (s.core q).JobsLeave (t.core q)) _ _ (.refl _)
          fun t ht r _ => ht.trans (hcores t _ r)
  · exact .refl _

end State

/-! ### Jobs and arrays under the updates of a core (R82, R105) -/

/-- A bank leaves the weight tiles of its array. -/
@[simp] theorem Arr.setBank_active (x : Arr) (b : Nat) (v : Bank) : (x.setBank b v).active = x.active := by
  unfold Arr.setBank
  split <;> rfl

@[simp] theorem Arr.setBank_shadow (x : Arr) (b : Nat) (v : Bank) : (x.setBank b v).shadow = x.shadow := by
  unfold Arr.setBank
  split <;> rfl

/-- The arrays of a mask are named once each. -/
theorem maskArrays_nodup (m : Nat) : (maskArrays m).Nodup := List.nodup_range.filter _

namespace State

theorem job_eq_none {s : State} {p i : Nat} : s.job p i = none ↔ ∀ x ∈ (s.core p).jobs, x.id ≠ i := by simp [job]

/-- A change of jobs that keeps their numbers. -/
theorem job_modJob (s : State) (p id i : Nat) (f : Job → Job) (hf : ∀ x, (f x).id = x.id) :
    (s.modJob p id f).job p i = (s.job p i).map fun x => if x.id = id then f x else x := by
  have hid : ((fun x : Job => x.id == i) ∘ fun x => if x.id = id then f x else x) = fun x => x.id == i := by
    funext x
    by_cases h : x.id = id <;> simp [h, hf]
  simp only [job, modJob, core_modCore_self, List.find?_map, hid]

/-- A job that has left does not come back as jobs leave. -/
theorem job_none_of_jobsLeave {s t : State} {p i : Nat} (h : (s.core p).JobsLeave (t.core p)) (hi : s.job p i = none) :
    t.job p i = none := by
  rw [job_eq_none] at hi ⊢
  intro x hx
  obtain ⟨y, hy, hyx⟩ := h.ids x hx
  exact hyx ▸ hi y hy

theorem arr_of_jobsLeave {s t : State} {p : Nat} (h : (s.core p).JobsLeave (t.core p)) (a : Nat) : t.arr p a = s.arr p a := by
  rw [arr, h.arrs, arr]

theorem jobsLeave_dropJob (s : State) (p id : Nat) : (s.core p).JobsLeave ((s.dropJob p id).core p) := by
  rw [dropJob, core_modCore_self]
  exact .of_jobs_subset rfl rfl fun x hx => (List.mem_filter.mp hx).1

@[simp] theorem job_dropJob_self (s : State) (p i : Nat) : (s.dropJob p i).job p i = none := by simp [job_eq_none, dropJob]

theorem job_modCore (s : State) (p i : Nat) (f : Core → Core) (h : (f (s.core p)).jobs = (s.core p).jobs) :
    (s.modCore p f).job p i = s.job p i := by simp [job, h]

theorem arr_modCore (s : State) (p a : Nat) (f : Core → Core) (h : (f (s.core p)).arrs = (s.core p).arrs) :
    (s.modCore p f).arr p a = s.arr p a := by simp [arr, h]

@[simp] theorem arr_modJob (s : State) (p id a : Nat) (f : Job → Job) : (s.modJob p id f).arr p a = s.arr p a :=
  arr_modCore s p a _ rfl

@[simp] theorem arr_dropJob (s : State) (p id a : Nat) : (s.dropJob p id).arr p a = s.arr p a := arr_modCore s p a _ rfl

@[simp] theorem arr_bump (s : State) (r : Reg) (i n p a : Nat) : (s.bump r i n).arr p a = s.arr p a := rfl
@[simp] theorem arr_bump64 (s : State) (lo hi : Reg) (i n p a : Nat) : (s.bump64 lo hi i n).arr p a = s.arr p a := rfl
@[simp] theorem job_bump (s : State) (r : Reg) (i n p id : Nat) : (s.bump r i n).job p id = s.job p id := rfl
@[simp] theorem job_bump64 (s : State) (lo hi : Reg) (i n p id : Nat) : (s.bump64 lo hi i n).job p id = s.job p id := rfl

theorem arr_setArr (s : State) (p a b : Nat) (x : Arr) :
    (s.setArr p b x).arr p a = if a = b then x else s.arr p a := by
  split
  · next h => simp [h, arr, setArr]
  · next h => simp [arr, setArr, SMap.getD_set_ne _ _ _ h]

/-- An array that is updated from what it holds. -/
theorem arr_setArr_arr (s : State) (p a b : Nat) (f : Arr → Arr) :
    (s.setArr p b (f (s.arr p b))).arr p a = if a = b then f (s.arr p a) else s.arr p a := by
  rw [arr_setArr]
  split
  · next h => rw [h]
  · rfl

@[simp] theorem jobs_setArr (s : State) (p a : Nat) (x : Arr) : ((s.setArr p a x).core p).jobs = (s.core p).jobs := by
  simp [setArr]

@[simp] theorem core_stickyIf (s : State) (p q b : Nat) (x : Bool) : (s.stickyIf p b x).core q = s.core q := by
  cases x <;> rfl

/-! ### Updates of one core and of registers -/

/-- `t` is `s` but for core `p` and the registers. -/
structure CoreRegsOnly (s t : State) (p : Nat) : Prop where
  frame : { t with cores := s.cores, regs := s.regs } = s
  others : ∀ q, q ≠ p → t.core q = s.core q

namespace CoreRegsOnly

variable {s t u : State} {p : Nat}

theorem refl (s : State) (p : Nat) : s.CoreRegsOnly s p := ⟨rfl, fun _ _ => rfl⟩

theorem trans (h : s.CoreRegsOnly t p) (h' : t.CoreRegsOnly u p) : s.CoreRegsOnly u p :=
  ⟨(congrArg (fun x : State => { x with cores := s.cores, regs := s.regs }) h'.frame).trans h.frame,
    fun q hq => (h'.others q hq).trans (h.others q hq)⟩

theorem modCore (h : s.CoreRegsOnly t p) (f : Core → Core) : s.CoreRegsOnly (t.modCore p f) p :=
  h.trans ⟨rfl, fun q hq => core_modCore_ne t p q f hq⟩

theorem modJob (h : s.CoreRegsOnly t p) (id : Nat) (f : Job → Job) : s.CoreRegsOnly (t.modJob p id f) p := h.modCore _
theorem dropJob (h : s.CoreRegsOnly t p) (id : Nat) : s.CoreRegsOnly (t.dropJob p id) p := h.modCore _
theorem setArr (h : s.CoreRegsOnly t p) (a : Nat) (x : Arr) : s.CoreRegsOnly (t.setArr p a x) p := h.modCore _

theorem setReg (h : s.CoreRegsOnly t p) (r : Reg) (i : Nat) (v : Word) : s.CoreRegsOnly (t.setReg r i v) p :=
  h.trans ⟨rfl, fun _ _ => rfl⟩

theorem bump (h : s.CoreRegsOnly t p) (r : Reg) (i n : Nat) : s.CoreRegsOnly (t.bump r i n) p := h.setReg ..

theorem bump64 (h : s.CoreRegsOnly t p) (lo hi : Reg) (i n : Nat) : s.CoreRegsOnly (t.bump64 lo hi i n) p :=
  (h.setReg ..).setReg ..

theorem stickyIf (h : s.CoreRegsOnly t p) (b : Nat) (x : Bool) : s.CoreRegsOnly (t.stickyIf p b x) p := by
  cases x
  · exact h
  · exact (h.setReg ..).setReg ..

/-- A run of such updates. -/
theorem foldl {α : Type} {step : State → α → State} (l : List α) (h : s.CoreRegsOnly t p)
    (hstep : ∀ (u : State) (x : α), u.CoreRegsOnly (step u x) p) : s.CoreRegsOnly (l.foldl step t) p :=
  List.foldlRecOn (motive := fun u => s.CoreRegsOnly u p) l step h fun u hu x _ => hu.trans (hstep u x)

theorem pads (h : s.CoreRegsOnly t p) : t.pads = s.pads := (congrArg State.pads h.frame :)
theorem cis (h : s.CoreRegsOnly t p) : t.cis = s.cis := (congrArg State.cis h.frame :)
theorem host (h : s.CoreRegsOnly t p) : t.host = s.host := (congrArg State.host h.frame :)

end CoreRegsOnly

/-! ### Updates of arrays one after another -/

section ArrayFold

variable {α : Type} {p : Nat} {key : α → Nat} {g : α → Arr → Arr} {step : State → α → State}
  (hstep : ∀ (t : State) (x : α) (a : Nat), (step t x).arr p a = if a = key x then g x (t.arr p a) else t.arr p a)

include hstep

/-- An array that no update names stays. -/
theorem arr_foldl_of_notMem (l : List α) (s : State) {a : Nat} (h : a ∉ l.map key) : (l.foldl step s).arr p a = s.arr p a := by
  refine List.foldlRecOn (motive := fun t => t.arr p a = s.arr p a) l step rfl fun t ht x hx => ?_
  rw [hstep, if_neg fun hax : a = key x => h (hax ▸ List.mem_map_of_mem hx), ht]

/-- An array that one update names takes it. -/
theorem arr_foldl_of_mem (l : List α) (s : State) {x : α} (hl : (l.map key).Nodup) (hx : x ∈ l) :
    (l.foldl step s).arr p (key x) = g x (s.arr p (key x)) := by
  induction l generalizing s with
  | nil => exact absurd hx List.not_mem_nil
  | cons y l ih =>
    obtain ⟨hy, hl⟩ := List.nodup_cons.mp hl
    rcases List.mem_cons.mp hx with rfl | hx
    · rw [List.foldl_cons, arr_foldl_of_notMem hstep l _ hy, hstep, if_pos rfl]
    · have hne : key x ≠ key y := fun h => hy (h ▸ List.mem_map_of_mem hx)
      rw [List.foldl_cons, ih _ hl hx, hstep, if_neg hne]

end ArrayFold

/-- Updates that keep the jobs of a core. -/
theorem job_foldl {α : Type} {p : Nat} {step : State → α → State}
    (hstep : ∀ (t : State) (x : α), ((step t x).core p).jobs = (t.core p).jobs) (l : List α) (s : State) (i : Nat) :
    (l.foldl step s).job p i = s.job p i := by
  have hjobs : ((l.foldl step s).core p).jobs = (s.core p).jobs :=
    List.foldlRecOn (motive := fun t => (t.core p).jobs = (s.core p).jobs) l step rfl fun t ht x _ => (hstep t x).trans ht
  rw [job, hjobs, job]

/-! ### Updates of one scratchpad -/

/-- `t` is `s` but for the scratchpad of core `p` and its poison marks. -/
structure PadOnly (s t : State) (p : Nat) : Prop where
  frame : { t with pads := s.pads, padPoison := s.padPoison } = s
  others : ∀ q, q ≠ p → t.pad q = s.pad q

namespace PadOnly

variable {s t u : State} {p : Nat}

theorem refl (s : State) (p : Nat) : s.PadOnly s p := ⟨rfl, fun _ _ => rfl⟩

theorem trans (h : s.PadOnly t p) (h' : t.PadOnly u p) : s.PadOnly u p :=
  ⟨(congrArg (fun x : State => { x with pads := s.pads, padPoison := s.padPoison }) h'.frame).trans h.frame,
    fun q hq => (h'.others q hq).trans (h.others q hq)⟩

theorem padWrite (h : s.PadOnly t p) (a : Nat) (bs : List Byte) (poison : Bool) :
    s.PadOnly (t.padWrite p a bs poison) p := by
  refine h.trans ?_
  unfold State.padWrite
  dsimp only
  split <;> exact ⟨rfl, fun q hq => pad_setPad_ne t p q _ hq⟩

theorem padMark (h : s.PadOnly t p) (a n : Nat) : s.PadOnly (t.padMark p a n) p := by
  refine h.trans ?_
  unfold State.padMark
  split <;> exact ⟨rfl, fun _ _ => rfl⟩

theorem cores (h : s.PadOnly t p) : t.cores = s.cores := (congrArg State.cores h.frame :)
theorem cis (h : s.PadOnly t p) : t.cis = s.cis := (congrArg State.cis h.frame :)
theorem host (h : s.PadOnly t p) : t.host = s.host := (congrArg State.host h.frame :)
theorem core (h : s.PadOnly t p) (q : Nat) : t.core q = s.core q := by rw [State.core, h.cores, State.core]

end PadOnly

end State

open State

/-! ### A count that waits for the matrix instructions before it (R109) -/

/-- The MTF that settle change their core alone, whose arrays and other jobs stay. -/
theorem settleMtf_spec (p n : Nat) (s : State) :
    s.CoreRegsOnly (settleMtf p n s) p ∧ (s.core p).JobsLeave ((settleMtf p n s).core p) := by
  induction n generalizing s with
  | zero => exact ⟨.refl s p, .refl _⟩
  | succ n ih =>
    rw [settleMtf]
    split
    · next j _ =>
      split
      · obtain ⟨honly, hleave⟩ := ih ((s.modCore p fun k =>
          (k.setS j.w.dst (BitVec.ofNat 64 (tileFlags s p))).freeBusy (.s j.w.dst.toNat)).dropJob p j.id)
        refine ⟨(((CoreRegsOnly.refl s p).modCore _).modCore _).trans honly, .trans (.trans ?_ (jobsLeave_dropJob ..)) hleave⟩
        rw [core_modCore_self]
        exact (Core.jobsLeave_setS ..).trans (.of_jobs_subset rfl rfl (List.Subset.refl _))
      · exact ⟨.refl s p, .refl _⟩
    · exact ⟨.refl s p, .refl _⟩

/-! ### The start of a matrix instruction (R105, R113) -/

/-- An array as an MST that starts finds it: the swap, and the clearing of its bank's flags (R105, R106). -/
def startArr (w : IWord) (x : Arr) : Arr :=
  let x := if mstSwp w then { x with active := x.shadow, shadow := none } else x
  if mstStart w then x.setBank (mstBank w) { x.bank (mstBank w) with flags := 0 } else x

/-- Under SWP the loaded tile is the active one. -/
theorem startArr_swp {w : IWord} (h : mstSwp w = true) (x : Arr) :
    (startArr w x).active = x.shadow ∧ (startArr w x).shadow = none := by
  by_cases hs : mstStart w = true <;> simp [startArr, h, hs]

section Start

variable {s : State} {c : CoreId} {j : Job} (hj : ((s.jobsOf c.val [4]).find? fun j => j.prog == .queued) = some j)

include hj

theorem matrixStart_held (hr : mxReady s c.val j = false) : exec (.matrixStart c) s = .next s := by
  change execMatrixStart c s = _
  simp [execMatrixStart, hj, hr]

theorem matrixStart_mst (hr : mxReady s c.val j = true) (hf : j.func = 1) :
    exec (.matrixStart c) s = .next (startMst s c.val j) := by
  change execMatrixStart c s = _
  simp [execMatrixStart, hj, hr, hf]

/-- A weight load takes no cycles of the stream path, and an MDR some (R118, R120). -/
theorem matrixStart_other (hr : mxReady s c.val j = true) (hf : j.func ≠ 1) : ∃ n,
    exec (.matrixStart c) s = .next ((if j.func = 2 then s.bump64 .mxuStreamLo .mxuStreamHi c.val n else s).modJob c.val j.id
      fun x => { x with prog := .running }) := by
  change ∃ n, execMatrixStart c s = _
  simp only [execMatrixStart, hj, hr, hf, if_false, Bool.not_true, Bool.false_eq_true]
  exact ⟨_, rfl⟩

end Start

/-- A change of a job by which a running one runs on. -/
theorem job_modJob_running {s : State} {p i : Nat} (id : Nat) {f : Job → Job} (hid : ∀ x, (f x).id = x.id)
    (hf : ∀ x, (f x).prog = .running) (h : ∃ y, s.job p i = some y ∧ y.prog = .running) :
    ∃ y, (s.modJob p id f).job p i = some y ∧ y.prog = .running := by
  obtain ⟨y, hy, hrun⟩ := h
  refine ⟨if y.id = id then f y else y, by rw [job_modJob _ _ _ _ _ hid, hy, Option.map_some], ?_⟩
  split
  · exact hf y
  · exact hrun

/-- The named job takes the change. -/
theorem job_modJob_self {s : State} {p : Nat} {j : Job} {f : Job → Job} (hid : ∀ x, (f x).id = x.id)
    (h : s.job p j.id = some j) : (s.modJob p j.id f).job p j.id = some (f j) := by
  rw [job_modJob _ _ _ _ _ hid, h, Option.map_some, if_pos rfl]

/-- The arrays of an MST that starts. -/
def startArrs (p : Nat) (w : IWord) (s : State) : State :=
  (maskArrays (mxMask w)).foldl (fun t a => t.setArr p a (startArr w (t.arr p a))) s

theorem coreRegsOnly_startArrs (p : Nat) (w : IWord) (s : State) : s.CoreRegsOnly (startArrs p w s) p :=
  .foldl _ (.refl s p) fun t _ => (CoreRegsOnly.refl t p).setArr _ _

theorem job_startArrs (p : Nat) (w : IWord) (s : State) (i : Nat) : (startArrs p w s).job p i = s.job p i :=
  job_foldl (fun _ _ => jobs_setArr ..) _ s i

theorem arr_startArrs (p : Nat) (w : IWord) (s : State) {a : Nat} (ha : a ∈ maskArrays (mxMask w)) :
    (startArrs p w s).arr p a = startArr w (s.arr p a) :=
  arr_foldl_of_mem (key := id) (g := fun _ => startArr w) (fun t x b => arr_setArr_arr t p b x _) _ s
    ((List.map_id _).symm ▸ maskArrays_nodup _) ha

/-- An MST that starts changes its core and the counters of cycles; it runs, and its arrays are as `startArr` says. -/
theorem startMst_spec (s : State) (p : Nat) (j : Job) (hj : s.job p j.id = some j) :
    s.CoreRegsOnly (startMst s p j) p ∧ (∃ y, (startMst s p j).job p j.id = some y ∧ y.prog = .running) ∧
    ∀ a ∈ maskArrays (mxMask j.w), (startMst s p j).arr p a = startArr j.w (s.arr p a) := by
  have hrun : ∀ t : State, t.job p j.id = some j → ∀ tiles, ∃ y,
      (t.modJob p j.id fun x => { x with prog := .running, tiles := tiles }).job p j.id = some y ∧ y.prog = .running :=
    fun t ht tiles => ⟨_, job_modJob_self (fun _ => rfl) ht, rfl⟩
  have honly := coreRegsOnly_startArrs p j.w s
  have hjob : (startArrs p j.w s).job p j.id = some j := (job_startArrs ..).trans hj
  unfold startMst
  extract_lets _ _ _ t _
  have ht : t = startArrs p j.w s := rfl
  split
  · refine ⟨((((honly.bump64 ..).bump ..).modJob ..).bump64 ..).modJob ..,
      job_modJob_running _ (fun _ => rfl) (fun _ => rfl) (hrun _ ?_ _), fun a ha => ?_⟩
    · rw [job_bump, job_bump64, ht, hjob]
    · rw [arr_modJob, arr_bump64, arr_modJob, arr_bump, arr_bump64, ht, arr_startArrs p j.w s ha]
  · refine ⟨((honly.bump64 ..).bump ..).modJob .., hrun _ ?_ _, fun a ha => ?_⟩
    · rw [job_bump, job_bump64, ht, hjob]
    · rw [arr_modJob, arr_bump, arr_bump64, ht, arr_startArrs p j.w s ha]

/-! ### The completion of a weight load (R50, R103) -/

/-- The shadows of the arrays take the tiles that a weight load read for them. -/
def loadShadows (s : State) (p : Nat) (j : Job) (bad : Bool) (t : State) : State :=
  (maskArrays (mxMask j.w)).zipIdx.foldl (fun t x =>
    t.setArr p x.1 { t.arr p x.1 with shadow := some (loadTile s p j (residEntries s p j) x.2 bad) }) t

section Shadows

variable (s : State) (p : Nat) (j : Job) (bad : Bool) (t : State)

theorem coreRegsOnly_loadShadows : t.CoreRegsOnly (loadShadows s p j bad t) p :=
  .foldl _ (.refl t p) fun t _ => (CoreRegsOnly.refl t p).setArr _ _

theorem job_loadShadows (i : Nat) : (loadShadows s p j bad t).job p i = t.job p i :=
  job_foldl (fun _ _ => jobs_setArr ..) _ t i

theorem arr_loadShadows {a : Nat} (ha : a ∈ maskArrays (mxMask j.w)) : ∃ i, (loadShadows s p j bad t).arr p a =
    { t.arr p a with shadow := some (loadTile s p j (residEntries s p j) i bad) } := by
  have hnames : (maskArrays (mxMask j.w)).zipIdx.map Prod.fst = maskArrays (mxMask j.w) := List.zipIdx_map_fst ..
  rw [← hnames] at ha
  obtain ⟨⟨b, i⟩, hx, rfl⟩ := List.mem_map.mp ha
  unfold loadShadows
  exact ⟨i, arr_foldl_of_mem (key := Prod.fst)
    (g := fun x y => { y with shadow := some (loadTile s p j (residEntries s p j) x.2 bad) })
    (fun t x b => arr_setArr_arr t p b x.1 (fun y => { y with shadow := _ })) _ t (hnames.symm ▸ maskArrays_nodup _) hx⟩

end Shadows

/-- The fault record of a core whose weight load met a bad residual list (R50, R77). -/
def listFault (j : Job) (k : Core) : Core := { k with fault := .badField, faultCls := 4, faultFunc := 0, faultPc := j.pc }

section Load

variable {s : State} {c : CoreId} {j : Job}
  (hj : ((s.jobsOf c.val [4]).find? fun j => j.func == 0 && j.prog == .running) = some j)

include hj

/-- A load whose residual list is good fills its shadows. -/
theorem wldLoadDone_loaded (hok : residOk (j.main.rowBlocks * j.main.ext1) none (residEntries s c.val j) = true) : ∃ bad,
    exec (.wldLoadDone c) s = .next (settleMtf c.val 8 (loadShadows s c.val j bad (s.dropJob c.val j.id))) := by
  change ∃ bad, execWldLoadDone c s = _
  simp only [execWldLoadDone, hj, hok, Bool.not_true, Bool.false_eq_true, if_false]
  exact ⟨_, rfl⟩

/-- A load whose residual list is bad ends its launch (R50). -/
theorem wldLoadDone_badList (hbad : residOk (j.main.rowBlocks * j.main.ext1) none (residEntries s c.val j) = false) :
    exec (.wldLoadDone c) s =
      .next (((s.dropJob c.val j.id).modCore c.val (listFault j)).endLaunchOf c.val .badField) := by
  change execWldLoadDone c s = _
  simp only [execWldLoadDone, hj, hbad, Bool.not_false, if_true]
  rfl

end Load

/-! ### The completion of an MST or an MDR (R105, R108, R118) -/

/-- The bank of an array takes what an MST made of it, and the flags of its accumulation stick (R65). -/
def storeBank (p b : Nat) (t : State) (x : Nat × Bank × List (List Word) × AccFlags) : State :=
  (((t.setArr p x.1 ((t.arr p x.1).setBank b x.2.1)).stickyIf p (4 * x.1) x.2.2.2.ovf).stickyIf p (4 * x.1 + 1)
    x.2.2.2.nan).stickyIf p (4 * x.1 + 2) x.2.2.2.invalid

theorem coreRegsOnly_storeBank (p b : Nat) (t : State) (x : Nat × Bank × List (List Word) × AccFlags) :
    t.CoreRegsOnly (storeBank p b t x) p :=
  ((((CoreRegsOnly.refl t p).setArr ..).stickyIf ..).stickyIf ..).stickyIf ..

theorem arr_storeBank (p b : Nat) (t : State) (x : Nat × Bank × List (List Word) × AccFlags) (a : Nat) :
    (storeBank p b t x).arr p a = if a = x.1 then (t.arr p a).setBank b x.2.1 else t.arr p a := by
  have hsticky : (storeBank p b t x).arr p a = (t.setArr p x.1 ((t.arr p x.1).setBank b x.2.1)).arr p a := by
    simp only [storeBank, arr, core_stickyIf]
  exact hsticky.trans (arr_setArr_arr t p a x.1 fun y => y.setBank b x.2.1)

/-- An MST that completes changes its core, the registers and the free values; its job is gone, and the arrays that it did not
run through stay. -/
theorem finishMst_spec (s : State) (p : Nat) (j : Job) :
    { s with free := s.free + 8 }.CoreRegsOnly (finishMst s p j) p ∧ (finishMst s p j).job p j.id = none ∧
    ∀ a, a ∉ j.tiles.map Prod.fst → (finishMst s p j).arr p a = s.arr p a := by
  unfold finishMst State.draw
  dsimp -zeta only
  extract_lets s0 _ out _ _ t u
  have ht : t = out.foldl (storeBank p (mstBank j.w)) s0 := rfl
  have hnames : out.map Prod.fst = j.tiles.map Prod.fst := by
    calc out.map Prod.fst = (j.tiles.zipIdx.map Prod.fst).map Prod.fst := by rw [List.map_map, List.map_map]; rfl
      _ = j.tiles.map Prod.fst := by rw [List.zipIdx_map_fst]
  have honly : s0.CoreRegsOnly t p := ht ▸ .foldl out (.refl s0 p) (coreRegsOnly_storeBank p _)
  have harr : ∀ a, a ∉ j.tiles.map Prod.fst → t.arr p a = s.arr p a := fun a ha =>
    ht ▸ arr_foldl_of_notMem (g := fun x y => y.setBank (mstBank j.w) x.2.1) (arr_storeBank p _) out s0 (hnames ▸ ha)
  have hpair : t.CoreRegsOnly u p ∧ ∀ a, u.arr p a = t.arr p a := by
    unfold u
    split
    · exact ⟨(CoreRegsOnly.refl t p).modJob .., fun a => arr_modJob ..⟩
    · exact ⟨.refl t p, fun _ => rfl⟩
  obtain ⟨hforward, hkept⟩ := hpair
  exact ⟨(honly.trans hforward).dropJob _, job_dropJob_self ..,
    fun a ha => (arr_dropJob ..).trans ((hkept a).trans (harr a ha))⟩

/-- An MDR that completes changes the scratchpad of its core, and its job is gone. -/
theorem finishMdr_spec (s : State) (p : Nat) (j : Job) :
    ∃ t, s.PadOnly t p ∧ finishMdr s p j = t.dropJob p j.id := by
  refine ⟨_, ?_, rfl⟩
  refine List.foldlRecOn (motive := fun t => s.PadOnly t p) _ _ (.refl s p) fun t ht i _ => ?_
  refine List.foldlRecOn (motive := fun t => s.PadOnly t p) _ _ (ht.padWrite ..) fun u hu x _ => ?_
  dsimp only
  split
  · exact hu.padMark ..
  · exact hu

section Complete

variable {s : State} {c : CoreId} {j : Job}
  (hj : ((s.jobsOf c.val [4]).find? fun j => j.prog == .running && decide (j.func ≠ 0)) = some j)

include hj

theorem matrixComplete_mst (hf : j.func = 1) :
    exec (.matrixComplete c) s = .next (settleMtf c.val 8 (finishMst s c.val j)) := by
  change execMatrixComplete c s = _
  simp only [execMatrixComplete, hj, hf, if_true]

theorem matrixComplete_mdr (hf : j.func ≠ 1) :
    exec (.matrixComplete c) s = .next (settleMtf c.val 8 (finishMdr s c.val j)) := by
  change execMatrixComplete c s = _
  simp only [execMatrixComplete, hj, hf, if_false]

end Complete

/-! ### Statements that hold -/

/-- Settles O21: the start, the load and the completion change one core, its registers and its scratchpad; the arrays they
name take their tiles and banks one after another, each once. -/
theorem matrixUnitRuns : Obligations.MatrixUnitRuns := by
  unfold Obligations.MatrixUnitRuns
  refine ⟨fun c s j hj hjob => ⟨matrixStart_held hj, fun hr hf => ?load, fun hr hf => ?drain, fun hr hf => ?multiply⟩,
    fun c s j hj => ⟨fun hok => ?loaded, fun hbad => ?badList⟩, fun c s j hj => ?complete⟩
  case load =>
    obtain ⟨n, hexec⟩ := matrixStart_other hj hr (by omega)
    rw [if_neg (by omega)] at hexec
    exact ⟨_, hexec, job_modJob_self (fun _ => rfl) hjob, rfl⟩
  case drain =>
    obtain ⟨n, hexec⟩ := matrixStart_other hj hr (by omega)
    rw [if_pos hf] at hexec
    exact ⟨_, hexec, job_modJob_self (fun _ => rfl) hjob, rfl⟩
  case multiply =>
    obtain ⟨honly, ⟨y, hy, hrun⟩, harr⟩ := startMst_spec s c.val j hjob
    refine ⟨_, y, matrixStart_mst hj hr hf, hy, hrun, honly.frame, fun a ha hswp => ?_⟩
    rw [harr a ha]
    exact startArr_swp hswp _
  case loaded =>
    obtain ⟨bad, hexec⟩ := wldLoadDone_loaded hj hok
    obtain ⟨hsettle, hleave⟩ := settleMtf_spec c.val 8 (loadShadows s c.val j bad (s.dropJob c.val j.id))
    have hframe := (((CoreRegsOnly.refl s c.val).dropJob j.id).trans (coreRegsOnly_loadShadows ..)).trans hsettle
    have hgone := (job_loadShadows s c.val j bad (s.dropJob c.val j.id) j.id).trans (job_dropJob_self ..)
    refine ⟨_, hexec, job_none_of_jobsLeave hleave hgone, hframe.pads, hframe.cis, fun a ha => ?_⟩
    obtain ⟨i, hi⟩ := arr_loadShadows s c.val j bad (s.dropJob c.val j.id) ha
    rw [arr_of_jobsLeave hleave, hi, arr_dropJob]
    exact ⟨_, rfl, rfl, rfl, rfl, rfl, rfl, rfl⟩
  case badList =>
    have hleave := jobsLeave_endLaunchOf ((s.dropJob c.val j.id).modCore c.val (listFault j)) c.val c.val .badField
    have hgone := (job_modCore (s.dropJob c.val j.id) c.val j.id (listFault j) rfl).trans (job_dropJob_self ..)
    refine ⟨_, wldLoadDone_badList hj hbad, job_none_of_jobsLeave hleave hgone, hleave.fault.trans ?_, fun a => ?_⟩
    · rw [core_modCore_self, listFault]
    · rw [arr_of_jobsLeave hleave, arr_modCore _ _ _ _ rfl, arr_dropJob]
  case complete =>
    by_cases hf : j.func = 1
    · obtain ⟨honly, hgone, harr⟩ := finishMst_spec s c.val j
      obtain ⟨hsettle, hleave⟩ := settleMtf_spec c.val 8 (finishMst s c.val j)
      have hframe := honly.trans hsettle
      refine ⟨_, matrixComplete_mst hj hf, job_none_of_jobsLeave hleave hgone, hframe.cis, hframe.host,
        fun q hq => ⟨hframe.others q hq, by rw [pad, hframe.pads]; rfl⟩,
        fun _ => ⟨hframe.pads, fun a ha => (arr_of_jobsLeave hleave a).trans (harr a ha)⟩, fun h => absurd hf h⟩
    · obtain ⟨t, hpad, hfinish⟩ := finishMdr_spec s c.val j
      obtain ⟨hsettle, hleave⟩ := settleMtf_spec c.val 8 (t.dropJob c.val j.id)
      have hframe := ((CoreRegsOnly.refl t c.val).dropJob j.id).trans hsettle
      refine ⟨_, hfinish ▸ matrixComplete_mdr hj hf, job_none_of_jobsLeave hleave (job_dropJob_self ..),
        hframe.cis.trans hpad.cis, hframe.host.trans hpad.host, fun q hq => ⟨(hframe.others q hq).trans (hpad.core q), ?_⟩,
        fun h => absurd h hf, fun _ a => ?_⟩
      · rw [pad, hframe.pads]
        exact hpad.others q hq
      · rw [arr_of_jobsLeave hleave, arr_dropJob, arr, hpad.core, arr]

end Sys2Proof.Machine

/-!
PROOFS. The statements of the programming model: scalar arithmetic and branches (O3, O4, O5, O6).
-/

namespace Sys2Proof.Machine

/-! ### Operations that rewrite their core alone (R76) -/

section Rewrite

variable {s : State} {c : CoreId} {w : IWord} {i : Instr} {cls func : Nat} {fields : Bool} {regs : List RegRef}
  {body : State → Res} (hi : exec i s = issue cls func w none fields regs c.val body s)
  (h : Issues s c.val w none regs) (hf : fields = true)

include hi h hf

/-- An operation that rewrites its own core completes, and the core goes on with the next word. -/
theorem completes_of_modCore (f : Core → Core)
    (hbody : body (s.afterFetch c.val none) = .ok ((s.afterFetch c.val none).modCore c.val f)) :
    Completes i s c.val none (f ((s.afterFetch c.val none).core c.val)) (((s.afterFetch c.val none).core c.val).pc + 8) :=
  completes_of_ok (by rw [hi, issue_runs h hf, hbody, State.modCore])

/-- The same for an operation that jumps. -/
theorem completes_of_modCore_jump (f : Core → Core) {pc : BitVec 57}
    (hbody : body (s.afterFetch c.val none) = .jump ((s.afterFetch c.val none).modCore c.val f) pc) :
    Completes i s c.val none (f ((s.afterFetch c.val none).core c.val)) pc :=
  completes_of_jump (by rw [hi, issue_runs h hf, hbody, State.modCore])

/-- An operation that changes nothing completes. -/
theorem completes_of_unchanged (hbody : body (s.afterFetch c.val none) = .ok (s.afterFetch c.val none)) :
    Completes i s c.val none ((s.afterFetch c.val none).core c.val) (((s.afterFetch c.val none).core c.val).pc + 8) :=
  ⟨_, by rw [hi, issue_runs h hf, hbody]; rfl, coreOnly_setCore ..⟩

/-- An operation that jumps and changes nothing besides. -/
theorem completes_of_unchanged_jump {pc : BitVec 57}
    (hbody : body (s.afterFetch c.val none) = .jump (s.afterFetch c.val none) pc) :
    Completes i s c.val none ((s.afterFetch c.val none).core c.val) pc :=
  ⟨_, by rw [hi, issue_runs h hf, hbody]; rfl, coreOnly_setCore ..⟩

end Rewrite

section Alu

variable {s : State} {c : CoreId} {w : IWord} {i : Instr}

/-- An operation on two registers writes its result to s(DST). -/
theorem completes_alu2 (func : Nat) (f : DWord → DWord → DWord) (hi : exec i s = alu2 func c w f s)
    (h : Issues s c.val w none (sRegs [w.dst, w.src1, w.src2])) (himm : w.imm = 0) :
    let k := (s.afterFetch c.val none).core c.val
    Completes i s c.val none (k.setS w.dst (f (k.getS w.src1) (k.getS w.src2))) (k.pc + 8) :=
  completes_of_modCore hi h (by simp [himm]) (fun k => k.setS w.dst (f _ _)) rfl

/-- An operation on a register and an immediate writes its result to s(DST). -/
theorem completes_alu1 (func : Nat) {fields : Bool} (f : DWord → DWord) (hi : exec i s = alu1 func c w fields f s)
    (h : Issues s c.val w none (sRegs [w.dst, w.src1])) (hsrc2 : w.src2 = 0) (hf : fields = true) :
    let k := (s.afterFetch c.val none).core c.val
    Completes i s c.val none (k.setS w.dst (f (k.getS w.src1))) (k.pc + 8) :=
  completes_of_modCore hi h (by simp [hsrc2, hf]) (fun k => k.setS w.dst (f _)) rfl

end Alu

/-! ### The values of the integer functions (R87) -/

theorem mulHigh_eq_ofInt (a b : DWord) : mulHigh a b = BitVec.ofInt 64 (a.toInt * b.toInt / 2 ^ 64) := by
  have hmul : a.signExtend 128 * b.signExtend 128 = BitVec.ofInt 128 (a.toInt * b.toInt) := by
    rw [BitVec.signExtend, BitVec.signExtend, BitVec.ofInt_mul]
  apply BitVec.eq_of_toNat_eq
  rw [mulHigh, hmul, BitVec.toNat_setWidth, BitVec.toNat_ushiftRight, BitVec.toNat_ofInt, BitVec.toNat_ofInt,
    Nat.shiftRight_eq_div_pow]
  omega

theorem sshiftRight_eq_ofInt (a : DWord) (n : Nat) : a.sshiftRight n = BitVec.ofInt 64 (a.toInt / 2 ^ n) := by
  rw [BitVec.sshiftRight, Int.shiftRight_eq_div_pow]
  rfl

theorem ite_slt_eq_ofInt_min (a b : DWord) : (if b.slt a then b else a) = BitVec.ofInt 64 (min a.toInt b.toInt) := by
  rw [BitVec.slt_eq_decide]
  by_cases h : b.toInt < a.toInt
  · rw [if_pos (decide_eq_true h), min_eq_right h.le, BitVec.ofInt_toInt]
  · rw [if_neg (by simpa using h), min_eq_left (not_lt.mp h), BitVec.ofInt_toInt]

theorem ite_slt_eq_ofInt_max (a b : DWord) : (if a.slt b then b else a) = BitVec.ofInt 64 (max a.toInt b.toInt) := by
  rw [BitVec.slt_eq_decide]
  by_cases h : a.toInt < b.toInt
  · rw [if_pos (decide_eq_true h), max_eq_right h.le, BitVec.ofInt_toInt]
  · rw [if_neg (by simpa using h), max_eq_left (not_lt.mp h), BitVec.ofInt_toInt]

/-- LHI puts a word over the low half of a register. -/
theorem append_low_eq_ofNat (a : Word) (b : DWord) :
    a ++ b.setWidth 32 = BitVec.ofNat 64 (a.toNat * 2 ^ 32 + b.toNat % 2 ^ 32) := by
  apply BitVec.eq_of_toNat_eq
  have ha := a.isLt
  rw [BitVec.toNat_append, ← Nat.shiftLeft_add_eq_or_of_lt (BitVec.isLt _), Nat.shiftLeft_eq, BitVec.toNat_setWidth,
    BitVec.toNat_ofNat]
  omega

/-- Condition 3 is the signed "not below". -/
theorem condition_three (x y : DWord) : condition 3 x y = decide (y.toInt ≤ x.toInt) := by
  change (!decide (x.toInt < y.toInt)) = _
  rw [← decide_not, decide_eq_decide, not_lt]

/-- Condition 5 is the unsigned "not below". -/
theorem condition_five (x y : DWord) : condition 5 x y = decide (y.toNat ≤ x.toNat) := by
  change (!decide (x.toNat < y.toNat)) = _
  rw [← decide_not, decide_eq_decide, not_lt]

/-! ### Registers (R66) -/

/-- A register other than s0 reads as what was written to it. -/
theorem Core.getS_setS_self (k : Core) {n : BitVec 6} (v : DWord) (h : n ≠ 0) : (k.setS n v).getS n = v := by
  rw [getS, if_neg h, setS, if_neg h]
  split
  · next hv => rw [SMap.getD_erase_self, hv]
  · rw [SMap.getD_set_self]

/-! ### Statements that hold -/

/-- Settles O5: each register but the hardwired ones keeps its writes. -/
theorem hardwiredRegisters : Obligations.HardwiredRegisters := by
  unfold Obligations.HardwiredRegisters
  exact fun k v _ _ => ⟨rfl, rfl, rfl, rfl, rfl, k.getS_setS_self v⟩

/-- Settles O3: each instruction rewrites its core by the function that R87 gives it. -/
theorem scalarIntegerResults : Obligations.ScalarIntegerResults := by
  unfold Obligations.ScalarIntegerResults
  refine ⟨fun c w s h himm => ?registers, fun c w s => ⟨fun h hsrc2 => ?immediate, fun h hsrc1 hsrc2 => ?constant,
    fun h hdst hsrc1 hsrc2 himm => ?nop⟩, fun c w s => ⟨fun h hdst himm => ?cmp, fun h hdst hsrc2 => ?cmpi,
    fun h himm => ?sel, fun h hdst hsrc1 hsrc2 himm => ?plg,
    fun x y => ⟨rfl, rfl, rfl, condition_three x y, rfl, condition_five x y⟩, fun x y => ⟨rfl, rfl, rfl, rfl⟩⟩⟩
  case registers =>
    dsimp only
    rw [← mulHigh_eq_ofInt, ← sshiftRight_eq_ofInt, ← ite_slt_eq_ofInt_min, ← ite_slt_eq_ofInt_max]
    exact ⟨completes_alu2 0x01 (· + ·) rfl h himm, completes_alu2 0x02 (· - ·) rfl h himm,
      completes_alu2 0x03 (· * ·) rfl h himm, completes_alu2 0x04 mulHigh rfl h himm,
      completes_alu2 0x05 (· &&& ·) rfl h himm, completes_alu2 0x06 (· ||| ·) rfl h himm,
      completes_alu2 0x07 (· ^^^ ·) rfl h himm, completes_alu2 0x08 (fun a b => a <<< shamt b) rfl h himm,
      completes_alu2 0x09 (fun a b => a >>> shamt b) rfl h himm,
      completes_alu2 0x0A (fun a b => a.sshiftRight (shamt b)) rfl h himm,
      completes_alu2 0x0B (fun a b => if b.slt a then b else a) rfl h himm,
      completes_alu2 0x0C (fun a b => if a.slt b then b else a) rfl h himm⟩
  case immediate =>
    exact ⟨completes_alu1 0x0D (· + simm w) rfl h hsrc2 rfl,
      completes_alu1 0x0E (· &&& w.imm.setWidth 64) rfl h hsrc2 rfl, fun himm =>
      ⟨completes_alu1 0x0F (· <<< w.imm.toNat) rfl h hsrc2 (decide_eq_true himm),
        completes_alu1 0x10 (· >>> w.imm.toNat) rfl h hsrc2 (decide_eq_true himm)⟩⟩
  case constant =>
    refine ⟨completes_of_modCore rfl h (by simp [hsrc1, hsrc2]) (fun k => k.setS w.dst _) rfl, ?_⟩
    rw [← append_low_eq_ofNat]
    exact completes_of_modCore rfl h (by simp [hsrc1, hsrc2]) (fun k => k.setS w.dst _) rfl
  case nop => exact completes_of_unchanged rfl h (by simp [hdst, hsrc1, hsrc2, himm]) rfl
  case cmp => exact completes_of_modCore rfl h (by simp [IWord.isP, hdst, himm]) (fun k => k.setP w.dst.toNat _) rfl
  case cmpi => exact completes_of_modCore rfl h (by simp [IWord.isP, hdst, hsrc2]) (fun k => k.setP w.dst.toNat _) rfl
  case sel => exact completes_of_modCore rfl h (by simp [himm]) (fun k => k.setS w.dst _) rfl
  case plg =>
    exact completes_of_modCore rfl h (by simp [IWord.isP, hdst, hsrc1, hsrc2, himm]) (fun k => k.setP w.dst.toNat _) rfl

/-- Settles O4: each instruction rewrites its core by the function that R87 gives it. -/
theorem scalarFloatResults : Obligations.ScalarFloatResults := by
  unfold Obligations.ScalarFloatResults
  refine fun c w s => ⟨fun h himm => ?two, fun h hsrc2 himm => ?one, rfl, rfl, rfl, rfl⟩
  case two =>
    exact ⟨completes_alu2 0x18 (fun a b => fpRes ((fp a).add (fp b))) rfl h himm,
      completes_alu2 0x19 (fun a b => fpRes ((fp a).sub (fp b))) rfl h himm,
      completes_alu2 0x1A (fun a b => fpRes ((fp a).mul (fp b))) rfl h himm,
      completes_of_modCore rfl h (by simp [himm]) (fun k => k.setS w.dst _) rfl⟩
  case one =>
    exact ⟨completes_alu1 0x1C (fun a => fpRes (.ofInt a.toInt)) rfl h hsrc2 (by simp [himm]),
      completes_alu1 0x1D (fun a => fpToInt (fp a)) rfl h hsrc2 (by simp [himm])⟩

/-- Settles O6: a taken branch goes to the target, and one not taken to the next word. -/
theorem branchTargets : Obligations.BranchTargets := by
  unfold Obligations.BranchTargets
  refine fun c w s => ⟨fun h hdst hsrc1 hsrc2 => ?br, fun h hdst hsrc1 hsrc2 => ?predicate,
    fun h hsrc1 hsrc2 => ⟨?bal, ?dbn⟩, fun h hdst hsrc2 himm hal => ?jr, fun h hsrc2 himm hal => ?jal⟩
  case br => exact completes_of_unchanged_jump rfl h (by simp [hdst, hsrc1, hsrc2]) rfl
  case predicate =>
    have hf : (w.dst == 0 && IWord.isP w.src1 && w.src2 == 0) = true := by simp [IWord.isP, hdst, hsrc1, hsrc2]
    cases hp : ((s.afterFetch c.val none).core c.val).getP w.src1.toNat with
    | true => exact ⟨completes_of_unchanged_jump rfl h hf (by rw [hp]; rfl), completes_of_unchanged rfl h hf (by rw [hp]; rfl)⟩
    | false => exact ⟨completes_of_unchanged rfl h hf (by rw [hp]; rfl), completes_of_unchanged_jump rfl h hf (by rw [hp]; rfl)⟩
  case bal => exact completes_of_modCore_jump rfl h (by simp [hsrc1, hsrc2]) (fun k => k.setS w.dst (link k)) rfl
  case dbn =>
    have hf : (w.src1 == 0 && w.src2 == 0) = true := by simp [hsrc1, hsrc2]
    by_cases hv : ((s.afterFetch c.val none).core c.val).getS w.dst = 1
    · rw [if_pos hv]
      exact completes_of_modCore rfl h hf (fun k => k.setS w.dst (k.getS w.dst - 1)) (if_neg (by simp [hv]))
    · rw [if_neg hv]
      exact completes_of_modCore_jump rfl h hf (fun k => k.setS w.dst (k.getS w.dst - 1))
        (if_pos fun h0 => hv (sub_eq_zero.mp h0))
  case jr => exact completes_of_unchanged_jump rfl h (by simp [hdst, hsrc2, himm]) (if_neg (not_not.mpr hal))
  case jal =>
    exact completes_of_modCore_jump rfl h (by simp [hsrc2, himm]) (fun k => k.setS w.dst (link k)) (if_neg (not_not.mpr hal))

end Sys2Proof.Machine

/-!
PROOFS. The statements of the programming model: the keeper tick (O2), what a fault and the end of a launch do, FLT and
XLT_FCMP (O58), and END (O19).
-/

namespace Sys2Proof.Machine

namespace State

/-! ### The end of a launch without an address read (R77, R420) -/

/-- What the end of a launch does to a core: its descriptors' records, and what it had outstanding. -/
theorem coreAtEnd_eq (k : Core) : ∃ r, coreAtEnd k = { k with
    srec := r, run := .stopped, jobs := k.jobs.filterMap jobAtEnd, loads := [], busy := [], stall := none, wait := none,
    stop := none, bags := [], bagWaits := [], lkWaits := [] } := by
  unfold coreAtEnd
  extract_lets c
  have hrecords : ∃ r, c = { k with srec := r } := by
    refine List.foldlRecOn (motive := fun c : Core => ∃ r, c = { k with srec := r }) k.jobs _ ⟨k.srec, rfl⟩ ?_
    rintro _ ⟨r, rfl⟩ j -
    split
    · unfold endRecord
      split <;> exact ⟨_, rfl⟩
    · exact ⟨r, rfl⟩
  obtain ⟨r, hr⟩ := hrecords
  exact ⟨r, by rw [hr]⟩

variable {s : State} {p : Nat} {code : Code}

/-- Cores of an ending launch stop one after another. -/
def stopCores (l : Nat) (cores : List Nat) (s : State) : State :=
  cores.foldl (fun s q => if (s.core q).launch = some l then (s.modCore q coreAtEnd).leaveRecs q else s) s

/-- What holds of a state and is kept as a core of the launch stops, holds after them all. -/
theorem stopCores_induction {P : State → Prop} {l : Nat} (cores : List Nat) (h : P s)
    (hstop : ∀ (t : State) (q : Nat), P t → P ((t.modCore q coreAtEnd).leaveRecs q)) : P (stopCores l cores s) := by
  refine List.foldlRecOn (motive := P) _ _ h fun t ht q _ => ?_
  split
  · exact hstop t q ht
  · exact ht

/-- A launch as it ends with a code, named for core `p`. -/
def ended (x : Launch) (code : Code) (p : Nat) : Launch := { x with phase := .ending, code := code, unit := p }

/-- The launch of a core, unless it ends already, ends with the code, and its cores stop. -/
theorem endLaunchOf_cases (s : State) (p : Nat) (code : Code) :
    (s.endLaunchOf p code = s ∧ ∀ l x, s.launchOf p = some (l, x) → x.phase = .ending) ∨
    ∃ l x, s.launchOf p = some (l, x) ∧ s.endLaunchOf p code = stopCores l x.cores (s.setLaunch l (ended x code p)) := by
  unfold endLaunchOf endLaunch launchOf
  cases hl : (s.core p).launch with
  | none => exact .inl ⟨rfl, fun _ _ h => nomatch h⟩
  | some l =>
    dsimp only
    cases hx : s.launch l with
    | none => exact .inl ⟨rfl, fun _ _ h => nomatch h⟩
    | some x =>
      by_cases hend : x.phase = .ending ∧ x.code ≠ .ok
      · refine .inl ⟨if_pos hend, fun _ _ h => ?_⟩
        cases h
        exact hend.1
      · exact .inr ⟨l, x, rfl, if_neg hend⟩

/-- The end of a launch changes cores, launches and the waiting streams of fault records. -/
theorem endLaunchOf_frame (s : State) (p : Nat) (code : Code) :
    { s.endLaunchOf p code with cores := s.cores, launches := s.launches, recs := s.recs } = s := by
  rcases endLaunchOf_cases s p code with ⟨h, -⟩ | ⟨l, x, -, h⟩
  · rw [h]
  · rw [h]
    exact stopCores_induction
      (P := fun t => { t with cores := s.cores, launches := s.launches, recs := s.recs } = s) _ rfl fun _ _ ht => ht

/-- What a core keeps as it stops, it keeps at the end of a launch. -/
theorem core_endLaunchOf {P : Core → Prop} {q : Nat} (h : P (s.core q)) (hstop : ∀ k, P k → P (coreAtEnd k)) :
    P ((s.endLaunchOf p code).core q) := by
  rcases endLaunchOf_cases s p code with ⟨hs, -⟩ | ⟨l, x, -, hs⟩
  · rwa [hs]
  · rw [hs]
    refine stopCores_induction (P := fun t => P (t.core q)) _ h fun t r ht => ?_
    change P ((t.modCore r coreAtEnd).core q)
    by_cases hqr : q = r
    · rw [hqr, core_modCore_self]
      exact hstop _ (hqr ▸ ht)
    · rwa [core_modCore_ne _ _ _ _ hqr]

/-- A launch that runs ends with the code of its core. -/
theorem launch_endLaunchOf {l : Nat} {x : Launch} (hl : s.launchOf p = some (l, x)) (hx : x.phase = .running) :
    (s.endLaunchOf p code).launch l = some (ended x code p) := by
  rcases endLaunchOf_cases s p code with ⟨-, h⟩ | ⟨l', x', hl', h⟩
  · exact absurd (hx.symm.trans (h l x hl)) (by decide)
  · cases hl.symm.trans hl'
    rw [h]
    exact stopCores_induction (P := fun t => t.launch l = some (ended x code p)) _ (launch_setLaunch_self ..) fun _ _ ht => ht

/-- A core that rejects an instruction stops with the record of the fault (R77). -/
theorem core_faultCore (s : State) (p cls func : Nat) (pc : BitVec 57) (code : Code) :
    let k := (s.faultCore p cls func pc code).core p
    k.run = .stopped ∧ k.fault = code ∧ k.faultPc = pc := by
  refine core_endLaunchOf (P := fun k => k.run = .stopped ∧ k.fault = code ∧ k.faultPc = pc) ?_ fun k hk => ?_
  · rw [core_modCore_self]
    exact ⟨rfl, rfl, rfl⟩
  · obtain ⟨r, hr⟩ := coreAtEnd_eq k
    rw [hr]
    exact ⟨rfl, hk.2⟩

/-- An update of a core that keeps its launch keeps which launch runs there. -/
theorem launchOf_modCore {f : Core → Core} (h : (f (s.core p)).launch = (s.core p).launch) :
    (s.modCore p f).launchOf p = s.launchOf p := by
  unfold launchOf
  rw [core_modCore_self, h]
  rfl

/-- The launch of a core that rejects an instruction ends with the code (R77). -/
theorem launch_faultCore {cls func : Nat} {pc : BitVec 57} {l : Nat} {x : Launch} (hl : s.launchOf p = some (l, x))
    (hx : x.phase = .running) : (s.faultCore p cls func pc code).launch l = some (ended x code p) :=
  launch_endLaunchOf ((launchOf_modCore rfl).trans hl) hx

/-- A rejected instruction changes cores, launches and the waiting streams of fault records. -/
theorem faultCore_frame (s : State) (p cls func : Nat) (pc : BitVec 57) (code : Code) :
    { s.faultCore p cls func pc code with cores := s.cores, launches := s.launches, recs := s.recs } = s :=
  congrArg (fun t : State => { t with cores := s.cores }) (endLaunchOf_frame (s.modCore p _) p code)

end State

open State

/-! ### XLT_FCMP (R318) -/

/-- A completion that is rejected sets the last-write status alone. -/
theorem xltFcmp_rejected {s : State} {src : Src} {v : Word} (hreach : s.reaches src .xltFcmp = true)
    (hvf : fromVf src = false) (hholds : s.holds src = false) (hv : v.toNat < 2 ^ 20) (hcode : s.fcmpCheck v ≠ .ok) :
    exec (.xltFcmp src v) s = .next (s.recordLast (.xltLast, 0) (s.fcmpCheck v)) := by
  have hres : v.toNat &&& (0xFFFFFFFF ^^^ Reg.known .xltFcmp) = 0 := by
    have hbits : 2 ^ 20 - 1 &&& (0xFFFFFFFF ^^^ Reg.known .xltFcmp) = 0 := by decide
    rw [← Nat.mod_eq_of_lt hv, ← Nat.and_two_pow_sub_one_eq_mod, Nat.and_assoc, hbits, Nat.and_zero]
  have hwrite : writeCode .xltFcmp v (s.fcmpCheck v) = s.fcmpCheck v := if_neg (not_not.mpr hres)
  change Host.Outcome.next (s.busWrite src .xltFcmp 0 v (s.fcmpCheck v) (fcmpEff v)) = _
  rw [busWrite_rejected hreach hvf hholds (by rwa [hwrite]), hwrite]
  rfl

/-- Settles O58: FLT's code is an unassigned field value, and XLT_FCMP's check is on the record and the code. -/
theorem fltAndFaultCompletionRejections : Obligations.FltAndFaultCompletionRejections := by
  unfold Obligations.FltAndFaultCompletionRejections
  refine ⟨fun c w s h himm => ?flt, fun src v s hreach hvf hholds hv => ?fcmp⟩
  case flt =>
    have hf : (w.dst == 0 && w.src1 == 0 && w.src2 == 0 && decide (w.imm.toNat ≠ 0) && decide (w.imm.toNat ≤ 0x13)) = false := by
      have hcode : ¬(w.imm.toNat ≠ 0 ∧ w.imm.toNat ≤ 0x13) := by omega
      rw [Bool.and_assoc, ← Bool.decide_and, decide_eq_false hcode, Bool.and_false]
    obtain ⟨hrun, hfault, hpc⟩ := core_faultCore (s.afterFetch c.val none) c.val 0x3F 0x01
      ((s.afterFetch c.val none).core c.val).pc .badField
    exact ⟨_, issue_badField h hf, hrun, hfault, hpc, fun l x hl hx => ⟨_, launch_faultCore hl hx, rfl, rfl⟩⟩
  case fcmp =>
    have hbyte : v.toNat / 4096 % 256 = v.toNat / 4096 := Nat.mod_eq_of_lt (by omega)
    have hrejected := xltFcmp_rejected hreach hvf hholds hv
    rw [fcmpCheck, hbyte] at hrejected
    dsimp only
    refine ⟨fun hclosed hknown => ?_, fun hopen hunknown => ?_, fun hclosed hunknown => ⟨.range, .inr rfl, ?_⟩,
      fun code r i hr => ?_, fun code => ?_⟩
    · obtain ⟨x, hx⟩ := Option.ne_none_iff_exists'.mp hknown
      rw [hclosed, hx] at hrejected
      exact hrejected nofun
    · obtain ⟨x, hx⟩ := Option.ne_none_iff_exists'.mp hopen
      rw [hunknown, hx] at hrejected
      exact hrejected nofun
    · rw [hunknown, hclosed] at hrejected
      exact hrejected (by decide)
    · obtain ⟨w, hw, -⟩ := recordLast_spec s .xltFcmp 0 code
      exact (congrArg (·.reg r i) hw).trans (reg_setReg_ne _ _ _ _ _ _ hr)
    · obtain ⟨w, hw, hlow⟩ := recordLast_spec s .xltFcmp 0 code
      have hset : s.recordLast (.xltLast, 0) code = s.setReg .xltLast 0 w := hw
      rw [hset]
      exact ⟨by rw [fld, reg_setReg_self, hlow], rfl⟩

/-! ### The keeper tick (R251) -/

/-- Working memory of 648 GiB, and channel 0, whose queues are empty, with a write of its first line that it has not yet taken
in: it came during a reset of the channel. -/
def writeOutside : State :=
  { State.reset.setReg .cisWork 0 648 with
    power := .on
    cisQ := [(0, [⟨State.reset.sliceBytes, some (List.replicate 64 1), []⟩])] }

/-- The tick lets the write in. -/
theorem writeOutside_tick_writes : writeOutside.tick.cis.readN 0 1 = [1] := by decide +kernel

/-- Refutes O2: requests also wait outside the sub-channels (R250). With none inside, the tick takes one in, and a write changes
memory. -/
theorem not_idleStepIsAKeeperTick : ¬ Obligations.IdleStepIsAKeeperTick := by
  unfold Obligations.IdleStepIsAKeeperTick
  intro h
  obtain ⟨t, ht, -, -, -, hon⟩ := h writeOutside rfl
  obtain ⟨-, -, -, -, -, hmem⟩ := hon rfl
  have htick : writeOutside.tick = t := Host.Outcome.next.inj ht
  have hwrite := writeOutside_tick_writes
  rw [htick, (hmem rfl).1] at hwrite
  exact absurd hwrite (by decide)

/-! ### END (R95) -/

/-- A launch on core 0 whose code begins at 256. -/
def endingLaunch : Launch :=
  ⟨1, .running, 0, 0, 0, false, 0, 1, 0, 0, 0, 0, false, 0, 1, 256, 0, 0, 0, [], [], [0], [], .ok, 0xFFF, 0, 1, 0, 0, 0, false, 0,
    false, [], [], [], [], []⟩

/-- Core 0 has an END at 256, which it has tried before, and a VCH outstanding. -/
def endHeld : Core :=
  { Core.reset with
    run := .running
    launch := some 0
    pc := 256
    icache := [4]
    jobs := [newJob 5 0 ⟨0, 0, 0, false, false, 0⟩ 0 [] [] [] []]
    heldBy := [0] }

/-- The table of cores holds core 1 in front of core 0, which no step makes of a table in rising order. -/
def coresOutOfOrder : State := { State.reset with launches := [(0, endingLaunch)], cores := [(1, Core.reset), (0, endHeld)] }

/-- Refutes O19: its clause on an END that is held says that the core is written, and of a table of cores that is not in rising
order the write makes another table. An END that is tried again writes nothing. -/
theorem not_systemInstructionsAndEnd : ¬ Obligations.SystemInstructionsAndEnd := by
  unfold Obligations.SystemInstructionsAndEnd
  rintro ⟨-, hend⟩
  have hissues : Issues coresOutOfOrder 0 ⟨0, 0, 0, false, false, 0⟩ none [] := ⟨rfl, rfl, rfl, rfl, rfl, rfl⟩
  have hheld := (hend 0 ⟨0, 0, 0, false, false, 0⟩ coresOutOfOrder hissues rfl rfl rfl rfl).2 nofun rfl
  have hstays : exec (.endI 0 ⟨0, 0, 0, false, false, 0⟩) coresOutOfOrder = .next coresOutOfOrder := rfl
  have hcores := congrArg State.cores (Host.Outcome.next.inj (hstays.symm.trans hheld))
  exact absurd (congrArg List.length hcores) (by decide)

end Sys2Proof.Machine

/-!
PROOFS. The statements of the programming model: loads and the return of their data (O7).
-/

namespace Sys2Proof.Machine

namespace State

/-! ### What a fetch changes (R88, R310, R312) -/

/-- A walk changes the walk caches. -/
theorem walk_snd (s : State) (st : Stream) (ctx va : Nat) (write : Bool) :
    ∃ x, (s.walk st ctx va write).2 = { s with wcache := x } := ⟨_, rfl⟩

/-- A translation by a walk, which fills the TLB, changes the cores and the walk caches. -/
theorem xlateNow_frame (s : State) (p ctx va : Nat) (write : Bool) :
    { (s.xlateNow p ctx va write).2 with cores := s.cores, wcache := s.wcache } = s := by
  have hwalk : { (match s.walk (.core p) ctx va write with
      | (.leaf l, s) => (Except.ok l, s.tlbInstall p ctx va l)
      | (.poisoned, s) => (.error Code.poison, s)
      | (.fault _, s) => (.error .notMapped, s)).2 with cores := s.cores, wcache := s.wcache } = s := by
    obtain ⟨x, hx⟩ := walk_snd s (.core p) ctx va write
    split
    all_goals
      next heq =>
        cases (congrArg Prod.snd heq).symm.trans hx
        rfl
  unfold xlateNow
  split
  · rfl
  · split
    · split
      · exact hwalk
      · rfl
    · exact hwalk

/-- A fetch changes the cores, the walk caches and a counter. -/
theorem fetchLine_frame (s : State) (p ctx va : Nat) :
    { (s.fetchLine p ctx va).2 with cores := s.cores, wcache := s.wcache, regs := s.regs } = s := by
  have hframe := congrArg (fun t : State => { t with regs := s.regs }) (xlateNow_frame s p ctx va false)
  unfold fetchLine
  split
  · rfl
  · split
    · next heq => rwa [heq] at hframe
    · next heq =>
      rw [heq] at hframe
      dsimp only
      repeat' split
      all_goals exact hframe

theorem fetchWord_frame (s : State) (p pc : Nat) :
    { (s.fetchWord p pc).2 with cores := s.cores, wcache := s.wcache, regs := s.regs } = s := by
  unfold fetchWord
  split
  · rfl
  · split
    · rfl
    · exact fetchLine_frame ..

theorem afterFetch_frame (s : State) (p : Nat) (w2 : Option DWord) :
    { s.afterFetch p w2 with cores := s.cores, wcache := s.wcache, regs := s.regs } = s := by
  have h := fetchWord_frame s p (s.core p).pc.toNat
  unfold afterFetch fetch
  split
  · next s1 heq =>
    rw [heq] at h
    split
    · exact (congrArg (fun t : State => { t with cores := s.cores, wcache := s.wcache, regs := s.regs })
        (fetchWord_frame s1 p _)).trans h
    · exact h
  · exact h

theorem cis_afterFetch (s : State) (p : Nat) (w2 : Option DWord) : (s.afterFetch p w2).cis = s.cis :=
  (congrArg State.cis (afterFetch_frame s p w2) :)

theorem pads_afterFetch (s : State) (p : Nat) (w2 : Option DWord) : (s.afterFetch p w2).pads = s.pads :=
  (congrArg State.pads (afterFetch_frame s p w2) :)

/-! ### Accesses that the TLB answers (R310) -/

/-- The TLB after a hit is the only thing that differs. -/
theorem core_afterTlb (s : State) (p va : Nat) : ∃ l, (s.afterTlb p va).core p = { s.core p with tlb := l } :=
  ⟨_, core_modCore_self ..⟩

theorem modCore_afterTlb (s : State) (p va : Nat) (f : Core → Core) :
    (s.afterTlb p va).modCore p f = s.setCore p (f ((s.afterTlb p va).core p)) := setCore_setCore ..

/-- An access that its TLB maps to working memory goes on there. -/
theorem withLeaf_of_local {s : State} {p va n a : Nat} {write : Bool} (h : Local s p va n write a) (cls func : Nat) (w : IWord)
    (k : State → Place → Res) : s.withLeaf p cls func w va write k = k (s.afterTlb p va) (.cis a) := by
  obtain ⟨l, hl, hwr, hplace⟩ := h.hit
  have hwrite : (write && !l.wr) = false := by
    cases write with
    | false => rfl
    | true => simp [hwr rfl]
  unfold withLeaf
  simp only [h.on, hl, hwrite, hplace, Bool.not_true, Bool.false_eq_true, if_false]
  rfl

/-- The context of a core may touch after a TLB hit what it could before. -/
theorem mayTouch_afterTlb {s : State} {p va n a : Nat} {write : Bool} (h : Local s p va n write a) :
    (s.afterTlb p va).mayTouch ((s.afterTlb p va).core p).ctx a n = true := by
  obtain ⟨l, hl⟩ := core_afterTlb s p va
  rw [hl]
  exact h.may

/-! ### Loads (R89, R286, R292) -/

section Load

variable {s : State} {p va n a : Nat} (hlocal : Local s p va n false a)
  (hperf : (s.afterTlb p va).loadUnperformed p = false)

include hlocal hperf

/-- A load that the data cache holds. -/
theorem load_of_hit {bs : List Byte} (hhit : (s.afterTlb p va).dcacheHit p a n = some bs) (cls func : Nat) (w : IWord)
    (kind : LoadKind) (reg : List RegRef) :
    s.load p cls func w kind reg n va = .ok ((s.afterTlb p va).modCore p fun k => loadReg k kind bs) := by
  unfold load
  rw [withLeaf_of_local hlocal]
  simp only [hperf, storeOpen, mayTouch_afterTlb hlocal, hhit, Bool.or_self, Bool.not_true, Bool.false_eq_true, if_false]

/-- A load of local cistern that misses the data cache. -/
theorem load_of_miss (hmiss : (s.afterTlb p va).dcacheHit p a n = none) (hgood : (s.afterTlb p va).cisBad a n = false)
    (cls func : Nat) (w : IWord) (kind : LoadKind) (reg : List RegRef) :
    s.load p cls func w kind reg n va = .ok ((s.afterTlb p va).pend p cls func kind reg
      (some ((s.afterTlb p va).cisRead a n).1) none
      (some (va / 64 * 64, a / 64 * 64, ((s.afterTlb p va).cisRead (a / 64 * 64) 64).1)) va) := by
  unfold load
  rw [withLeaf_of_local hlocal]
  simp only [hperf, storeOpen, mayTouch_afterTlb hlocal, hmiss, cisRead, hgood, Bool.or_self, Bool.not_true,
    Bool.false_eq_true, if_false]

end Load

end State

open State

/-- The load of a function of class 0x02, past its alignment check. -/
theorem memBody_load {s : State} {p func : Nat} {w : IWord} (hfunc : func < 8)
    (hal : devAddr (s.core p) w % 2 ^ (func % 4) = 0) : memBody 0x02 func w p s =
      s.load p 0x02 func w (.scalar w.dst.toNat (2 ^ (func % 4)) (decide (4 ≤ func))) [.s w.dst.toNat] (2 ^ (func % 4))
        (devAddr (s.core p) w) := by
  simp only [memBody, hfunc, hal, if_true, if_neg (show ¬(0x02 : Nat) = 0x03 by decide), ne_eq, not_true, if_false]

/-- The load of a descriptor register, past its alignment check. -/
theorem memBody_loadDesc {s : State} {p : Nat} {w : IWord} (hal : devAddr (s.core p) w % 32 = 0) :
    memBody 0x03 0x00 w p s =
      s.load p 0x03 0x00 w (.desc w.dst.toNat) [.t w.dst.toNat] 32 (devAddr (s.core p) w) := by
  simp only [memBody, hal, if_true, ne_eq, not_true, if_false]

section LoadCompletes

variable {s : State} {c : CoreId} {w : IWord} {i : Instr} {cls func : Nat} {fields : Bool} {regs : List RegRef} {a : Nat}
  {body : State → Res} {va : Nat}

/-- An operation that rewrites its core after a hit of its TLB completes. -/
theorem completes_of_afterTlb (f : Core → Core) (hi : exec i s = issue cls func w none fields regs c.val body s)
    (h : Issues s c.val w none regs) (hf : fields = true)
    (hbody : body (s.afterFetch c.val none) = .ok (((s.afterFetch c.val none).afterTlb c.val va).modCore c.val f)) :
    let k := ((s.afterFetch c.val none).afterTlb c.val va).core c.val
    Completes i s c.val none (f k) (k.pc + 8) := by
  obtain ⟨l, hl⟩ := core_afterTlb (s.afterFetch c.val none) c.val va
  dsimp only
  rw [hl]
  exact completes_of_ok (by rw [hi, issue_runs h hf, hbody, modCore_afterTlb, hl])

/-- A scalar load that the data cache holds. -/
theorem completes_load_of_hit {bs : List Byte} (func : Nat) (hfunc : func < 8) (hi : exec i s = loadInstr func c w s)
    (h : Issues s c.val w none (sRegs [w.dst, w.src1])) (hsrc2 : w.src2 = 0) :
    let s1 := s.afterFetch c.val none
    let va := devAddr (s1.core c.val) w
    let k := (s1.afterTlb c.val va).core c.val
    let n := 2 ^ (func % 4)
    va % n = 0 → Local s1 c.val va n false a → (s1.afterTlb c.val va).loadUnperformed c.val = false →
      (s1.afterTlb c.val va).dcacheHit c.val a n = some bs →
      Completes i s c.val none (k.setS w.dst (extend bs (decide (4 ≤ func)))) (k.pc + 8) := by
  intro s1 va k n hal hlocal hperf hhit
  refine completes_of_afterTlb (fun k => k.setS w.dst _) hi h (by simp [hsrc2]) ?_
  rw [memBody_load hfunc hal, load_of_hit hlocal hperf hhit]
  simp only [loadReg, BitVec.ofNat_toNat, BitVec.setWidth_eq]
  rfl

/-- A scalar load that misses the data cache. -/
theorem completes_load_of_miss (func : Nat) (hfunc : func < 8) (hi : exec i s = loadInstr func c w s)
    (h : Issues s c.val w none (sRegs [w.dst, w.src1])) (hsrc2 : w.src2 = 0) :
    let s1 := s.afterFetch c.val none
    let va := devAddr (s1.core c.val) w
    let s2 := s1.afterTlb c.val va
    let k := s2.core c.val
    let n := 2 ^ (func % 4)
    va % n = 0 → Local s1 c.val va n false a → s2.loadUnperformed c.val = false → s2.dcacheHit c.val a n = none →
      s2.cisBad a n = false →
      Completes i s c.val none { k with
        busy := .s w.dst.toNat :: k.busy
        loads := k.loads ++ [⟨.scalar w.dst.toNat n (decide (4 ≤ func)), k.pc, 0x02, func, some (s2.cisRead a n).1, false, none,
          some (va / 64 * 64, a / 64 * 64, (s2.cisRead (a / 64 * 64) 64).1), k.ctx, s2.epoch k.ctx, va⟩] } (k.pc + 8) := by
  intro s1 va s2 k n hal hlocal hperf hmiss hgood
  refine completes_of_afterTlb (fun k => { k with busy := _, loads := _ }) hi h (by simp [hsrc2]) ?_
  rw [memBody_load hfunc hal, load_of_miss hlocal hperf hmiss hgood]
  rfl

end LoadCompletes

/-! ### Returns (R81, R292, R418) -/

section Return

variable {s : State} {c : CoreId} {l : PendLoad}
  (hl : ((s.core c.val).loads.find? fun l => l.data.isSome || (l.kind.isSlot && l.tag.isNone)) = some l)

include hl

/-- The resolution of a parameter slot goes on. -/
theorem loadDataReturn_slot (hslot : l.kind.isSlot = true) : exec (.loadDataReturn c) s =
    .next (slotMore (s.modCore c.val fun k => { k with loads := k.loads.erase l }) c.val l) := by
  change execLoadDataReturn c s = _
  unfold execLoadDataReturn
  rw [hl]
  dsimp only
  split
  · rfl
  · next hkind =>
    cases hk : l.kind
    case slot => exact (hkind _ _ _ _ _ _ hk).elim
    all_goals
      rw [hk] at hslot
      cases hslot

/-- A load other than of a slot gives its register, or ends its launch. -/
theorem loadDataReturn_load (hslot : l.kind.isSlot = false) : exec (.loadDataReturn c) s =
    let t := s.modCore c.val fun k => { k with loads := k.loads.erase l }
    .next (if l.poison then t.faultCore c.val l.cls l.func l.pc .poison (some l.va)
      else t.modCore c.val fun k => loadDone k l (l.data.getD [])) := by
  change execLoadDataReturn c s = _
  unfold execLoadDataReturn
  rw [hl]
  dsimp only
  split
  · next hkind =>
    rw [hkind] at hslot
    cases hslot
  · split <;> rfl

/-- Good data of a load other than of a slot reaches its register. -/
theorem loadDataReturn_good {bs : List Byte} (hslot : l.kind.isSlot = false) (hgood : l.poison = false)
    (hbs : l.data = some bs) : exec (.loadDataReturn c) s = .next (s.setCore c.val
      (loadDone { s.core c.val with loads := (s.core c.val).loads.erase l } l bs)) := by
  rw [loadDataReturn_load hl hslot, hgood, hbs]
  simp only [modCore, core_setCore_self, setCore_setCore, Bool.false_eq_true, if_false, Option.getD_some]

end Return

/-- Settles O7: a hit rewrites its core, a miss leaves a pending load, and a return gives it its register. -/
theorem loadsReadAndReturn : Obligations.LoadsReadAndReturn := by
  unfold Obligations.LoadsReadAndReturn
  refine ⟨fun c w s a bs => ⟨fun h hsrc2 => ?hit, fun h hsrc2 hdst hal hlocal hperf hhit => ?hitDesc⟩,
    fun c w s a => ⟨fun h hsrc2 => ?miss, fun h hsrc2 hdst hal hlocal hperf hmiss hgood => ?missDesc⟩,
    fun c s l hl => ⟨fun bs hbs hgood => ⟨fun d n sg hkind => ?scalar, fun d hkind => ?desc⟩,
      fun hslot hbad => ?poison, fun hslot => loadDataReturn_slot hl hslot⟩⟩
  case hit =>
    exact ⟨completes_load_of_hit 0 (by decide) rfl h hsrc2, completes_load_of_hit 1 (by decide) rfl h hsrc2,
      completes_load_of_hit 2 (by decide) rfl h hsrc2, completes_load_of_hit 3 (by decide) rfl h hsrc2,
      completes_load_of_hit 4 (by decide) rfl h hsrc2, completes_load_of_hit 5 (by decide) rfl h hsrc2,
      completes_load_of_hit 6 (by decide) rfl h hsrc2⟩
  case miss =>
    exact ⟨completes_load_of_miss 0 (by decide) rfl h hsrc2, completes_load_of_miss 1 (by decide) rfl h hsrc2,
      completes_load_of_miss 2 (by decide) rfl h hsrc2, completes_load_of_miss 3 (by decide) rfl h hsrc2,
      completes_load_of_miss 4 (by decide) rfl h hsrc2, completes_load_of_miss 5 (by decide) rfl h hsrc2,
      completes_load_of_miss 6 (by decide) rfl h hsrc2⟩
  case hitDesc =>
    refine completes_of_afterTlb (fun k => k.setT w.dst.toNat _) rfl h (by simp [IWord.isT, hsrc2, hdst]) ?_
    rw [memBody_loadDesc hal, load_of_hit hlocal hperf hhit]
    rfl
  case missDesc =>
    refine completes_of_afterTlb (fun k => { k with busy := _, loads := _ }) rfl h (by simp [IWord.isT, hsrc2, hdst]) ?_
    rw [memBody_loadDesc hal, load_of_miss hlocal hperf hmiss hgood]
    rfl
  case scalar =>
    rw [loadDataReturn_good hl (by rw [hkind]; rfl) hgood hbs, loadDone, hkind]
    cases l.fill <;> rfl
  case desc =>
    rw [loadDataReturn_good hl (by rw [hkind]; rfl) hgood hbs, loadDone, hkind]
    cases l.fill <;> rfl
  case poison =>
    rw [loadDataReturn_load hl hslot, hbad]
    rfl
end Sys2Proof.Machine

/-!
PROOFS. The statements of the programming model: stores and atomics (O8).
-/

namespace Sys2Proof.Machine

theorem length_leBytes (n v : Nat) : (leBytes n v).length = n := by
  induction n generalizing v with
  | zero => rfl
  | succ n ih => rw [leBytes, List.length_cons, ih]

namespace State

/-! ### Short writes (R417) -/

/-- A write of fewer than 64 bytes covers no line whole, and clears no poison. -/
theorem clearGranules_short (set : List Nat) {a n : Nat} (h : n < 64) : clearGranules set a n false = set := by
  refine List.foldlRecOn (motive := fun acc => acc = set) _ _ rfl fun acc hacc g _ => ?_
  rw [if_neg Bool.false_ne_true, if_neg (by omega), hacc]

/-- A short write to working memory changes its bytes and keys alone. -/
theorem cisWrite_frame (s : State) {a : Nat} {bs : List Byte} (hbs : bs.length < 64) (hw : s.cis.wf = true) :
    { s.cisWrite a bs with cis := s.cis, cisKey := s.cisKey } = s := by
  obtain ⟨-, -, -, -, -, hkeyed⟩ := rekey_spec (s.keyAt a) (granules a bs.length) s hw
  have hpoison : clearGranules (s.rekey (s.keyAt a) (granules a bs.length)).cisPoison a bs.length false = s.cisPoison :=
    (clearGranules_short _ hbs).trans (congrArg State.cisPoison hkeyed :)
  unfold cisWrite
  dsimp only
  rw [hpoison]
  exact (congrArg (fun t : State => { t with cisPoison := s.cisPoison }) hkeyed :)

theorem core_congr {s t : State} (h : t.cores = s.cores) (q : Nat) : t.core q = s.core q := by rw [core, h, core]

theorem core_cisWrite (s : State) {a : Nat} {bs : List Byte} (hbs : bs.length < 64) (hw : s.cis.wf = true) (q : Nat) :
    (s.cisWrite a bs).core q = s.core q :=
  core_congr (congrArg State.cores (cisWrite_frame s hbs hw) :) q

/-- A short write to a scratchpad changes its bytes alone. -/
theorem padWrite_short (s : State) (p : Nat) {a : Nat} {bs : List Byte} (hbs : bs.length < 64) :
    s.padWrite p a bs = s.setPad p ((s.pad p).writeL a bs) := by
  unfold padWrite
  exact if_pos (clearGranules_short _ hbs)

/-! ### Stores and atomics (R89, R90, R292) -/

/-- A store to local cistern that its TLB maps. -/
theorem storeDev_of_local {s : State} {p va n a : Nat} {bs : List Byte} (hn : bs.length = n) (hlocal : Local s p va n true a)
    (cls func : Nat) (w : IWord) : s.storeDev p cls func w va bs =
      .ok (((s.afterTlb p va).cisWrite a bs).modCore p fun k => dcacheStore k a bs) := by
  subst hn
  unfold storeDev
  rw [withLeaf_of_local hlocal]
  simp only [storeOpen, mayTouch_afterTlb hlocal, Bool.not_true, Bool.false_eq_true, if_false]

/-- A core whose atomic is made: the line that it held is gone, and the old value is to come. -/
def atomicDone (s : State) (a func va : Nat) (w : IWord) (k : Core) : Core :=
  let d := dcacheDrop k a
  { d with
    busy := .s w.dst.toNat :: d.busy
    loads := d.loads ++ [⟨.scalar w.dst.toNat 8 false, k.pc, 0x02, func, some (s.cisRead a 8).1, false, none, none, k.ctx,
      s.epoch k.ctx, va⟩] }

theorem modCore_modCore (s : State) (p : Nat) (f g : Core → Core) :
    (s.modCore p f).modCore p g = s.modCore p fun k => g (f k) := by
  simp only [modCore, core_setCore_self, setCore_setCore]

/-- The line leaves and the old value is read, in a state of the same epochs as the one that held it. -/
theorem pend_dcacheDrop {s t : State} {p a func va : Nat} {w : IWord} (hepoch : ∀ ctx, t.epoch ctx = s.epoch ctx) :
    (t.modCore p fun k => dcacheDrop k a).pend p 0x02 func (.scalar w.dst.toNat 8 false) [.s w.dst.toNat]
      (some (s.cisRead a 8).1) none none va = t.modCore p (atomicDone s a func va w) := by
  have hmod : ∀ ctx, (t.modCore p fun k => dcacheDrop k a).epoch ctx = s.epoch ctx := hepoch
  unfold pend
  simp only [hmod]
  exact modCore_modCore ..

theorem epoch_cisWrite (s : State) {a : Nat} {bs : List Byte} (hbs : bs.length < 64) (hw : s.cis.wf = true) (ctx : Nat) :
    (s.cisWrite a bs).epoch ctx = s.epoch ctx := by
  have hregs : (s.cisWrite a bs).regs = s.regs := (congrArg State.regs (cisWrite_frame s hbs hw) :)
  unfold epoch reg
  rw [hregs]

/-- An atomic on local cistern that its TLB maps. -/
theorem atomic_of_local {s : State} {p va a : Nat} (hcis : s.cis.wf = true) (hlocal : Local s p va 8 true a)
    (hperf : (s.afterTlb p va).loadUnperformed p = false) (hgood : (s.afterTlb p va).cisBad a 8 = false)
    (func : Nat) (w : IWord) (f : DWord → DWord) : s.atomic p 0x02 func w va f =
      .ok (((s.afterTlb p va).cisWrite a (leBytes 8 (f ((s.afterTlb p va).word64 a)).toNat)).modCore p
        (atomicDone (s.afterTlb p va) a func va w)) := by
  unfold atomic
  rw [withLeaf_of_local hlocal]
  simp only [hperf, mayTouch_afterTlb hlocal, cisRead, hgood, Bool.not_true, Bool.false_eq_true, if_false]
  refine congrArg Res.ok (pend_dcacheDrop (epoch_cisWrite _ ?_ hcis))
  rw [lowBytes, length_leBytes]
  decide

end State

open State

/-- The registers are the same after a hit of the TLB. -/
theorem getS_afterTlb (s : State) (p : Nat) {va : Nat} (n : BitVec 6) :
    ((s.afterTlb p va).core p).getS n = (s.core p).getS n := by
  obtain ⟨l, hl⟩ := core_afterTlb s p va
  rw [hl]
  rfl

theorem getT_afterTlb (s : State) (p : Nat) {va : Nat} (n : Nat) : ((s.afterTlb p va).core p).getT n = (s.core p).getT n := by
  obtain ⟨l, hl⟩ := core_afterTlb s p va
  rw [hl]
  rfl

/-- The store of a function of class 0x02, past its alignment check. -/
theorem memBody_store {s : State} {p func : Nat} {w : IWord} (hfunc : 8 ≤ func ∧ func < 16)
    (hal : devAddr (s.core p) w % 2 ^ (func % 4) = 0) : memBody 0x02 func w p s =
      s.storeDev p 0x02 func w (devAddr (s.core p) w) (leBytes (2 ^ (func % 4)) ((s.core p).getS w.src2).toNat) := by
  simp only [memBody, if_neg (show ¬(0x02 : Nat) = 0x03 by decide), if_neg (show ¬func < 8 by omega), hfunc.2, hal, ne_eq,
    not_true, if_true, if_false, lowBytes]

/-- The store of a descriptor register, past its alignment check. -/
theorem memBody_storeDesc {s : State} {p : Nat} {w : IWord} (hal : devAddr (s.core p) w % 32 = 0) :
    memBody 0x03 0x02 w p s =
      s.storeDev p 0x03 0x02 w (devAddr (s.core p) w) (leBytes 32 ((s.core p).getT w.src2.toNat).toNat) := by
  simp only [memBody, hal, if_true, ne_eq, not_true, if_false, if_neg (show ¬(0x02 : Nat) = 0x00 by decide)]

/-- What an atomic of a function makes of the old value, of s(DST) and of s(SRC2) (R90). -/
def atomicFn (func : Nat) (d b old : DWord) : DWord :=
  if func = 0x20 then old + b else if func = 0x21 then (if old = d then b else old) else b

/-- The atomic of a function of class 0x02, past its alignment check. -/
theorem memBody_atomic {s : State} {p func : Nat} {w : IWord} (hfunc : 16 ≤ func) (hal : devAddr (s.core p) w % 8 = 0) :
    memBody 0x02 func w p s = s.atomic p 0x02 func w (devAddr (s.core p) w)
      (atomicFn func ((s.core p).getS w.dst) ((s.core p).getS w.src2)) := by
  simp only [memBody, if_neg (show ¬(0x02 : Nat) = 0x03 by decide), if_neg (show ¬func < 8 by omega),
    if_neg (show ¬func < 16 by omega), hal, ne_eq, not_true, if_false]
  rfl

section Store

variable {s : State} {c : CoreId} {w : IWord} {i : Instr} {cls func : Nat} {fields : Bool} {regs : List RegRef}
  {body : State → Res} {a va : Nat} {bs : List Byte} {f : Core → Core}

/-- An operation that writes working memory and rewrites its core, after a hit of its TLB, completes. -/
theorem completesStore_of_cisWrite (hcis : s.cis.wf = true)
    (hi : exec i s = issue cls func w none fields regs c.val body s) (h : Issues s c.val w none regs) (hf : fields = true)
    (hbs : bs.length < 64)
    (hbody : body (s.afterFetch c.val none) =
      .ok ((((s.afterFetch c.val none).afterTlb c.val va).cisWrite a bs).modCore c.val f)) :
    let k := ((s.afterFetch c.val none).afterTlb c.val va).core c.val
    CompletesStore i s c.val (f k) (k.pc + 8) a bs := by
  intro k
  have hwf : ((s.afterFetch c.val none).afterTlb c.val va).cis.wf = true := (congrArg Mem.wf (cis_afterFetch ..)).trans hcis
  have hcore := core_cisWrite ((s.afterFetch c.val none).afterTlb c.val va) (a := a) hbs hwf
  refine ⟨_, by rw [hi, issue_runs h hf, hbody], ?_, fun q hq => ?_, ?_, ?_⟩
  · obtain ⟨l, hl⟩ := core_afterTlb (s.afterFetch c.val none) c.val va
    simp only [finish, retire, core_modCore_self, hcore, k, hl]
    rfl
  · exact ((core_modCore_ne _ _ _ _ hq).trans (core_modCore_ne _ _ _ _ hq)).trans
      ((hcore q).trans (core_modCore_ne _ _ _ _ hq))
  · exact (cisWrite_stored ((s.afterFetch c.val none).afterTlb c.val va) a bs false hwf).2
  · exact (congrArg (fun t : State => { t with cores := (s.afterFetch c.val none).cores })
      (cisWrite_frame ((s.afterFetch c.val none).afterTlb c.val va) (a := a) hbs hwf) :)

/-- A store of a function of class 0x02. -/
theorem completesStore_store (func : Nat) (hfunc : 8 ≤ func ∧ func < 16) (hcis : s.cis.wf = true)
    (hi : exec i s = storeInstr func c w s) (h : Issues s c.val w none (sRegs [w.src1, w.src2])) (hdst : w.dst = 0) :
    let s1 := s.afterFetch c.val none
    let va := devAddr (s1.core c.val) w
    let k := (s1.afterTlb c.val va).core c.val
    let bs := leBytes (2 ^ (func % 4)) (k.getS w.src2).toNat
    va % bs.length = 0 → Local s1 c.val va bs.length true a →
      CompletesStore i s c.val (dcacheStore k a bs) (k.pc + 8) a bs := by
  intro s1 va k bs hal hlocal
  have hlen : bs.length = 2 ^ (func % 4) := length_leBytes ..
  have hshort : 2 ^ (func % 4) ≤ 2 ^ 3 := Nat.pow_le_pow_right (by decide) (by omega)
  refine completesStore_of_cisWrite hcis hi h (by simp [hdst]) (by omega) (f := fun k => dcacheStore k a bs) ?_
  rw [memBody_store hfunc (hlen ▸ hal), ← getS_afterTlb (va := va)]
  exact storeDev_of_local rfl hlocal 0x02 func w

/-- An atomic of a function of class 0x02. -/
theorem completesStore_atomic (func : Nat) (hfunc : 16 ≤ func) (hcis : s.cis.wf = true)
    (hi : exec i s = atomicInstr func c w s) (h : Issues s c.val w none (sRegs [w.dst, w.src1, w.src2])) :
    let s1 := s.afterFetch c.val none
    let va := devAddr (s1.core c.val) w
    let s2 := s1.afterTlb c.val va
    let k := s2.core c.val
    va % 8 = 0 → Local s1 c.val va 8 true a → s2.loadUnperformed c.val = false → s2.cisBad a 8 = false →
      CompletesStore i s c.val (atomicDone s2 a func va w k) (k.pc + 8) a
        (leBytes 8 (atomicFn func (k.getS w.dst) (k.getS w.src2) (s2.word64 a)).toNat) := by
  intro s1 va s2 k hal hlocal hperf hgood
  refine completesStore_of_cisWrite hcis hi h rfl (by rw [length_leBytes]; decide) (f := atomicDone s2 a func va w) ?_
  rw [memBody_atomic hfunc hal, ← getS_afterTlb s1 c.val (va := va) w.dst, ← getS_afterTlb s1 c.val (va := va) w.src2]
  exact atomic_of_local ((congrArg Mem.wf (cis_afterFetch ..)).trans hcis) hlocal hperf hgood func w _

end Store

/-- Settles O8: a store and an atomic write their bytes at the place that the TLB gives, and rewrite their core. -/
theorem storesAndAtomics : Obligations.StoresAndAtomics := by
  unfold Obligations.StoresAndAtomics
  refine ⟨fun c w s a hcis => ⟨fun h hdst => ?stores, fun h hdst hsrc2 hal hlocal => ?desc⟩,
    fun c w s a hcis h hal hlocal hperf hgood => ?atomics⟩
  case stores =>
    exact ⟨completesStore_store 8 (by decide) hcis rfl h hdst, completesStore_store 9 (by decide) hcis rfl h hdst,
      completesStore_store 10 (by decide) hcis rfl h hdst, completesStore_store 11 (by decide) hcis rfl h hdst⟩
  case desc =>
    rw [length_leBytes] at hal
    refine completesStore_of_cisWrite hcis rfl h (by simp [IWord.isT, hdst, hsrc2]) (by rw [length_leBytes]; decide)
      (f := fun k => dcacheStore k a _) ?_
    rw [memBody_storeDesc hal, ← getT_afterTlb]
    exact storeDev_of_local rfl hlocal 0x03 0x02 w
  case atomics =>
    exact ⟨completesStore_atomic 0x20 (by decide) hcis rfl h hal hlocal hperf hgood,
      completesStore_atomic 0x21 (by decide) hcis rfl h hal hlocal hperf hgood,
      completesStore_atomic 0x22 (by decide) hcis rfl h hal hlocal hperf hgood⟩

end Sys2Proof.Machine

/-!
PROOFS. The statements of the programming model: the scratchpad (O9) and the cache instructions (O11).
-/

namespace Sys2Proof.Machine

open State

/-! ### Scratchpad loads (R287, R418) -/

section PadLoad

variable {s : State} {c : CoreId} {w : IWord} {i : Instr} {cls func n : Nat} {fields : Bool} {regs : List RegRef}

/-- An aligned load of good bytes, for which nothing is to be waited, takes them. -/
theorem padLoad_eq {s : State} {p a n : Nat} (put : Core → List Byte → Core) (hal : a % n = 0) (hin : a + n ≤ 2 ^ 20)
    (hfree : s.padReadWaits p a n = []) (hgood : (s.padRead p a n).2 = false) :
    padLoad p a n put s = .ok (s.modCore p fun k => put k ((s.pad p).readN a n)) := by
  simp only [padLoad, hal, not_lt.mpr hin, hfree, hgood, ne_eq, not_true, if_false, List.isEmpty_nil, Bool.not_true,
    Bool.false_eq_true]
  rfl

/-- A scratchpad load of a size completes. -/
theorem completes_padLoad (put : Core → List Byte → Core)
    (hi : exec i s = issue cls func w none fields regs c.val (fun s => padLoad c.val (padAddr (s.core c.val) w) n put s) s)
    (h : Issues s c.val w none regs) (hf : fields = true) :
    let s1 := s.afterFetch c.val none
    let k := s1.core c.val
    let a := padAddr k w
    a % n = 0 ∧ a + n ≤ 2 ^ 20 ∧ s1.padReadWaits c.val a n = [] ∧ (s1.padRead c.val a n).2 = false →
      Completes i s c.val none (put k ((s1.pad c.val).readN a n)) (k.pc + 8) := by
  rintro s1 k a ⟨hal, hin, hfree, hgood⟩
  exact completes_of_modCore hi h hf (fun k => put k _) (padLoad_eq put hal hin hfree hgood)

theorem extend_unsigned (bs : List Byte) : extend bs false = BitVec.ofNat 64 (leNat bs) := by simp [extend]

end PadLoad

/-! ### Scratchpad stores (R287) -/

/-- What a table gives for a key stands in it. -/
theorem SMap.mem_of_get? {α : Type} {m : SMap α} {i : Nat} {x : α} (h : SMap.get? m i = some x) : (i, x) ∈ m := by
  induction m with
  | nil => cases h
  | cons kv m ih =>
    obtain ⟨k, v⟩ := kv
    rw [SMap.get?] at h
    split at h
    · next hk =>
      cases h
      exact hk ▸ List.mem_cons_self
    · exact List.mem_cons_of_mem _ (ih h)

/-- The scratchpads of a state whose memories are in canonical form. -/
theorem wf_pad {s : State} (h : s.memWf = true) (p : Nat) : (s.pad p).wf = true := by
  simp only [memWf, Bool.and_eq_true, List.all_eq_true] at h
  obtain ⟨-, hpads⟩ := h
  unfold pad SMap.getD
  cases hp : s.pads.get? p with
  | none => rfl
  | some m => exact hpads (p, m) (SMap.mem_of_get? hp)

theorem modCore_setPad_frame (s : State) (p q : Nat) (m : Mem) (f : Core → Core) :
    { (s.setPad p m).modCore q f with cores := s.cores, pads := s.pads } = s := rfl

section PadStore

variable {s : State} {c : CoreId} {w : IWord} {i : Instr} {cls func a : Nat} {fields : Bool} {regs : List RegRef}
  {body : State → Res} {bs : List Byte}

/-- An aligned short store, for which nothing is to be waited, completes. -/
theorem completesPadStore_of_padStore (hmem : s.memWf = true)
    (hi : exec i s = issue cls func w none fields regs c.val body s) (h : Issues s c.val w none regs) (hf : fields = true)
    (hbs : bs.length < 64) (hbody : body (s.afterFetch c.val none) = padStore c.val a bs (s.afterFetch c.val none)) :
    let s1 := s.afterFetch c.val none
    let k := s1.core c.val
    a % bs.length = 0 → a + bs.length ≤ 2 ^ 20 → s1.padWriteWaits c.val a bs.length = [] →
      CompletesPadStore i s c.val k (k.pc + 8) a bs := by
  intro s1 k hal hin hfree
  have hstore : padStore c.val a bs s1 = .ok (s1.setPad c.val ((s1.pad c.val).writeL a bs)) := by
    rw [← padWrite_short s1 c.val hbs]
    simp only [padStore, hal, not_lt.mpr hin, hfree, ne_eq, not_true, if_false, List.isEmpty_nil, Bool.not_true,
      Bool.false_eq_true]
  have hwf : (s1.pad c.val).wf = true := by
    rw [pad, pads_afterFetch]
    exact wf_pad hmem c.val
  refine ⟨(s1.setPad c.val ((s1.pad c.val).writeL a bs)).retire c.val (k.pc + 8), ?_, core_modCore_self ..,
    fun q hq => core_modCore_ne _ _ _ _ hq, fun i hlt => ?_, fun x hx => ?_, fun q hq => pad_setPad_ne _ _ _ _ hq,
    modCore_setPad_frame ..⟩
  · rw [hi, issue_runs h hf, hbody, hstore]
    rfl
  · exact (congrArg (·.read (a + i)) (pad_setPad_self s1 c.val _)).trans (Mem.read_writeL_in bs hwf i hlt)
  · exact (congrArg (·.read x) (pad_setPad_self s1 c.val _)).trans (Mem.read_writeL_out bs hwf hx)

end PadStore

/-! ### Statements that hold -/

/-- Settles O9: a load rewrites its core with the bytes, and a store writes its bytes. -/
theorem scratchpadAccesses : Obligations.ScratchpadAccesses := by
  unfold Obligations.ScratchpadAccesses
  refine ⟨fun c w s => ⟨fun h hsrc2 => ?loads, fun h hsrc2 hdst => ?loadDesc⟩,
    fun c w s hmem => ⟨fun h hdst => ⟨?word, ?dword⟩, fun h hdst hsrc2 => ?storeDesc⟩⟩
  case loads =>
    dsimp only
    rw [← extend_unsigned, ← extend_unsigned]
    have hf : (w.src2 == 0) = true := by simp [hsrc2]
    exact ⟨completes_padLoad (fun k bs => k.setS w.dst (extend bs false)) rfl h hf,
      completes_padLoad (fun k bs => k.setS w.dst (extend bs false)) rfl h hf⟩
  case loadDesc =>
    exact completes_padLoad (fun k bs => k.setT w.dst.toNat (BitVec.ofNat 256 (leNat bs))) rfl h
      (by simp [IWord.isT, hsrc2, hdst])
  case word =>
    exact completesPadStore_of_padStore (bs := leBytes 4 _) hmem rfl h (by simp [hdst]) (by rw [length_leBytes]; decide) rfl
  case dword =>
    exact completesPadStore_of_padStore (bs := leBytes 8 _) hmem rfl h (by simp [hdst]) (by rw [length_leBytes]; decide) rfl
  case storeDesc =>
    exact completesPadStore_of_padStore (bs := leBytes 32 _) hmem rfl h (by simp [IWord.isT, hdst, hsrc2])
      (by rw [length_leBytes]; decide) rfl

/-- A load whose line is to be kept out of the data cache under a test of its address. -/
def unfill (out : Nat → Bool) (l : PendLoad) : PendLoad :=
  { l with fill := l.fill.bind fun y => if out y.1 then none else some y }

theorem dcacheClear_eq (k : Core) : dcacheClear k = { k with dcache := [], loads := k.loads.map (unfill fun _ => true) } := by
  have hload : (fun l : PendLoad => { l with fill := none }) = unfill fun _ => true := by
    funext l
    unfold unfill
    cases l.fill <;> rfl
  unfold dcacheClear
  rw [hload]

theorem dcacheInv_eq (k : Core) (va n : Nat) :
    let out := fun (x : Nat) => decide (0 < n) && decide (x < va + n) && decide (va < x + 64)
    dcacheInv k va n = { k with dcache := k.dcache.filter (fun d => !out d.va), loads := k.loads.map (unfill out) } := by
  have hout : (fun x => rangesMeet (x, 64) (va, n)) =
      fun x => decide (0 < n) && decide (x < va + n) && decide (va < x + 64) := by
    funext x
    simp [rangesMeet]
  intro out
  unfold dcacheInv
  rw [hout]
  dsimp only
  congr 1
  refine List.map_congr_left fun l _ => ?_
  obtain ⟨kind, pc, cls, func, data, poison, tag, fill, ctx, epoch, va⟩ := l
  cases fill with
  | none => rfl
  | some y =>
    unfold unfill
    dsimp only [Option.bind_some]
    split <;> rfl

/-- Settles O11: each instruction rewrites its core, whose caches lose the lines. -/
theorem cacheInvalidations : Obligations.CacheInvalidations := by
  unfold Obligations.CacheInvalidations
  refine fun c w s => ⟨fun h hdst himm => ?inv, fun h hdst hsrc1 hsrc2 himm => ⟨?ina, ?ici⟩⟩
  case inv =>
    have hinv := completes_of_modCore (i := .inv c w) rfl h (by simp [hdst, himm]) (fun k => dcacheInv k _ _) rfl
    rw [dcacheInv_eq] at hinv
    exact hinv
  case ina =>
    have hina := completes_of_modCore (i := .ina c w) rfl h (by simp [hdst, hsrc1, hsrc2, himm]) dcacheClear rfl
    rw [dcacheClear_eq] at hina
    exact hina
  case ici =>
    exact completes_of_modCore rfl h (by simp [hdst, hsrc1, hsrc2, himm]) (fun k => { k with icache := [] }) rfl

end Sys2Proof.Machine

/-!
PROOFS. The statements of the programming model: descriptor registers (O12).
-/

namespace Sys2Proof.Machine

open State

/-! ### Bit fields of numbers (R4) -/

theorem testBit_bitsOf (v hi lo i : Nat) : (bitsOf v hi lo).testBit i = (decide (i < hi - lo + 1) && v.testBit (lo + i)) := by
  rw [bitsOf, Nat.testBit_mod_two_pow, Nat.testBit_shiftRight]

theorem setBits_eq (v x : Nat) {hi lo : Nat} : setBits v hi lo x =
    2 ^ lo * (2 ^ (hi - lo + 1) * (v / 2 ^ lo / 2 ^ (hi - lo + 1)) + x % 2 ^ (hi - lo + 1)) + v % 2 ^ lo := by
  have hv := Nat.div_add_mod v (2 ^ lo)
  have hq := Nat.div_add_mod (v / 2 ^ lo) (2 ^ (hi - lo + 1))
  have hsplit : v = 2 ^ lo * (2 ^ (hi - lo + 1) * (v / 2 ^ lo / 2 ^ (hi - lo + 1))) +
      bitsOf v hi lo * 2 ^ lo + v % 2 ^ lo := by
    rw [bitsOf, Nat.shiftRight_eq_div_pow, Nat.mul_comm _ (2 ^ lo), ← Nat.mul_add, hq, hv]
  unfold setBits
  dsimp only
  rw [Nat.mul_add, Nat.mul_comm (x % _)]
  omega

theorem testBit_setBits (v x i : Nat) {hi lo : Nat} (h : lo ≤ hi) : (setBits v hi lo x).testBit i =
    if lo ≤ i ∧ i ≤ hi then x.testBit (i - lo) else v.testBit i := by
  rw [setBits_eq, Nat.testBit_two_pow_mul_add _ (Nat.mod_lt _ (Nat.two_pow_pos _)),
    Nat.testBit_two_pow_mul_add _ (Nat.mod_lt _ (Nat.two_pow_pos _))]
  by_cases h1 : i < lo
  · rw [if_pos h1, if_neg (by omega), Nat.testBit_mod_two_pow, decide_eq_true h1, Bool.true_and]
  · rw [if_neg h1]
    by_cases h2 : i - lo < hi - lo + 1
    · rw [if_pos h2, if_pos (by omega), Nat.testBit_mod_two_pow, decide_eq_true h2, Bool.true_and]
    · rw [if_neg h2, if_neg (by omega), Nat.testBit_div_two_pow, Nat.testBit_div_two_pow]
      congr 1
      omega

/-- The field that was set reads back. -/
theorem bitsOf_setBits_self (v x : Nat) {hi lo : Nat} (h : lo ≤ hi) :
    bitsOf (setBits v hi lo x) hi lo = x % 2 ^ (hi - lo + 1) := by
  refine Nat.eq_of_testBit_eq fun i => ?_
  rw [testBit_bitsOf, testBit_setBits _ _ _ h, Nat.testBit_mod_two_pow]
  by_cases hi' : i < hi - lo + 1
  · rw [if_pos (by omega), Nat.add_sub_cancel_left]
  · rw [decide_eq_false hi', Bool.false_and, Bool.false_and]

/-- A field apart from the one that was set stays. -/
theorem bitsOf_setBits_apart (v x : Nat) {hi lo hi' lo' : Nat} (h : lo ≤ hi) (hlo' : lo' ≤ hi') (hapart : hi' < lo ∨ hi < lo') :
    bitsOf (setBits v hi lo x) hi' lo' = bitsOf v hi' lo' := by
  refine Nat.eq_of_testBit_eq fun i => ?_
  rw [testBit_bitsOf, testBit_bitsOf, testBit_setBits _ _ _ h]
  by_cases hi : i < hi' - lo' + 1
  · rw [if_neg (by omega)]
  · rw [decide_eq_false hi, Bool.false_and, Bool.false_and]

theorem setBits_lt {v x hi lo n : Nat} (h : lo ≤ hi) (hv : v < 2 ^ n) (hn : hi < n) : setBits v hi lo x < 2 ^ n := by
  refine Nat.lt_pow_two_of_testBit _ fun i hi' => ?_
  rw [testBit_setBits _ _ _ h, if_neg (by omega)]
  exact Nat.testBit_lt_two_pow (hv.trans_le (Nat.pow_le_pow_right (by decide) hi'))

/-! ### Fields of descriptors (R91) -/

namespace Desc

variable {d : Desc} {hi lo hi' lo' v : Nat}

theorem toNat_put (h : lo ≤ hi) (hhi : hi < 256) : (d.put hi lo v).toNat = setBits d.toNat hi lo v := by
  rw [put, BitVec.toNat_ofNat, Nat.mod_eq_of_lt (setBits_lt h d.isLt hhi)]

theorem fld_put_self (h : lo ≤ hi) (hhi : hi < 256) : (d.put hi lo v).fld hi lo = v % 2 ^ (hi - lo + 1) := by
  rw [fld, toNat_put h hhi, bitsOf_setBits_self _ _ h]

theorem fld_put_apart (h : lo ≤ hi) (hhi : hi < 256) (h' : lo' ≤ hi') (hapart : hi' < lo ∨ hi < lo') :
    (d.put hi lo v).fld hi' lo' = d.fld hi' lo' := by
  rw [fld, toNat_put h hhi, bitsOf_setBits_apart _ _ h h' hapart, fld]

/-- With its top bit cleared a field is below half its range. -/
theorem fld_put_top_clear (h : lo ≤ hi) (hhi : hi < 256) : (d.put hi hi 0).fld hi lo < 2 ^ (hi - lo) := by
  refine Nat.lt_pow_two_of_testBit _ fun i hi' => ?_
  rw [fld, toNat_put (Nat.le_refl hi) hhi, testBit_bitsOf, testBit_setBits _ _ _ (Nat.le_refl hi)]
  by_cases hlast : i = hi - lo
  · rw [if_pos (by omega), Nat.zero_testBit, Bool.and_false]
  · rw [decide_eq_false (by omega), Bool.false_and]

end Desc

/-- There are fifteen fields. -/
theorem descField_lt {i : Nat} {x : Nat × Nat} (h : descField i = some x) : i < 15 := by
  unfold descField at h
  split at h
  case h_16 => cases h
  all_goals decide

/-- The fields lie in the descriptor, apart from one another. -/
theorem descField_places : ∀ i j : Fin 15, ∀ x ∈ descField i, ∀ y ∈ descField j,
    x.2 ≤ x.1 ∧ x.1 < 256 ∧ (i ≠ j → y.1 < x.2 ∨ x.1 < y.2) := by decide

theorem descField_inside {i hi lo : Nat} (h : descField i = some (hi, lo)) : lo ≤ hi ∧ hi < 256 := by
  obtain ⟨hle, hlt, -⟩ := descField_places ⟨i, descField_lt h⟩ ⟨i, descField_lt h⟩ _ h _ h
  exact ⟨hle, hlt⟩

theorem descField_apart {i j hi lo hi' lo' : Nat} (h : descField i = some (hi, lo)) (h' : descField j = some (hi', lo'))
    (hij : j ≠ i) : hi' < lo ∨ hi < lo' :=
  (descField_places ⟨i, descField_lt h⟩ ⟨j, descField_lt h'⟩ _ h _ h').2.2 fun heq => hij (congrArg Fin.val heq).symm

/-- A field of a descriptor, by its place. -/
theorem getField_eq {d : Desc} {i hi lo : Nat} (h : descField i = some (hi, lo)) : getField d i =
    some (if i = 12 ∨ i = 13 then (if 32 ≤ d.fld hi lo then d.fld hi lo % 32 else 0xFF) else d.fld hi lo) := by
  rw [getField, h, Option.map_some]

/-- Bits put into a field leave every other field. -/
theorem getField_put_ne {d : Desc} {i j hi lo lo1 v : Nat} (h : descField i = some (hi, lo)) (hlo : lo ≤ lo1) (hhi : lo1 ≤ hi)
    (hij : j ≠ i) : getField (d.put hi lo1 v) j = getField d j := by
  cases hj : descField j with
  | none => rw [getField, getField, hj]; rfl
  | some x =>
    obtain ⟨hi', lo'⟩ := x
    have hapart := descField_apart h hj hij
    rw [getField_eq hj, getField_eq hj, Desc.fld_put_apart hhi (descField_inside h).2 (descField_inside hj).1 (by omega)]

/-- What TSF can put: a register's number with its valid bit, no register, the low word of the tensor scale, or a value that
fits. -/
theorem setField_cases {d y : Desc} {i v : Nat} (h : setField d i v = .ok y) : ∃ hi lo, descField i = some (hi, lo) ∧
    ((i = 12 ∨ i = 13) ∧ v < 32 ∧ y = d.put hi lo (32 + v) ∨ (i = 12 ∨ i = 13) ∧ v = 0xFF ∧ y = d.put hi hi 0 ∨
      i = 14 ∧ y = d.put hi lo (v % 2 ^ 32) ∨
      ¬(i = 12 ∨ i = 13) ∧ i ≠ 14 ∧ v < 2 ^ (hi - lo + 1) ∧ y = d.put hi lo v) := by
  unfold setField at h
  split at h
  · cases h
  · next hi lo hfield =>
    refine ⟨hi, lo, hfield, ?_⟩
    split at h
    · next hreg =>
      split at h
      · next hv => exact .inl ⟨hreg, hv, (Except.ok.inj h).symm⟩
      · split at h
        · next hv => exact .inr (.inl ⟨hreg, hv, (Except.ok.inj h).symm⟩)
        · cases h
    · next hreg =>
      split at h
      · next hscale => exact .inr (.inr (.inl ⟨hscale, (Except.ok.inj h).symm⟩))
      · next hscale =>
        split at h
        · next hv => exact .inr (.inr (.inr ⟨hreg, hscale, hv, (Except.ok.inj h).symm⟩))
        · cases h

/-- A field reads back as it was set, the tensor scale as its low word (R91). -/
theorem getField_setField_self {d y : Desc} {i v : Nat} (h : setField d i v = .ok y) :
    getField y i = some (if i = 14 then v % 2 ^ 32 else v) := by
  obtain ⟨hi, lo, hfield, hcase⟩ := setField_cases h
  obtain ⟨hle, hlt⟩ := descField_inside hfield
  have hwidth : i = 12 ∨ i = 13 → hi - lo = 5 := by
    rintro (rfl | rfl) <;> cases hfield <;> rfl
  rw [getField_eq hfield]
  rcases hcase with ⟨hreg, hv, rfl⟩ | ⟨hreg, rfl, rfl⟩ | ⟨rfl, rfl⟩ | ⟨hreg, hscale, hv, rfl⟩
  · rw [if_pos hreg, Desc.fld_put_self hle hlt, hwidth hreg, if_neg (by omega : ¬i = 14)]
    exact congrArg some ((if_pos (by omega)).trans (by omega))
  · have hclear := Desc.fld_put_top_clear (d := d) hle hlt
    rw [hwidth hreg] at hclear
    rw [if_pos hreg, if_neg (by omega), if_neg (by omega : ¬i = 14)]
  · cases hfield
    rw [if_neg (by decide), Desc.fld_put_self (by decide) (by decide), if_pos rfl]
    exact congrArg some (by omega)
  · rw [if_neg hreg, Desc.fld_put_self hle hlt, if_neg hscale, Nat.mod_eq_of_lt hv]

/-- Every other field stays (R91). -/
theorem getField_setField_ne {d y : Desc} {i j v : Nat} (h : setField d i v = .ok y) (hij : j ≠ i) :
    getField y j = getField d j := by
  obtain ⟨hi, lo, hfield, hcase⟩ := setField_cases h
  obtain ⟨hle, -⟩ := descField_inside hfield
  rcases hcase with ⟨-, -, rfl⟩ | ⟨-, -, rfl⟩ | ⟨-, rfl⟩ | ⟨-, -, -, rfl⟩
  · exact getField_put_ne hfield (Nat.le_refl _) hle hij
  · exact getField_put_ne hfield hle (Nat.le_refl _) hij
  · exact getField_put_ne hfield (Nat.le_refl _) hle hij
  · exact getField_put_ne hfield (Nat.le_refl _) hle hij

/-- Settles O12: each instruction rewrites its core, and the fields lie apart in the descriptor. -/
theorem descriptorRegisters : Obligations.DescriptorRegisters := by
  unfold Obligations.DescriptorRegisters
  refine ⟨fun c w s => ⟨fun h hdst hsrc1 hsrc2 himm => ?tmv, fun h hdst hsrc2 => ⟨fun himm y hy => ?tsf, fun himm => ?tof⟩,
    fun h hsrc1 hsrc2 himm y hy => ?tgf, fun h hdst hsrc1 hsrc2 himm hfree code hcode => ?tck⟩,
    fun d y i v h => ⟨fun hi => ?_, fun hi => ?_, fun j hij => getField_setField_ne h hij⟩⟩
  case tmv =>
    exact completes_of_modCore rfl h (by simp [IWord.isT, hdst, hsrc1, hsrc2, himm]) (fun k => k.setT w.dst.toNat _) rfl
  case tsf =>
    exact completes_of_modCore rfl h (by simp [IWord.isT, hdst, hsrc2, himm]) (fun k => k.setT w.dst.toNat y)
      (by dsimp only; rw [hy]; rfl)
  case tof =>
    exact completes_of_modCore rfl h (by simp [IWord.isT, hdst, hsrc2, himm]) (fun k => k.setT w.dst.toNat _) rfl
  case tgf =>
    exact completes_of_modCore rfl h (by simp [IWord.isT, hsrc1, hsrc2, himm]) (fun k => k.setS w.dst (BitVec.ofNat 64 y))
      (by dsimp only; rw [hy]; rfl)
  case tck =>
    exact completes_of_modCore (i := .tck c w) rfl h (by simp [IWord.isT, hdst, hsrc1, hsrc2, himm])
      (fun k => { k with cst := BitVec.ofNat 64 code.toNat }.setP 7 (code == Code.ok)) (by dsimp only; rw [hfree, hcode]; rfl)
  · rw [getField_setField_self h, if_neg hi]
  · rw [getField_setField_self h, if_pos hi]

end Sys2Proof.Machine

/-!
PROOFS. The statements of the programming model: parameter slots (O13).
-/

namespace Sys2Proof.Machine

open State

/-! ### Parameter slots (R85, R340) -/

section Slot

variable {s t u : State} {p param ind i : Nat}

/-- A direct slot has the value of its bytes. -/
theorem slotRun_direct {v : DWord} (hread : slotRead s p (param + 64 + 8 * i) = (.value v, t)) (hind : ind.testBit i = false) :
    slotRun s p param ind [] none [i] = (.done [v] none, t) := by
  simp only [slotRun, slotValue, hread, hind, Bool.false_eq_true, if_false]
  rfl

/-- An indirect slot has the value of the bytes that its own name. -/
theorem slotRun_indirect {v x : DWord} (hread : slotRead s p (param + 64 + 8 * i) = (.value v, t))
    (hind : ind.testBit i = true) (hpoint : slotRead t p (v.toNat % 2 ^ 57 / 8 * 8) = (.value x, u)) :
    slotRun s p param ind [] none [i] = (.done [x] none, u) := by
  simp only [slotRun, slotValue, slotPoint, hread, hind, hpoint, if_true]
  rfl

/-- A code at the bytes that an indirect slot names ends the read. -/
theorem slotRun_indirect_err {v : DWord} {code : Code} {va : Nat}
    (hread : slotRead s p (param + 64 + 8 * i) = (.value v, t)) (hind : ind.testBit i = true)
    (hpoint : slotRead t p (v.toNat % 2 ^ 57 / 8 * 8) = (.err code va, u)) :
    slotRun s p param ind [] none [i] = (.done [0] (some (code, va)), u) := by
  simp only [slotRun, slotValue, slotPoint, hread, hind, hpoint, if_true]
  rfl

/-- A code at a slot's own bytes ends the read. -/
theorem slotRun_err {code : Code} {va : Nat} (hread : slotRead s p (param + 64 + 8 * i) = (.err code va, t)) :
    slotRun s p param ind [] none [i] = (.done [0] (some (code, va)), t) := by
  simp only [slotRun, slotValue, hread]
  rfl

end Slot

/-! ### LDP and TLP (R86) -/

section SlotBody

variable {s t : State} {p l n k cls func dst : Nat} {tlp : Bool} {x : Launch} {vs : List DWord}

/-- Slots that have all given their values complete the instruction. -/
theorem slotBody_done (hl : s.launchOf p = some (l, x)) (hperf : s.loadUnperformed p = false)
    (hin : n + k ≤ 256 ∧ n + k ≤ paramCount x)
    (hrun : slotRun s p x.param x.ind [] none ((List.range k).map (· + n)) = (.done vs none, t)) :
    slotBody p n k cls func tlp dst s = .ok (t.modCore p fun c => loadReg c (.slot tlp dst vs [] false none) []) := by
  unfold slotBody
  simp only [hl, hperf, hrun, if_neg (show ¬(256 < n + k ∨ paramCount x < n + k) by omega), Bool.false_eq_true, if_false]

/-- A slot beyond the block's count is rejected. -/
theorem slotBody_beyond (hl : s.launchOf p = some (l, x)) (hout : paramCount x < n + k) :
    slotBody p n k cls func tlp dst s = .bad s .range := by
  unfold slotBody
  simp only [hl, if_pos (show 256 < n + k ∨ paramCount x < n + k from .inr hout)]

end SlotBody

theorem leNat_append (xs ys : List Byte) : leNat (xs ++ ys) = leNat xs + 256 ^ xs.length * leNat ys := by
  induction xs with
  | nil => simp [leNat]
  | cons b xs ih =>
    rw [List.cons_append, leNat, leNat, ih, List.length_cons, Nat.pow_succ]
    ring

theorem leNat_leBytes (n v : Nat) : leNat (leBytes n v) = v % 256 ^ n := by
  induction n generalizing v with
  | zero => rw [Nat.pow_zero, Nat.mod_one]; rfl
  | succ n ih => rw [leBytes, leNat, ih, BitVec.toNat_ofNat, pow_succ' 256 n, Nat.mod_mul]

/-- Slots' values one after another, the first lowest. -/
theorem leNat_slots (v : DWord) (vs : List DWord) : leNat ((v :: vs).flatMap fun v => lowBytes v 8) =
    v.toNat + 2 ^ 64 * leNat (vs.flatMap fun v => lowBytes v 8) := by
  rw [List.flatMap_cons, leNat_append, lowBytes, length_leBytes, leNat_leBytes, show 256 ^ 8 = 2 ^ 64 from rfl,
    Nat.mod_eq_of_lt v.isLt]

/-- The 32 bytes of four slots. -/
theorem leNat_four_slots (v0 v1 v2 v3 : DWord) : leNat ([v0, v1, v2, v3].flatMap fun v => lowBytes v 8) =
    v0.toNat + 2 ^ 64 * v1.toNat + 2 ^ 128 * v2.toNat + 2 ^ 192 * v3.toNat := by
  rw [leNat_slots, leNat_slots, leNat_slots, leNat_slots, List.flatMap_nil, leNat]
  ring

/-- Settles O13: the slots that have all given their values are the instruction's result, and each gives its own or the one
that it names. -/
theorem parameterSlots : Obligations.ParameterSlots := by
  unfold Obligations.ParameterSlots
  refine ⟨fun c w s l x hl hperf hn hsrc1 hsrc2 => ⟨fun h => ⟨fun v t hin hrun => ?ldp, fun hout => ?ldpBeyond⟩,
    fun h hdst => ⟨fun v0 v1 v2 v3 t hin hlast hrun => ?tlp, fun hout => ?tlpBeyond⟩⟩,
    fun s t p param ind i => ⟨fun v hread => ⟨slotRun_direct hread, fun hind u =>
      ⟨fun x => slotRun_indirect hread hind, fun code va => slotRun_indirect_err hread hind⟩⟩, fun code va => slotRun_err⟩⟩
  case ldp =>
    have hrun' : slotRun (s.afterFetch c.val none) c.val x.param x.ind [] none ((List.range 1).map (· + w.imm.toNat)) =
        (.done [v] none, t) := by simpa using hrun
    change execLdp c w s = _
    rw [execLdp, issue_runs h (by simp [hsrc1, hsrc2, hn]), slotBody_done hl hperf (by omega) hrun']
    simp only [loadReg, BitVec.ofNat_toNat, BitVec.setWidth_eq]
    rfl
  case ldpBeyond =>
    change execLdp c w s = _
    rw [execLdp, issue_runs h (by simp [hsrc1, hsrc2, hn]), slotBody_beyond hl (by omega)]
    rfl
  case tlp =>
    have hrun' : slotRun (s.afterFetch c.val none) c.val x.param x.ind [] none ((List.range 4).map (· + w.imm.toNat)) =
        (.done [v0, v1, v2, v3] none, t) := by
      simpa [List.range_succ, Nat.add_comm] using hrun
    change execTlp c w s = _
    rw [execTlp, issue_runs h (by simp [IWord.isT, hdst, hsrc1, hsrc2, hn]), slotBody_done hl hperf (by omega) hrun',
      ← leNat_four_slots]
    rfl
  case tlpBeyond =>
    change execTlp c w s = _
    rw [execTlp, issue_runs h (by simp [IWord.isT, hdst, hsrc1, hsrc2, hn]), slotBody_beyond hl hout]
    rfl

end Sys2Proof.Machine

/-!
PROOFS. The statements of the programming model: pools, ALC and FRE (O33).
-/

namespace Sys2Proof.Machine

open State

/-! ### Blocks (R92, R252) -/

theorem SMap.erase_eq_filter {α : Type} (m : SMap α) (i : Nat) : SMap.erase m i = m.filter fun kv => kv.1 != i := by
  induction m with
  | nil => rfl
  | cons kv m ih =>
    obtain ⟨k, v⟩ := kv
    rw [SMap.erase, List.filter_cons, ih]
    by_cases h : k = i <;> simp [h]

namespace Pool

theorem bytes_succ (k : Nat) : bytes (k + 1) = 2 * bytes k := by
  unfold bytes
  rw [Nat.pow_succ]
  ring

/-- A candidate is a free block of the class asked for or a larger one. -/
theorem mem_candidates {x : Pool} {k b j : Nat} (h : (b, j) ∈ x.candidates k) : (b, j) ∈ x.free ∧ k ≤ j := by
  unfold candidates at h
  split at h
  · next j' hj =>
    have hk : j' ∈ (List.range 13).filter (k ≤ ·) := List.mem_of_find?_eq_some hj
    obtain ⟨hfree, hclass⟩ := List.mem_filter.mp h
    obtain ⟨-, hkj⟩ := List.mem_filter.mp hk
    have hjj : j = j' := by simpa using hclass
    exact ⟨hfree, hjj ▸ of_decide_eq_true hkj⟩
  · cases h

/-- A block that is halved down to a class keeps a block of that class inside itself. -/
theorem split_inside (v : BitVec 64) (k n : Nat) (free : SMap Nat) (a j : Nat) (h : k ≤ j) :
    a ≤ (split v k n free a j).2 ∧ (split v k n free a j).2 + bytes k ≤ a + bytes j := by
  have hmono : bytes k ≤ bytes j := Nat.mul_le_mul_left _ (Nat.pow_le_pow_right (by decide) h)
  induction n generalizing free a j with
  | zero => exact ⟨Nat.le_refl _, Nat.add_le_add_left hmono _⟩
  | succ n ih =>
    rw [split]
    split
    · exact ⟨Nat.le_refl _, Nat.add_le_add_left hmono _⟩
    · have hj : j - 1 + 1 = j := by omega
      have hhalf : bytes j = 2 * bytes (j - 1) := by rw [← bytes_succ, hj]
      have hmono' : bytes k ≤ bytes (j - 1) := Nat.mul_le_mul_left _ (Nat.pow_le_pow_right (by decide) (by omega))
      dsimp only
      split
      · have hin := ih (free.set a (j - 1)) (a + bytes (j - 1)) (j - 1) (by omega) hmono'
        omega
      · have hin := ih (free.set (a + bytes (j - 1)) (j - 1)) a (j - 1) (by omega) hmono'
        omega

/-- Blocks are freed one after another. -/
def releaseAll (l : List (Nat × Nat)) (x : Pool) : Pool := l.foldl (fun x kv => x.release kv.1 kv.2) x

theorem used_releaseAll (l : List (Nat × Nat)) (x : Pool) :
    (releaseAll l x).used = x.used.filter fun kv => !(l.map Prod.fst).contains kv.1 := by
  induction l generalizing x with
  | nil => simp [releaseAll]
  | cons kv l ih =>
    change (releaseAll l (x.release kv.1 kv.2)).used = _
    rw [ih, release, SMap.erase_eq_filter, List.filter_filter]
    refine List.filter_congr fun y _ => ?_
    by_cases h : y.1 = kv.1 <;> simp [h, bne, Bool.and_comm]

/-- Without MERGE a free block stays free as others are freed. -/
theorem free_releaseAll {a : Nat} (l : List (Nat × Nat)) (x : Pool) (hmerge : x.merge = false)
    (h : (x.free.get? a).isSome = true ∨ a ∈ l.map Prod.fst) : ((releaseAll l x).free.get? a).isSome = true := by
  induction l generalizing x with
  | nil => simpa [releaseAll] using h
  | cons kv l ih =>
    refine ih (x.release kv.1 kv.2) hmerge ?_
    rw [release, hmerge, if_neg Bool.false_ne_true]
    by_cases hkv : a = kv.1
    · rw [hkv, SMap.get?_set_self]
      exact .inl rfl
    · rw [SMap.get?_set_ne _ _ hkv]
      simpa [hkv] using h

theorem used_freeAll (x : Pool) : x.freeAll.used = [] := by
  refine (used_releaseAll x.used x).trans (List.filter_eq_nil_iff.mpr fun kv hkv => ?_)
  simpa using ⟨kv.2, hkv⟩

end Pool

/-! ### Pool commands (R254) -/

section Command

variable {s : State} {src : Src} {v : Word} {op : Nat}

/-- CIS_POOL_CMD as a command with an OP writes it. -/
def poolWord (v : Word) (op : Nat) : Word := BitVec.ofNat 32 (setBits v.toNat 1 0 op)

theorem toNat_poolWord (v : Word) (op : Nat) : (poolWord v op).toNat = setBits v.toNat 1 0 op := by
  rw [poolWord, BitVec.toNat_ofNat, Nat.mod_eq_of_lt (setBits_lt (by decide) v.isLt (by decide))]

/-- OP is the one given, and CTX and POOL are those of the word. -/
theorem poolWord_fields (v : Word) (hop : op < 4) : bitsOf (poolWord v op).toNat 1 0 = op ∧
    bitsOf (poolWord v op).toNat 7 2 = bitsOf v.toNat 7 2 ∧ bitsOf (poolWord v op).toNat 11 8 = bitsOf v.toNat 11 8 := by
  rw [toNat_poolWord, bitsOf_setBits_self _ _ (by decide), bitsOf_setBits_apart _ _ (by decide) (by decide) (by decide),
    bitsOf_setBits_apart _ _ (by decide) (by decide) (by decide)]
  exact ⟨Nat.mod_eq_of_lt hop, rfl, rfl⟩

/-- An accepted pool command has its effect. -/
theorem poolWrite_accepted (h : Accepted s src .poolCmd 0 (poolWord v op) (s.poolCheck (poolWord v op))) :
    s.poolWrite src op v = (poolEff (poolWord v op) s).noted src .poolCmd 0 (poolWord v op) := by
  have hname : s.nameQueue .poolCmd 0 = s := if_neg (by decide)
  exact (busWrite_accepted h).trans (by rw [hname]; rfl)

end Command

/-! ### ALC and FRE (R92, R93) -/

namespace State

/-- The mark of a pool that runs low leaves everything but the registers. -/
theorem poolLow_frame (s : State) (ctx : Nat) (x y : Pool) : { s.poolLow ctx x y with regs := s.regs } = s := by
  unfold poolLow
  split
  · split <;> rfl
  · rfl

section Alloc

variable {s : State} {ctx pool size kls : Nat} {x : Pool} (hx : s.pools.get? (16 * ctx + pool) = some x) (hsize : 0 < size)
  (htop : size ≤ Pool.bytes (Pool.top x.classes)) (hfit : x.fit size = some kls)

include hx hsize htop hfit

/-- With a free block of the class or a larger one, one of them is taken, and split down to the class. -/
theorem alloc_candidate (hfree : x.candidates kls ≠ []) : ∃ a b j y u, s.alloc ctx pool size = (.ok, a, u) ∧
    (b, j) ∈ x.free ∧ kls ≤ j ∧ b ≤ a ∧ a + Pool.bytes kls ≤ b + Pool.bytes j ∧
    u.pools.get? (16 * ctx + pool) = some y ∧ y.used = x.used.set a kls ∧ u.cores = s.cores ∧ u.cis = s.cis := by
  have hlt : (Config.freeAt s.free 0).toNat % (x.candidates kls).length < (x.candidates kls).length :=
    Nat.mod_lt _ (List.length_pos_iff.mpr hfree)
  obtain ⟨⟨b, j⟩, hbj⟩ : ∃ bj, (x.candidates kls)[(Config.freeAt s.free 0).toNat % (x.candidates kls).length]? = some bj :=
    ⟨_, List.getElem?_eq_getElem hlt⟩
  obtain ⟨hin, hkj⟩ := Pool.mem_candidates (List.mem_of_getElem? hbj)
  obtain ⟨hlow, hhigh⟩ := Pool.split_inside (Config.freeAt s.free 1) kls 13 (x.free.erase b) b j hkj
  have halloc : ∃ y z t, s.alloc ctx pool size =
      (.ok, (Pool.split (Config.freeAt s.free 1) kls 13 (x.free.erase b) b j).2, poolLow t ctx z y) ∧
      t.pools.get? (16 * ctx + pool) = some y ∧
      y.used = x.used.set (Pool.split (Config.freeAt s.free 1) kls 13 (x.free.erase b) b j).2 kls ∧
      t.cores = s.cores ∧ t.cis = s.cis := by
    unfold alloc draw
    simp only [hx, hfit, hbj, if_neg (show ¬size = 0 by omega), if_neg (not_lt.mpr htop)]
    exact ⟨_, _, _, rfl, SMap.get?_set_self .., rfl, rfl, rfl⟩
  obtain ⟨y, z, t, heq, hpools, hused, hcores, hcis⟩ := halloc
  have hframe := poolLow_frame t ctx z y
  exact ⟨_, b, j, y, _, heq, hin, hkj, hlow, hhigh, (congrArg (fun u : State => u.pools.get? _) hframe).trans hpools, hused,
    (congrArg State.cores hframe :).trans hcores, (congrArg State.cis hframe :).trans hcis⟩

/-- Without one the allocator has no block to give. -/
theorem alloc_noCandidate (hfree : x.candidates kls = []) :
    ∃ u, s.alloc ctx pool size = (.noResource, 0, u) ∧ u.cores = s.cores ∧ u.pools = s.pools := by
  unfold alloc draw
  simp only [hx, hfit, hfree, if_neg (show ¬size = 0 by omega), if_neg (not_lt.mpr htop)]
  exact ⟨_, rfl, rfl, rfl⟩

end Alloc

section Free

variable {s : State} {ctx a : Nat}

/-- A block in use of a pool without MERGE becomes free. -/
theorem free_of_used {i kls : Nat} {x : Pool}
    (hfind : (s.ctxPools ctx).find? (fun kv => (kv.2.used.get? a).isSome) = some (i, x)) (hused : x.used.get? a = some kls)
    (hmerge : x.merge = false) : s.free_ ctx a =
      .ok { s with pools := s.pools.set i { x with used := x.used.erase a, free := x.free.set a kls } } := by
  rw [free_, hfind]
  dsimp only
  rw [SMap.getD, hused, Option.getD_some, Pool.release, hmerge, if_neg Bool.false_ne_true]

/-- No block of the context begins at the address. -/
theorem free_of_unknown (hfind : (s.ctxPools ctx).find? (fun kv => (kv.2.used.get? a).isSome) = none)
    (hany : (s.ctxPools ctx).any (fun kv => (kv.2.free.get? a).isSome) = false) : s.free_ ctx a = .error .range := by
  rw [free_, hfind]
  dsimp only
  rw [hany, if_neg Bool.false_ne_true]

/-- A core that goes on after a change of the pools. -/
theorem retire_pools (s : State) (m : SMap Pool) (p : Nat) (pc : BitVec 57) :
    let t := State.retire { s with pools := m } p pc
    t.core p = (s.core p).goOn pc ∧ t.pools = m ∧ { t with cores := s.cores, pools := s.pools } = s :=
  ⟨core_modCore_self .., rfl, rfl⟩

end Free

end State

/-- ALC completes with the allocator's answer. -/
theorem exec_alc {s u : State} {c : CoreId} {w : IWord} {code : Code} {a : Nat}
    (h : Issues s c.val w none (.p 7 :: sRegs [w.dst, w.src1])) (hsrc2 : w.src2 = 0) (himm : w.imm.toNat < 16) :
    let s1 := s.afterFetch c.val none
    let k := s1.core c.val
    s1.alloc k.ctx w.imm.toNat (k.getS w.src1).toNat = (code, a, u) →
    exec (.alc c w) s = .next (u.modCore c.val fun k' =>
      ({ k'.setS w.dst (BitVec.ofNat 64 a) with cst := BitVec.ofNat 64 code.toNat }.setP 7 (code == Code.ok)).goOn (k.pc + 8)) := by
  intro s1 k halloc
  change execAlc c w s = _
  rw [execAlc, issue_runs h (by simp [hsrc2, himm])]
  dsimp only
  rw [halloc]
  simp only [finish, returned, retire, modCore_modCore]
  rfl

/-- Settles O33: a command's effect on the pools, the block that ALC splits, and the block that FRE gives back. -/
theorem poolsAllocateAndFree : Obligations.PoolsAllocateAndFree := by
  unfold Obligations.PoolsAllocateAndFree
  refine ⟨fun src v s => ⟨fun h => ?poolSet, fun h => ?clear, fun h => ?reset,
      fun x => ⟨x.used_freeAll, fun hmerge kv hkv => ?freed⟩⟩,
    fun c w s x kls h hsrc2 himm hx hsize htop hfit => ⟨fun hfree => ?alloc, fun hnone => ?full⟩,
    fun c w s h hdst hsrc2 himm => ⟨fun i x kls hfind hused hmerge => ?free, fun hfind hany => ?range⟩⟩
  case poolSet =>
    obtain ⟨hop, hctx, hpool⟩ := poolWord_fields v (op := 1) (by decide)
    change Host.Outcome.next (s.poolWrite src 1 v) = _
    rw [poolWrite_accepted h, poolEff, hop, hctx, hpool]
    rfl
  case clear =>
    obtain ⟨hop, hctx, hpool⟩ := poolWord_fields v (op := 2) (by decide)
    change Host.Outcome.next (s.poolWrite src 2 v) = _
    rw [poolWrite_accepted h, poolEff, hop, hctx, hpool]
    rfl
  case reset =>
    obtain ⟨hop, hctx, -⟩ := poolWord_fields v (op := 3) (by decide)
    change Host.Outcome.next (s.poolWrite src 3 v) = _
    rw [poolWrite_accepted h, poolEff, hop, hctx]
    rfl
  case freed => exact Pool.free_releaseAll x.used x hmerge (.inr (List.mem_map_of_mem hkv))
  case alloc =>
    obtain ⟨a, b, j, y, u, halloc, hin, hkj, hlow, hhigh, hpool, hused, hcores, hcis⟩ :=
      alloc_candidate hx hsize htop hfit hfree
    refine ⟨_, a, b, j, y, exec_alc h hsrc2 himm halloc, hin, hkj, hlow, hhigh, hpool, hused, ?_, hcis⟩
    rw [core_modCore_self, core_congr hcores]
    rfl
  case full =>
    obtain ⟨u, halloc, hcores, hpools⟩ := alloc_noCandidate hx hsize htop hfit hnone
    refine ⟨_, exec_alc h hsrc2 himm halloc, ?_, hpools⟩
    rw [core_modCore_self, core_congr hcores]
    rfl
  case free =>
    obtain ⟨hcore, hpools, hframe⟩ := retire_pools (s.afterFetch c.val none) ((s.afterFetch c.val none).pools.set i _) c.val _
    refine ⟨_, ?_, hcore, hpools, hframe⟩
    change execFre c w s = _
    rw [execFre, issue_runs h (by simp [hdst, hsrc2, himm]), free_of_used hfind hused hmerge]
    rfl
  case range =>
    change execFre c w s = _
    rw [execFre, issue_runs h (by simp [hdst, hsrc2, himm]), free_of_unknown hfind hany]
    rfl

end Sys2Proof.Machine

/-!
PROOFS. The statements of the programming model: the dispatch of matrix instructions (O20).
-/

namespace Sys2Proof.Machine

open State

/-! ### Changes of one core (R76, R82) -/

namespace State.CoreOnly

variable {s t : State} {p : Nat} {k : Core}

theorem refl (s : State) (p : Nat) : s.CoreOnly s p (s.core p) := ⟨rfl, fun _ _ => rfl, rfl⟩

theorem modCore (h : s.CoreOnly t p k) (f : Core → Core) : s.CoreOnly (t.modCore p f) p (f k) := by
  obtain ⟨hcore, hothers, hframe⟩ := h
  exact ⟨(core_modCore_self ..).trans (by rw [hcore]), fun q hq => (core_modCore_ne _ _ _ _ hq).trans (hothers q hq), hframe⟩

end State.CoreOnly

/-! ### Dispatch (R82) -/

/-- A core whose next unit instruction is a job. -/
def Core.enqueue (k : Core) (j : Job) : Core :=
  { k with jobs := k.jobs ++ [{ j with id := k.nextJob, pc := k.pc }], nextJob := k.nextJob + 1 }

theorem State.CoreOnly.dispatch {s t : State} {p : Nat} {k : Core} (h : s.CoreOnly t p k) (j : Job) :
    s.CoreOnly (t.dispatch p j) p (k.enqueue j) := h.modCore fun k => k.enqueue j

theorem Core.queues_enqueue {k : Core} {j : Job} (h : j.prog = .queued) : k.Queues (k.enqueue j) j.cls j.func j.w j.w2 :=
  ⟨_, rfl, rfl, rfl, rfl, rfl, rfl, rfl, rfl, h⟩

theorem Core.enqueue_frame (k : Core) (j : Job) : { k.enqueue j with jobs := k.jobs, nextJob := k.nextJob } = k := rfl

theorem Core.enqueue_arrds_frame (k : Core) (m : SMap ArrD) (j : Job) :
    { Core.enqueue { k with arrds := m } j with jobs := k.jobs, nextJob := k.nextJob, arrds := k.arrds } = k := rfl

/-- A unit instruction that interlocks a register as it enters its queue (R81, R82). -/
theorem Core.queues_enqueue_addBusy {k : Core} {j : Job} (h : j.prog = .queued) (r : RegRef) :
    k.Queues ((k.enqueue j).addBusy r) j.cls j.func j.w j.w2 ∧ ((k.enqueue j).addBusy r).busy = r :: k.busy :=
  ⟨Core.queues_enqueue h, rfl⟩

/-- A unit instruction enters the queue of its core, whose registers are then those of `k` (R82). -/
def State.Enters (s t : State) (p : Nat) (k : Core) (cls func : Nat) (w : IWord) (w2 : DWord) : Prop :=
  ∃ j : Job, j.prog = .queued ∧ j.cls = cls ∧ j.func = func ∧ j.w = w ∧ j.w2 = w2 ∧ s.CoreOnly t p (k.enqueue j)


section Complete

variable {s t : State} {c : CoreId} {w : IWord} {w2 : Option DWord} {i : Instr} {cls func : Nat} {fields : Bool}
  {regs : List RegRef} {body : State → Res} {k : Core} (hi : exec i s = issue cls func w w2 fields regs c.val body s)
  (h : Issues s c.val w w2 regs) (hf : fields = true)

include hi h hf

/-- An operation that changes its core alone completes. -/
theorem completes_of_coreOnly (hbody : body (s.afterFetch c.val w2) = .ok t) (ht : (s.afterFetch c.val w2).CoreOnly t c.val k) :
    Completes i s c.val w2 k (nextPc ((s.afterFetch c.val w2).core c.val).pc w2) :=
  ⟨_, by rw [hi, issue_runs h hf, hbody]; rfl, ht.modCore fun k => k.goOn _⟩

/-- A unit instruction that enters its queue completes (R82). -/
theorem completes_of_enters {qcls qfunc : Nat} {qw : IWord} {qw2 : DWord}
    (hbody : ∃ t, body (s.afterFetch c.val w2) = .ok t ∧ (s.afterFetch c.val w2).Enters t c.val k qcls qfunc qw qw2) :
    ∃ j : Job, Completes i s c.val w2 (k.enqueue j) (nextPc ((s.afterFetch c.val w2).core c.val).pc w2) ∧
      k.Queues (k.enqueue j) qcls qfunc qw qw2 := by
  obtain ⟨t, hbody, j, hprog, rfl, rfl, rfl, rfl, hcore⟩ := hbody
  exact ⟨j, completes_of_coreOnly hi h hf hbody hcore, Core.queues_enqueue hprog⟩

/-- A full queue shows its core WAITING on the instructions that have not started (R82). -/
theorem waits_of_full {ids : List Nat} (hbody : body (s.afterFetch c.val w2) = .full ids)
    (hstay : (s.afterFetch c.val w2).askedWay c.val = false) : ∃ t, exec i s = .next t ∧
      (s.afterFetch c.val w2).CoreOnly t c.val { (s.afterFetch c.val w2).core c.val with run := .waiting, heldBy := ids } := by
  refine ⟨_, by rw [hi, issue_runs h hf, hbody], ?_⟩
  generalize s.afterFetch c.val w2 = s1 at hstay
  have hwait := (CoreOnly.refl s1 c.val).modCore fun k => { k with run := .waiting }
  have hasked : (s1.modCore c.val fun k => { k with run := .waiting }).askedWay c.val = false := by
    rw [askedWay, launchOf_modCore rfl]
    exact hstay
  simp only [finish, holdOn, hasked, Bool.false_and, Bool.false_eq_true, if_false]
  split
  · next hheld =>
    subst hheld
    rw [core_modCore_self]
    exact hwait
  · exact hwait.modCore fun k => { k with heldBy := ids }

end Complete

/-! ### Arrays in program order (R110) -/

/-- An array of which nothing is known. -/
def noArrD : ArrD := ⟨none, none, none, none⟩

section ArrDFold

variable {α : Type} (key : α → Nat) (g : α → ArrD → ArrD)

/-- Arrays of a table take their updates one after another. -/
def updateArrds (l : List α) (m : SMap ArrD) : SMap ArrD :=
  l.foldl (fun m x => m.set (key x) (g x (m.getD (key x) noArrD))) m

theorem updateArrds_concat (l : List α) (x : α) (m : SMap ArrD) : updateArrds key g (l ++ [x]) m =
    (updateArrds key g l m).set (key x) (g x ((updateArrds key g l m).getD (key x) noArrD)) := List.foldl_append ..

/-- An array that no update names stays. -/
theorem getD_updateArrds_of_notMem {l : List α} {a : Nat} (h : a ∉ l.map key) (m : SMap ArrD) :
    (updateArrds key g l m).getD a noArrD = m.getD a noArrD := by
  refine List.foldlRecOn (motive := fun m' => SMap.getD m' a noArrD = m.getD a noArrD) l _ rfl fun m' hm x hx => ?_
  rw [SMap.getD_set_ne _ _ _ fun hax : a = key x => h (hax ▸ List.mem_map_of_mem hx), hm]

/-- An array that one update names takes it. -/
theorem getD_updateArrds_of_mem {l : List α} {x : α} (hl : (l.map key).Nodup) (hx : x ∈ l) (m : SMap ArrD) :
    (updateArrds key g l m).getD (key x) noArrD = g x (m.getD (key x) noArrD) := by
  induction l generalizing m with
  | nil => exact absurd hx List.not_mem_nil
  | cons y l ih =>
    obtain ⟨hy, hl⟩ := List.nodup_cons.mp hl
    rcases List.mem_cons.mp hx with rfl | hx
    · exact (getD_updateArrds_of_notMem key g hy _).trans (SMap.getD_set_self ..)
    · have hne : key x ≠ key y := fun h => hy (h ▸ List.mem_map_of_mem hx)
      exact (ih hl hx _).trans (congrArg (g x) (SMap.getD_set_ne _ _ _ hne))

/-- The same updates of the arrays of a core. -/
theorem coreOnly_updateArrds (l : List α) (s : State) (p : Nat) :
    s.CoreOnly (l.foldl (fun t x => t.setArrd p (key x) (g x (t.arrd p (key x)))) s) p
      { s.core p with arrds := updateArrds key g l (s.core p).arrds } := by
  induction l using List.reverseRecOn with
  | nil => exact .refl s p
  | append_singleton l x ih =>
    rw [List.foldl_append, updateArrds_concat]
    generalize l.foldl (fun t x => t.setArrd p (key x) (g x (t.arrd p (key x)))) s = t at ih ⊢
    have hx : t.arrd p (key x) = (updateArrds key g l (s.core p).arrds).getD (key x) noArrD := by rw [arrd, ih.1]; rfl
    have hstep := ih.modCore fun k => { k with arrds := k.arrds.set (key x) (g x (t.arrd p (key x))) }
    rw [hx] at hstep
    rw [List.foldl_cons, List.foldl_nil, hx]
    exact hstep

end ArrDFold

/-! ### Weight loads, multiplications and drains (R103, R105, R108) -/

/-- What a WLD makes of an array: its tile stands in the shadow (R103). -/
def wldUpdate (w : IWord) (d : Desc) (x : Nat × Nat) (y : ArrD) : ArrD :=
  { y with shadow := some ⟨wldWide w, d.format, d.scaling, d.ext0, colsOf (wldWide w) d.ext1 x.2⟩ }

/-- What an MST makes of an array: the shadow may become the active tile, and a bank may open (R105). -/
def mstUpdate (w : IWord) (int wide : Bool) (x : ArrD) : ArrD :=
  let y := if mstSwp w then { x with active := x.shadow, shadow := none } else x
  if mstStart w ∧ mstOut w ≠ 2 then y.setBank (mstBank w) (some (int, wide)) else y

theorem ArrD.setBank_tiles (x : ArrD) (b : Nat) (v : Option (Bool × Bool)) :
    (x.setBank b v).active = x.active ∧ (x.setBank b v).shadow = x.shadow := by
  unfold ArrD.setBank
  split <;> exact ⟨rfl, rfl⟩

theorem mstUpdate_of_swp {w : IWord} (h : mstSwp w = true) (int wide : Bool) (x : ArrD) :
    (mstUpdate w int wide x).active = x.shadow ∧ (mstUpdate w int wide x).shadow = none := by
  simp only [mstUpdate, h, if_true]
  split
  · exact ArrD.setBank_tiles ..
  · exact ⟨rfl, rfl⟩

/-- The arrays of a mask with their places are named once each. -/
theorem zipIdx_maskArrays_nodup (m : Nat) : ((maskArrays m).zipIdx.map Prod.fst).Nodup := by
  rw [List.zipIdx_map_fst]
  exact maskArrays_nodup m

section Bodies

variable {w : IWord} {p : Nat} {s : State} (hroom : s.queued p 4 < 8)

include hroom

/-- A weight load enters its queue, and every array named has its tile in the shadow. -/
theorem wldBody_enters (hbusy : (s.core p).isBusy (companionsOf ((s.core p).getT w.src1.toNat)) = false)
    (hcode : wldCode s p w = .ok) : ∃ t, wldBody w p s = .ok t ∧ s.Enters t p
      { s.core p with
        arrds := updateArrds Prod.fst (wldUpdate w ((s.core p).getT w.src1.toNat)) (maskArrays (mxMask w)).zipIdx
          (s.core p).arrds } 4 0 w 0 := by
  simp only [wldBody, hbusy, hcode, hroom.not_ge, ne_eq, not_true, if_false, Bool.false_eq_true]
  exact ⟨_, rfl, _, rfl, rfl, rfl, rfl, rfl, (coreOnly_updateArrds Prod.fst (wldUpdate w _) _ s p).dispatch _⟩

/-- An MST enters its queue, and its arrays are as it leaves them. -/
theorem mstBody_enters (hbusy : ((s.core p).getT w.src1.toNat).scaling ≠ 0 →
      (s.core p).isBusy [.t ((s.core p).getT w.src1.toNat).scaleT] = false) (hcode : mstCode s p w = .ok) :
    ∃ t, mstBody w p s = .ok t ∧ s.Enters t p
      { s.core p with
        arrds := updateArrds id (fun _ => mstUpdate w (mstInt s p w) (mstWide s p w)) (maskArrays (mxMask w))
          (s.core p).arrds } 4 1 w 0 := by
  have hfree : ¬(((s.core p).getT w.src1.toNat).scaling ≠ 0 ∧
      (s.core p).isBusy [.t ((s.core p).getT w.src1.toNat).scaleT] = true) :=
    fun ⟨hs, hb⟩ => Bool.false_ne_true ((hbusy hs).symm.trans hb)
  simp only [mstBody, if_neg hfree, hcode, hroom.not_ge, ne_eq, not_true, if_false]
  exact ⟨_, rfl, _, rfl, rfl, rfl, rfl, rfl,
    (coreOnly_updateArrds id (fun _ => mstUpdate w (mstInt s p w) (mstWide s p w)) _ s p).dispatch _⟩

theorem mdrBody_enters (hcode : mdrCode s p w = .ok) :
    ∃ t, mdrBody w p s = .ok t ∧ s.Enters t p (s.core p) 4 2 w 0 := by
  simp only [mdrBody, hcode, hroom.not_ge, ne_eq, not_true, if_false]
  exact ⟨_, rfl, _, rfl, rfl, rfl, rfl, rfl, (CoreOnly.refl s p).dispatch _⟩

end Bodies


/-! ### MTF (R109) -/

theorem jobsOf_eq_nil_of_queued {s : State} {p cls : Nat} (h : s.jobsOf p [cls] = []) : s.queued p cls = 0 := by
  have hnone := List.filter_eq_nil_iff.mp h
  rw [queued, queuedIds, List.filter_eq_nil_iff.mpr, List.map_nil, List.length_nil]
  intro j hj hq
  refine hnone j hj ?_
  simpa using (Bool.and_eq_true_iff.mp hq).1

/-- An instruction that enters the queue, writes its register and leaves has used one number. -/
theorem Core.settle_enqueue {k : Core} {j : Job} {r : RegRef} {n : BitVec 6} {v : DWord} (hid : ∀ j ∈ k.jobs, j.id < k.nextJob) :
    { (((k.enqueue j).addBusy r).setS n v).freeBusy r with
      jobs := ((((k.enqueue j).addBusy r).setS n v).freeBusy r).jobs.filter fun j => j.id != k.nextJob } =
    { k.setS n v with nextJob := k.nextJob + 1 } := by
  have hne : ∀ j ∈ k.jobs, ¬ j.id = k.nextJob := fun j hj => (hid j hj).ne
  unfold Core.setS
  split
  · simpa [Core.freeBusy, Core.addBusy, Core.enqueue] using hne
  · split <;> simpa [Core.freeBusy, Core.addBusy, Core.enqueue] using hne

section Mtf

variable {w : IWord} {p : Nat} {s : State} (hroom : s.queued p 4 < 8)

/-- The queue of matrix instructions with an MTF at its end, and its register interlocked (R81, R82). -/
def State.withMtf (s : State) (p : Nat) (w : IWord) : State :=
  (s.dispatch p (newJob 4 3 w 0 [] [] [] [])).modCore p fun k => k.addBusy (.s w.dst.toNat)

theorem coreOnly_withMtf : s.CoreOnly (s.withMtf p w) p
    (((s.core p).enqueue (newJob 4 3 w 0 [] [] [] [])).addBusy (.s w.dst.toNat)) :=
  ((CoreOnly.refl s p).dispatch _).modCore _

theorem jobsOf_withMtf : (s.withMtf p w).jobsOf p [4] = s.jobsOf p [4] ++
    [{ newJob 4 3 w 0 [] [] [] [] with id := (s.core p).nextJob, pc := (s.core p).pc }] := by
  rw [jobsOf, coreOnly_withMtf.1]
  exact List.filter_append ..

/-- An MTF behind another instruction waits (R109). -/
theorem settleMtf_of_behind {j : Job} {js : List Job} (h : s.jobsOf p [4] = j :: js) (hfunc : j.func ≠ 3) :
    settleMtf p 1 (s.withMtf p w) = s.withMtf p w := by
  rw [settleMtf, jobsOf_withMtf, h]
  exact if_neg hfunc

/-- An MTF with none before it writes the tile flags at once (R109). -/
theorem settleMtf_of_alone (h : s.jobsOf p [4] = []) (hid : ∀ j ∈ (s.core p).jobs, j.id < (s.core p).nextJob) :
    s.CoreOnly (settleMtf p 1 (s.withMtf p w)) p
      { (s.core p).setS w.dst (BitVec.ofNat 64 (tileFlags s p)) with nextJob := (s.core p).nextJob + 1 } := by
  have hflags : tileFlags (s.withMtf p w) p = tileFlags s p := by
    simp only [tileFlags, arr, coreOnly_withMtf.1]
    rfl
  have hsettle : settleMtf p 1 (s.withMtf p w) = ((s.withMtf p w).modCore p fun c =>
      (c.setS w.dst (BitVec.ofNat 64 (tileFlags s p))).freeBusy (.s w.dst.toNat)).dropJob p (s.core p).nextJob := by
    rw [settleMtf, jobsOf_withMtf, h, ← hflags]
    rfl
  have hcore := (coreOnly_withMtf (w := w) (s := s) (p := p)).modCore fun c =>
    (c.setS w.dst (BitVec.ofNat 64 (tileFlags s p))).freeBusy (.s w.dst.toNat)
  rw [hsettle]
  exact (congrArg (s.CoreOnly _ p) (Core.settle_enqueue hid)).mp (hcore.modCore _)

end Mtf

/-! ### The matrix instructions (R82, R101 to R111, R126) -/

section Clauses

variable {c : CoreId} {w : IWord} {s : State}

section Tensor

variable (h : Issues s c.val w none [.t w.src1.toNat]) (hdst : w.dst = 0) (hsrc1 : w.src1.toNat < 32) (hsrc2 : w.src2 = 0)

include h hdst hsrc1 hsrc2

theorem wld_enters (hroom : (s.afterFetch c.val none).queued c.val 4 < 8) (himm : w.imm.toNat < 32)
    (hbusy : ((s.afterFetch c.val none).core c.val).isBusy
      (companionsOf (((s.afterFetch c.val none).core c.val).getT w.src1.toNat)) = false)
    (hcode : wldCode (s.afterFetch c.val none) c.val w = .ok) :
    let k := (s.afterFetch c.val none).core c.val
    let d := k.getT w.src1.toNat
    ∃ k', Completes (.wld c w) s c.val none k' (k.pc + 8) ∧ k.Queues k' 4 0 w 0 ∧
      { k' with jobs := k.jobs, nextJob := k.nextJob, arrds := k.arrds } = k ∧
      ∀ a ∈ maskArrays (mxMask w), ∃ i, (k'.arrds.getD a ⟨none, none, none, none⟩).shadow =
        some ⟨wldWide w, d.format, d.scaling, d.ext0, colsOf (wldWide w) d.ext1 i⟩ := by
  intro k d
  obtain ⟨j, hcompletes, hqueues⟩ := completes_of_enters (i := .wld c w) rfl h
    (by simp [hdst, hsrc2, IWord.isT, hsrc1, himm]) (wldBody_enters hroom hbusy hcode)
  refine ⟨_, hcompletes, hqueues, Core.enqueue_arrds_frame .., fun a ha => ?_⟩
  obtain ⟨i, hi⟩ : ∃ i, (a, i) ∈ (maskArrays (mxMask w)).zipIdx := by
    rw [← List.zipIdx_map_fst 0 (maskArrays (mxMask w))] at ha
    obtain ⟨⟨_, i⟩, hi, rfl⟩ := List.mem_map.mp ha
    exact ⟨i, hi⟩
  exact ⟨i, congrArg ArrD.shadow (getD_updateArrds_of_mem Prod.fst (wldUpdate w d) (zipIdx_maskArrays_nodup _) hi k.arrds)⟩

theorem mst_enters (hroom : (s.afterFetch c.val none).queued c.val 4 < 8) (himm : w.imm.toNat < 2 ^ 17) (hout : mstOut w ≠ 3)
    (hbusy : (((s.afterFetch c.val none).core c.val).getT w.src1.toNat).scaling ≠ 0 →
      ((s.afterFetch c.val none).core c.val).isBusy
        [.t (((s.afterFetch c.val none).core c.val).getT w.src1.toNat).scaleT] = false)
    (hcode : mstCode (s.afterFetch c.val none) c.val w = .ok) :
    let k := (s.afterFetch c.val none).core c.val
    ∃ k', Completes (.mst c w) s c.val none k' (k.pc + 8) ∧ k.Queues k' 4 1 w 0 ∧
      { k' with jobs := k.jobs, nextJob := k.nextJob, arrds := k.arrds } = k ∧
      ∀ a ∈ maskArrays (mxMask w), mstSwp w = true →
        (k'.arrds.getD a ⟨none, none, none, none⟩).active = ((s.afterFetch c.val none).arrd c.val a).shadow ∧
        (k'.arrds.getD a ⟨none, none, none, none⟩).shadow = none := by
  intro k
  obtain ⟨j, hcompletes, hqueues⟩ := completes_of_enters (i := .mst c w) rfl h
    (by simp only [hdst, hsrc2, IWord.isT, hsrc1, himm, decide_eq_true hout]; rfl) (mstBody_enters hroom hbusy hcode)
  refine ⟨_, hcompletes, hqueues, Core.enqueue_arrds_frame .., fun a ha hswp => ?_⟩
  have harr := getD_updateArrds_of_mem id (fun _ => mstUpdate w (mstInt (s.afterFetch c.val none) c.val w)
    (mstWide (s.afterFetch c.val none) c.val w)) ((List.map_id _).symm ▸ maskArrays_nodup _) ha k.arrds
  have htiles := mstUpdate_of_swp hswp (mstInt (s.afterFetch c.val none) c.val w)
    (mstWide (s.afterFetch c.val none) c.val w) (k.arrds.getD a noArrD)
  exact ⟨(congrArg ArrD.active harr).trans htiles.1, (congrArg ArrD.shadow harr).trans htiles.2⟩

theorem mdr_enters (hroom : (s.afterFetch c.val none).queued c.val 4 < 8) (himm : w.imm.toNat < 2 ^ 13)
    (hcode : mdrCode (s.afterFetch c.val none) c.val w = .ok) :
    let k := (s.afterFetch c.val none).core c.val
    ∃ k', Completes (.mdr c w) s c.val none k' (k.pc + 8) ∧ k.Queues k' 4 2 w 0 ∧
      { k' with jobs := k.jobs, nextJob := k.nextJob } = k := by
  intro k
  obtain ⟨j, hcompletes, hqueues⟩ := completes_of_enters (i := .mdr c w) rfl h
    (by simp only [hdst, hsrc2, IWord.isT, hsrc1, himm]; rfl) (mdrBody_enters hroom hcode)
  exact ⟨_, hcompletes, hqueues, Core.enqueue_frame ..⟩

theorem mdr_waits (himm : w.imm.toNat < 2 ^ 13) (hfull : 8 ≤ (s.afterFetch c.val none).queued c.val 4)
    (hcode : mdrCode (s.afterFetch c.val none) c.val w = .ok) (hstay : (s.afterFetch c.val none).askedWay c.val = false) :
    ∃ t, exec (.mdr c w) s = .next t ∧ (s.afterFetch c.val none).CoreOnly t c.val
      { (s.afterFetch c.val none).core c.val with run := .waiting, heldBy := (s.afterFetch c.val none).queuedIds c.val 4 } := by
  refine waits_of_full (i := .mdr c w) rfl h (by simp only [hdst, hsrc2, IWord.isT, hsrc1, himm]; rfl) ?_ hstay
  simp only [mdrBody, hcode, ne_eq, not_true, if_false, if_pos hfull]

end Tensor

section Mtf

variable (h : Issues s c.val w none (sRegs [w.dst])) (hsrc1 : w.src1 = 0) (hsrc2 : w.src2 = 0) (himm : w.imm = 0)

include h hsrc1 hsrc2 himm

theorem mtf_writes_flags
    (hid : ∀ j ∈ ((s.afterFetch c.val none).core c.val).jobs, j.id < ((s.afterFetch c.val none).core c.val).nextJob)
    (halone : (s.afterFetch c.val none).jobsOf c.val [4] = []) :
    let k := (s.afterFetch c.val none).core c.val
    Completes (.mtf c w) s c.val none
      { k.setS w.dst (BitVec.ofNat 64 (tileFlags (s.afterFetch c.val none) c.val)) with nextJob := k.nextJob + 1 } (k.pc + 8) := by
  refine completes_of_coreOnly (i := .mtf c w) rfl h (by simp only [hsrc1, hsrc2, himm]; rfl) ?_ (settleMtf_of_alone halone hid)
  exact if_neg (by rw [jobsOf_eq_nil_of_queued halone]; decide)

theorem mtf_queues {j : Job} {js : List Job} (hbehind : (s.afterFetch c.val none).jobsOf c.val [4] = j :: js)
    (hfunc : j.func ≠ 3) (hroom : (s.afterFetch c.val none).queued c.val 4 < 8) :
    let k := (s.afterFetch c.val none).core c.val
    ∃ k', Completes (.mtf c w) s c.val none k' (k.pc + 8) ∧ k.Queues k' 4 3 w 0 ∧ k'.busy = .s w.dst.toNat :: k.busy := by
  intro k
  refine ⟨_, completes_of_coreOnly (i := .mtf c w) rfl h (by simp only [hsrc1, hsrc2, himm]; rfl) ?_ coreOnly_withMtf,
    Core.queues_enqueue_addBusy (j := newJob 4 3 w 0 [] [] [] []) rfl _⟩
  exact (if_neg hroom.not_ge).trans (congrArg Res.ok (settleMtf_of_behind hbehind hfunc))

end Mtf

end Clauses

/-- Settles O20: each dispatch is a change of its core alone, with the arrays' state as a fold of updates over the arrays
named. -/
theorem matrixInstructionsDispatch : Obligations.MatrixInstructionsDispatch := by
  unfold Obligations.MatrixInstructionsDispatch
  refine ⟨fun c w s h hdst hsrc1 hsrc2 hroom => ⟨?_, ?_, ?_⟩, fun c w s h hsrc1 hsrc2 himm hid => ⟨?_, ?_⟩,
    fun c w s h hdst hsrc1 hsrc2 himm hfull hcode hstay => mdr_waits h hdst hsrc1 hsrc2 himm hfull hcode hstay,
    fun c w s => ⟨fun hfree => ?_, fun hheld h => ?_⟩⟩
  · exact wld_enters h hdst hsrc1 hsrc2 hroom
  · exact mst_enters h hdst hsrc1 hsrc2 hroom
  · exact mdr_enters h hdst hsrc1 hsrc2 hroom
  · exact mtf_writes_flags h hsrc1 hsrc2 himm hid
  · exact fun j js => mtf_queues h hsrc1 hsrc2 himm
  · exact ⟨_, if_neg (by rw [hfree]; decide), (CoreOnly.refl s c.val).modCore _⟩
  · exact (if_pos hheld).trans (issue_runs h rfl)

end Sys2Proof.Machine

/-!
PROOFS. The statements of the programming model: the lookup unit dispatches and starts its instructions (O25).
-/

namespace Sys2Proof.Machine

open State

/-! ### Updates that keep memory and the tables (R193, R195) -/

/-- Working memory, host memory, the tables and their pages stay. -/
structure State.DataKept (s t : State) : Prop where
  cis : t.cis = s.cis
  host : t.host = s.host
  tables : t.tables = s.tables
  pages : t.pages = s.pages

namespace State.DataKept

variable {s t u : State}

theorem refl (s : State) : s.DataKept s := ⟨rfl, rfl, rfl, rfl⟩

theorem trans (h : s.DataKept t) (h' : t.DataKept u) : s.DataKept u :=
  ⟨h'.cis.trans h.cis, h'.host.trans h.host, h'.tables.trans h.tables, h'.pages.trans h.pages⟩

theorem foldl {α : Type} {f : State → α → State} (hf : ∀ (t : State) x, t.DataKept (f t x)) (l : List α) (s : State) :
    s.DataKept (l.foldl f s) :=
  List.foldlRecOn l f (.refl s) fun t ht x _ => ht.trans (hf t x)

theorem modCore (s : State) (p : Nat) (f : Core → Core) : s.DataKept (s.modCore p f) := ⟨rfl, rfl, rfl, rfl⟩
theorem modJob (s : State) (p i : Nat) (f : Job → Job) : s.DataKept (s.modJob p i f) := modCore ..
theorem dropJob (s : State) (p i : Nat) : s.DataKept (s.dropJob p i) := modCore ..
theorem setReg (s : State) (r : Reg) (i : Nat) (v : Word) : s.DataKept (s.setReg r i v) := ⟨rfl, rfl, rfl, rfl⟩
theorem draw (s : State) : s.DataKept s.draw.2 := ⟨rfl, rfl, rfl, rfl⟩
theorem setLink (s : State) (l : Nat) (x : Link) : s.DataKept (s.setLink l x) := ⟨rfl, rfl, rfl, rfl⟩
theorem setTxns (s : State) (x : SMap Txn) : s.DataKept { s with txns := x } := ⟨rfl, rfl, rfl, rfl⟩
theorem setParts (s : State) (e : Nat) (l : List RowPart) : s.DataKept (s.setParts e l) := ⟨rfl, rfl, rfl, rfl⟩
theorem setAdds (s : State) (e : Nat) (l : List Add) : s.DataKept (s.setAdds e l) := ⟨rfl, rfl, rfl, rfl⟩

theorem padWrite (s : State) (p a : Nat) (bs : List Byte) (poison : Bool) : s.DataKept (s.padWrite p a bs poison) := by
  have h := (PadOnly.refl s p).padWrite a bs poison
  exact ⟨h.cis, h.host, (congrArg State.tables h.frame :), (congrArg State.pages h.frame :)⟩

theorem faultCore (s : State) (p cls func : Nat) (pc : BitVec 57) (code : Code) :
    s.DataKept (s.faultCore p cls func pc code) := by
  have h := faultCore_frame s p cls func pc code
  exact ⟨(congrArg State.cis h :), (congrArg State.host h :), (congrArg State.tables h :), (congrArg State.pages h :)⟩

/-! #### Packets (R391 to R400) -/

theorem giveBack (s : State) (back : Option (Nat × Nat)) (n : Nat) : s.DataKept (s.giveBack back n) := by
  unfold State.giveBack
  split
  · exact setLink ..
  · exact .refl s

theorem sendNow (s : State) (l c : Nat) (p : Packet) : s.DataKept (s.sendNow l c p) := ⟨rfl, rfl, rfl, rfl⟩

theorem sendOn (s : State) (l : Nat) (p : Packet) (back : Option (Nat × Nat)) : s.DataKept (s.sendOn l p back) := by
  unfold State.sendOn
  dsimp only
  split
  · exact (giveBack ..).trans (sendNow ..)
  · exact setLink ..

theorem request_sent {o : Owner} {ctx va : Nat} {p : Packet} {tag : Nat} (h : s.request o ctx va p = .sent tag t) :
    s.DataKept t := by
  unfold State.request at h
  split at h
  · cases h
  · split at h
    · cases h
    · cases h
      exact (setTxns s _).trans (sendOn ..)

theorem request_undeliverable {o : Owner} {ctx va : Nat} {p : Packet} (h : s.request o ctx va p = .undeliverable t) :
    s.DataKept t := by
  unfold State.request at h
  split at h
  · cases h
    exact setReg ..
  · split at h <;> cases h

theorem waitTag (s : State) (x : Sender) (isAdd : Bool) (p : Packet) : s.DataKept (s.waitTag x isAdd p) := by
  unfold State.waitTag
  split
  · exact modCore ..
  · exact .refl s

/-! #### Bags (R187 to R189, R194, R196 to R198) -/

theorem writeFlags (s : State) (p : Nat) (j : Job) (bag : Nat) (flags : BitVec 8) (bad : Bool) :
    s.DataKept (writeFlags s p j bag flags bad) := by
  unfold Machine.writeFlags
  split
  · exact padWrite ..
  · exact .refl s

theorem bagDone (s : State) (p : Nat) (j : Job) : s.DataKept (bagDone s p j) := by
  unfold Machine.bagDone
  split
  · split
    · exact dropJob ..
    · exact modJob ..
  · exact .refl s

theorem writeBag (s : State) (p : Nat) (j : Job) (b : Bag) : s.DataKept (writeBag s p j b) := by
  unfold Machine.writeBag
  dsimp only
  split
  · exact (draw s).trans ((padWrite ..).trans ((writeFlags ..).trans (bagDone ..)))
  · exact (draw s).trans ((padWrite ..).trans ((writeFlags ..).trans (bagDone ..)))

theorem lkFault (s : State) (p : Nat) (j : Job) (bags : List Nat) (code : Code) : s.DataKept (lkFault s p j bags code) := by
  unfold Machine.lkFault
  dsimp only
  refine trans ?_ (faultCore ..)
  split
  · exact foldl (fun t b => (draw t).trans ((writeFlags ..).trans (padWrite ..))) bags s
  · exact .refl s

theorem sendLk (s : State) (p : Nat) (j : Job) (bag : Nat) (isAdd : Bool) (pkt : Packet) :
    s.DataKept (sendLk s p j bag isAdd pkt) := by
  unfold Machine.sendLk
  dsimp only
  split
  · exact (setReg ..).trans (lkFault ..)
  · split
    · next h => exact request_sent h
    · exact waitTag ..
    · next h => exact (request_undeliverable h).trans (lkFault ..)

theorem sendPart (p : Nat) (j : Job) (bag : Nat) (s : State) (x : Nat × Nat × List (Nat × Word)) :
    s.DataKept (sendPart p j bag s x) := by
  unfold Machine.sendPart
  dsimp only
  split
  · exact .refl s
  · split
    · exact setParts ..
    · exact sendLk ..

theorem sendBag (p : Nat) (j : Job) (s : State) (b : BagWait) : s.DataKept (sendBag p j s b) :=
  (modCore s p _).trans (foldl (sendPart p j b.bag) ..)

theorem emptyBag (p : Nat) (s : State) (b : BagWait) : s.DataKept (emptyBag p s b) := by
  unfold Machine.emptyBag
  split
  · exact .refl s
  · exact (modCore ..).trans (writeBag ..)

theorem nextBags (p n : Nat) (s : State) : s.DataKept (nextBags p n s) := by
  induction n generalizing s with
  | zero => exact .refl s
  | succ n ih =>
    unfold Machine.nextBags
    split
    · exact .refl s
    · split
      · exact (modCore ..).trans (ih _)
      · split
        · exact (modCore ..).trans ((sendBag ..).trans (ih _))
        · exact .refl s

/-! #### The start of an instruction (R195, R198) -/

theorem startLkp (s : State) (p : Nat) (j : Job) (t : Table) (l : LkLists) : s.DataKept (startLkp s p j t l) :=
  (modCore s p _).trans ((foldl (emptyBag p) ..).trans (nextBags ..))

theorem sendAdd (p : Nat) (j : Job) (t : Table) (s : State) (x : Nat × Nat × List Word × Bool) :
    s.DataKept (sendAdd p j t s x) := by
  unfold Machine.sendAdd
  dsimp only
  split
  · exact .refl s
  · split
    · exact setAdds ..
    · refine foldl (fun u pkt => ?_) _ _
      split
      · exact .refl u
      · exact sendLk ..

theorem startLku (s : State) (p : Nat) (j : Job) (t : Table) (l : LkLists) : s.DataKept (startLku s p j t l) := by
  unfold Machine.startLku
  dsimp only
  split
  · refine (draw s).trans (trans ?_ (dropJob ..))
    exact foldl (fun u x => writeFlags ..) _ _
  · refine (draw s).trans (trans ?_ ((modJob ..).trans (foldl (sendAdd p j t) ..)))
    exact foldl (fun u x => writeFlags ..) _ _

end State.DataKept

/-! ### Dispatch (R82, R193) -/

theorem lkBody_enters {lku : Bool} {w : IWord} {w2 : DWord} {p : Nat} {s : State}
    (hcode : lkCode s p lku w (LkExt.of lku w2) = .ok) (hroom : s.queued p 7 < 32) : ∃ t, lkBody lku w w2 p s = .ok t ∧ s.Enters t p (s.core p) 7 (bit lku) w w2 := by
  simp only [lkBody, hcode, hroom.not_ge, ne_eq, not_true, if_false]
  exact ⟨_, rfl, _, rfl, rfl, rfl, rfl, rfl, (CoreOnly.refl s p).dispatch _⟩

/-- A lookup instruction enters its queue, waits for it, or is rejected with the code of its checks. -/
theorem lookup_dispatches {lku : Bool} {c : CoreId} {w : IWord} {w2 : DWord} {i : Instr} {s : State}
    (hi : exec i s = issue 7 (bit lku) w (some w2) (lkFields lku w w2)
      ((lkReads w (LkExt.of lku w2) ++ lkWrites lku w (LkExt.of lku w2)).map .t) c.val (lkBody lku w w2 c.val) s)
    (h : Issues s c.val w (some w2) ((lkReads w (LkExt.of lku w2) ++ lkWrites lku w (LkExt.of lku w2)).map .t))
    (hf : lkFields lku w w2 = true) :
    let s1 := s.afterFetch c.val (some w2)
    let k := s1.core c.val
    let code := lkCode s1 c.val lku w (LkExt.of lku w2)
    (code = .ok → s1.queued c.val 7 < 32 → ∃ k', Completes i s c.val (some w2) k' (k.pc + 16) ∧ k.Queues k' 7 (bit lku) w w2 ∧
      { k' with jobs := k.jobs, nextJob := k.nextJob } = k) ∧
    (code = .ok → 32 ≤ s1.queued c.val 7 → s1.askedWay c.val = false → ∃ t, exec i s = .next t ∧
      State.CoreOnly s1 t c.val { k with run := .waiting, heldBy := s1.queuedIds c.val 7 }) ∧
    (code ≠ .ok → exec i s = .next (s1.faultCore c.val 7 (bit lku) k.pc code)) := by
  refine ⟨fun hcode hroom => ?_, fun hcode hfull hstay => ?_, fun hcode => ?_⟩
  · obtain ⟨j, hcompletes, hqueues⟩ := completes_of_enters hi h hf (lkBody_enters hcode hroom)
    exact ⟨_, hcompletes, hqueues, Core.enqueue_frame ..⟩
  · refine waits_of_full hi h hf ?_ hstay
    simp only [lkBody, hcode, ne_eq, not_true, if_false, if_pos hfull]
  · have hbad : lkBody lku w w2 c.val (s.afterFetch c.val (some w2)) =
        .bad (s.afterFetch c.val (some w2)) (lkCode (s.afterFetch c.val (some w2)) c.val lku w (LkExt.of lku w2)) := if_pos hcode
    rw [hi, issue_runs h hf, hbad]
    rfl

/-! ### A lookup that starts (R178, R194 to R198) -/

/-- A lookup that ends its launch stops its core with the code (R194). -/
theorem core_lkFault (s : State) (p : Nat) (j : Job) (bags : List Nat) (code : Code) :
    ((lkFault s p j bags code).core p).run = .stopped ∧ ((lkFault s p j bags code).core p).fault = code :=
  let h := core_faultCore _ p 7 j.func j.pc code
  ⟨h.1, h.2.1⟩

/-- A row at home makes one part (R178). -/
theorem partsOfBag_single {s : State} {tid row e : Nat} {t : Table} (h : s.homeOf tid t (t.groupOf row) = (s.node, e))
    (weighted : Bool) (w : Word) : partsOfBag s tid t weighted [(row, w)] = [(s.node, e, [(row, w)])] := by
  simp [partsOfBag, h, List.eraseDups_cons]

theorem inRange_single {l : LkLists} {row rows : Nat} (hidx : l.idx = [row]) (hrow : row < rows) :
    inRange l rows (0, 1) = [0] := by
  simp [inRange, hidx, hrow]

/-- The part of a bag that an engine of this module pools (R197). -/
def homePart (p : Nat) (j : Job) (bag e : Nat) (items : List (Nat × Word)) : RowPart :=
  ⟨.core p j.id bag, lkTid j.w, j.target, e, if (lkExt j).raw then 3 else if (lkExt j).wgt.isSome then 4 else lkOp j.w, items,
    [], 0, 0, false, [], 0, false, false, [], []⟩

/-- A part of this module enters the list of its engine (R197). -/
theorem sendPart_home {s : State} {p bag e : Nat} {j : Job} {items : List (Nat × Word)} (hjob : s.job p j.id = some j) :
    sendPart p j bag s (s.node, e, items) = s.setParts e (s.partsOf e ++ [homePart p j bag e items]) := by
  simp only [sendPart, hjob, Option.isNone_some, Bool.false_eq_true, if_false, if_true]
  rfl

/-- A bag takes its space in the combiner (R198). -/
def State.openBag (s : State) (p : Nat) (b : BagWait) : State :=
  s.modCore p fun k => { k with bags := k.bags ++ [⟨b.job, b.bag, b.parts.length, [], 0, b.flags, b.bad, []⟩] }

theorem sendBag_eq (p : Nat) (j : Job) (s : State) (b : BagWait) :
    sendBag p j s b = b.parts.foldl (sendPart p j b.bag) (s.openBag p b) := rfl

/-- A bag with one part of this module is sent to its engine (R197, R198). -/
theorem sendBag_single {s : State} {p e : Nat} {j : Job} {b : BagWait} {items : List (Nat × Word)}
    (hjob : s.job p j.id = some j) (hparts : b.parts = [(s.node, e, items)]) :
    (sendBag p j s b).partsOf e = s.partsOf e ++ [homePart p j b.bag e items] ∧ (sendBag p j s b).job p j.id = some j := by
  have hkept : (s.openBag p b).job p j.id = some j := (job_modCore _ _ _ _ rfl).trans hjob
  have hsend : sendPart p j b.bag (s.openBag p b) (s.node, e, items) = _ := sendPart_home hkept
  rw [sendBag_eq, hparts, List.foldl_cons, List.foldl_nil, hsend]
  exact ⟨SMap.getD_set_self .., hkept⟩

/-- The one bag that waits is sent when the combiner is empty (R198). -/
theorem nextBags_single {s : State} {p : Nat} {j : Job} {b : BagWait} (hwaits : (s.core p).bagWaits = [b])
    (hbags : (s.core p).bags = []) (hjob : s.job p b.job = some j) (hroom : 4 * j.cols ≤ 65536) :
    nextBags p 1 s = sendBag p j (s.modCore p fun k => { k with bagWaits := [] }) b := by
  have hfits : combinerRoom s p j = true := by simp [combinerRoom, hbags, hroom]
  simp only [nextBags, hwaits, hjob, hfits, if_true]

/-- A GATHER of one row of this module, alone in its core's combiner, sends one part to the row's home engine (R178, R197). -/
theorem startLkp_single {s : State} {p row e : Nat} {j : Job} {t : Table} {l : LkLists} (hjob : s.job p j.id = some j)
    (hspans : l.spans = [(0, 1)]) (hidx : l.idx = [row]) (hrow : row < t.rows)
    (hhome : s.homeOf (lkTid j.w) t (t.groupOf row) = (s.node, e)) (hbags : (s.core p).bags = [])
    (hwaits : (s.core p).bagWaits = []) (hroom : 4 * j.cols ≤ 65536) :
    (startLkp s p j t l).partsOf e = s.partsOf e ++ [homePart p j 0 e [(row, l.wgt 0)]] ∧
      (startLkp s p j t l).job p j.id = some j := by
  have hpart := partsOfBag_single hhome (lkExt j).wgt.isSome (l.wgt 0)
  let b : BagWait := ⟨j.id, 0, (bagFlags l t.rows 0 (0, 1)).1, (bagFlags l t.rows 0 (0, 1)).2, [(s.node, e, [(row, l.wgt 0)])]⟩
  have hstart : startLkp s p j t l = nextBags p 1 (s.modCore p fun k => { k with bagWaits := k.bagWaits ++ [b] }) := by
    simp [startLkp, hspans, inRange_single hidx hrow, hidx, hpart, hwaits, b]
  have hcore := core_modCore_self s p fun k => { k with bagWaits := k.bagWaits ++ [b] }
  have hkept : (s.modCore p fun k => { k with bagWaits := k.bagWaits ++ [b] }).job p j.id = some j :=
    (job_modCore _ _ _ _ rfl).trans hjob
  rw [hstart, nextBags_single (b := b) (by rw [hcore, hwaits]; rfl) (by rw [hcore]; exact hbags) hkept hroom]
  exact sendBag_single ((job_modCore _ _ _ _ rfl).trans hkept) rfl

/-- Without an offsets list every index is a bag of its own (R185). -/
theorem readLists_spans_of_gather {s : State} {p row : Nat} {j : Job} (hop : lkOp j.w = 0)
    (hidx : (readLists s p j).idx = [row]) : (readLists s p j).spans = [(0, 1)] := by
  have hcount : lkCount j.w j.main = 1 := by
    have hlen := congrArg List.length hidx
    simpa only [readLists, List.length_map, List.length_range, List.length_singleton] using hlen
  simp [readLists, lkBags, hop, hcount]

/-- A lookup marked as started (R195). -/
def State.lookupRuns (s : State) (p : Nat) (j : Job) : State := s.modJob p j.id fun x => { x with prog := .running }

/-- What the start of a lookup makes of the state (R194, R195). -/
def State.lookupStarted (s : State) (p : Nat) (j : Job) (t : Table) (l : LkLists) : State :=
  if badLists l (lkSkip j.w) t.rows then lkFault (s.lookupRuns p j) p j (List.range l.spans.length) .range
  else if j.func = 1 then startLku (s.lookupRuns p j) p j t l else startLkp (s.lookupRuns p j) p j t l

/-- The first lookup whose bytes are free starts (R195). -/
theorem exec_lookupUnitStart {c : CoreId} {s : State} {j : Job} {t : Table}
    (hfind : ((s.jobsOf c.val [7]).find? fun j => j.prog == .queued && padClear (s.before c.val j.id) j) = some j)
    (htable : s.table (lkTid j.w) = some t) :
    exec (.lookupUnitStart c) s = .next (s.lookupStarted c.val j t (readLists s c.val j)) := by
  change execLookupUnitStart c s = _
  simp only [execLookupUnitStart, hfind, htable, lookupStarted]
  split <;> rfl

theorem dataKept_lookupStarted (s : State) (p : Nat) (j : Job) (t : Table) (l : LkLists) :
    s.DataKept (s.lookupStarted p j t l) := by
  refine (DataKept.modJob ..).trans (?_ : (s.lookupRuns p j).DataKept _)
  unfold State.lookupStarted
  split
  · exact .lkFault ..
  · split
    · exact .startLku ..
    · exact .startLkp ..

/-- Settles O25: whatever a lookup sends, memory and the tables stay, and the one row of a GATHER makes the one part of a
bag that its empty combiner has room for. -/
theorem lookupUnitRuns : Obligations.LookupUnitRuns := by
  unfold Obligations.LookupUnitRuns
  refine ⟨fun c w w2 s => ⟨lookup_dispatches rfl, lookup_dispatches rfl⟩, fun c s j t hfind hjob htable => ?_⟩
  have hkept := dataKept_lookupStarted s c.val j t (readLists s c.val j)
  refine ⟨_, exec_lookupUnitStart hfind htable, hkept.cis, hkept.host, hkept.tables, hkept.pages, fun hbad => ?bad,
    fun row e hgood hfunc hop hwgt hidx hrow hhome hbags hwaits hroom => ?gather⟩
  case bad =>
    rw [lookupStarted, if_pos hbad]
    exact core_lkFault ..
  case gather =>
    have hlkp : j.func ≠ 1 := by rw [hfunc]; decide
    have hruns : (s.lookupRuns c.val j).job c.val j.id = some { j with prog := .running } :=
      job_modJob_self (fun _ => rfl) hjob
    have hcore : (s.lookupRuns c.val j).core c.val = _ := core_modCore_self ..
    obtain ⟨hparts, hstays⟩ := startLkp_single (s := s.lookupRuns c.val j) (j := { j with prog := .running }) hruns
      (readLists_spans_of_gather hop hidx) hidx hrow hhome (by rw [hcore]; exact hbags) (by rw [hcore]; exact hwaits) hroom
    have hpart : homePart c.val { j with prog := .running } 0 e [(row, (readLists s c.val j).wgt 0)] =
        ⟨.core c.val j.id 0, lkTid j.w, j.target, e, if (lkExt j).raw then 3 else 0, [(row, (readLists s c.val j).wgt 0)],
          [], 0, 0, false, [], 0, false, false, [], []⟩ := by
      have hext : lkExt { j with prog := .running } = lkExt j := rfl
      simp [homePart, hext, hwgt, hop]
    rw [lookupStarted, if_neg (by rw [hgood]; decide), if_neg hlkp]
    exact ⟨hpart ▸ hparts, hstays⟩

end Sys2Proof.Machine

/-!
PROOFS. The statements of the vector chain: a VCH is dispatched, starts and completes (O22).
-/

namespace Sys2Proof.Machine

open State

/-! ### Dispatch (R128, R145, R147) -/

/-- The forwarding MST that a VCH pairs with as it is dispatched (R145). -/
def vPartner (s : State) (p : Nat) (w : IWord) : Option Job :=
  if vSrc w = 2 ∧ (s.unpaired p).length = 1 then (s.unpaired p).head? else none

theorem vPartner_of_undirected (s : State) (p : Nat) {w : IWord} (h : vSrc w ≠ 2) : vPartner s p w = none :=
  if_neg fun hw => h hw.1

theorem vPartner_of_unpaired {s : State} {p : Nat} {w : IWord} {m : Job} (h : vSrc w = 2) (hm : s.unpaired p = [m]) :
    vPartner s p w = some m := by
  simp [vPartner, h, hm]

/-- Jobs in which the MST that a VCH pairs with, if there is one, names instruction `v` as its partner (R145). -/
def pairJobs (mst : Option Job) (v : Nat) (l : List Job) : List Job :=
  match mst with
  | some m => l.map fun x => if x.id = m.id then { x with pair := some v } else x
  | none => l

/-- A core as a VCH enters its queue: its partner names it, and the register that takes the count of its residual list is
interlocked (R81, R141, R145). -/
def Core.enqueueVch (k : Core) (j : Job) (mst : Option Job) (w : IWord) (ch : Chain) : Core :=
  { k.enqueue j with
    jobs := pairJobs mst k.nextJob (k.enqueue j).jobs
    busy := if ch.rcap then .s (vSb w + 7) :: k.busy else k.busy }

theorem Core.enqueueVch_frame (k : Core) (j : Job) (mst : Option Job) (w : IWord) (ch : Chain) :
    { k.enqueueVch j mst w ch with jobs := k.jobs, nextJob := k.nextJob, busy := k.busy } = k := rfl

/-- An MST with an earlier number is another instruction than the VCH that enters. -/
theorem Core.jobs_enqueueVch {k : Core} {m : Job} (h : m.id < k.nextJob) (j : Job) (w : IWord) (ch : Chain) :
    (k.enqueueVch j (some m) w ch).jobs =
      pairJobs (some m) k.nextJob k.jobs ++ [{ j with id := k.nextJob, pc := k.pc }] := by
  simp [enqueueVch, enqueue, pairJobs, h.ne']

/-- The job of a VCH as it is dispatched (R82, R128). -/
structure Job.IsVch (j : Job) (w : IWord) (w2 : DWord) (mst : Option Job) : Prop where
  prog : j.prog = .queued
  cls : j.cls = 5
  func : j.func = 0
  w : j.w = w
  w2 : j.w2 = w2
  pair : j.pair = mst.map (·.id)

theorem Core.queues_enqueueVch {j : Job} {w : IWord} {w2 : DWord} (h : j.IsVch w w2 none) (k : Core) (ch : Chain) :
    k.Queues (k.enqueueVch j none w ch) 5 0 w w2 := ⟨_, rfl, rfl, rfl, rfl, h.cls, h.func, h.w, h.w2, h.prog⟩

/-- A VCH whose checks pass enters its queue (R128, R147). -/
theorem vchBody_enters {w : IWord} {w2 : DWord} {p : Nat} {s : State}
    (hbusy : (s.core p).isBusy ((vCompanions (s.core p).getT w (Chain.of w2)).map .t) = false) (hroom : s.queued p 5 < 8)
    (hcode : vchCode s p w (Chain.of w2) (vPartner s p w) = .ok) : ∃ t, ∃ j : Job, vchBody w w2 p s = .ok t ∧
      j.IsVch w w2 (vPartner s p w) ∧ s.CoreOnly t p ((s.core p).enqueueVch j (vPartner s p w) w (Chain.of w2)) := by
  unfold vchBody
  extract_lets k ch t mst code a e rows reads writes scal j0 j s1 s2
  have hok : code = .ok := hcode
  rw [if_neg (Bool.eq_false_iff.mp hbusy), if_neg (not_not.mpr hok), if_neg hroom.not_ge]
  have hpaired : s.CoreOnly s2 p { k.enqueue j with jobs := pairJobs mst k.nextJob (k.enqueue j).jobs } := by
    have hdispatch : s.CoreOnly s1 p (k.enqueue j) := (CoreOnly.refl s p).dispatch j
    clear_value s1 j mst
    cases mst with
    | some m => exact hdispatch.modCore _
    | none => exact hdispatch
  refine ⟨_, j, rfl, ⟨rfl, rfl, rfl, rfl, rfl, rfl⟩, ?_⟩
  unfold Core.enqueueVch
  split
  · exact hpaired.modCore _
  · exact hpaired

/-- The instruction completes on its core, whose queue has the VCH at its end (R82, R128). -/
theorem vch_enters {c : CoreId} {w : IWord} {w2 : DWord} {s : State} {mst : Option Job}
    (h : Issues s c.val w (some w2) ((vNamed w (Chain.of w2)).map .t ++ (List.range 8).map (fun i => .s (vSb w + i))))
    (hf : vchFields w w2 = true) (hroom : (s.afterFetch c.val (some w2)).queued c.val 5 < 8)
    (hmst : vPartner (s.afterFetch c.val (some w2)) c.val w = mst)
    (hcode : vchCode (s.afterFetch c.val (some w2)) c.val w (Chain.of w2) mst = .ok) :
    let k := (s.afterFetch c.val (some w2)).core c.val
    k.isBusy ((vCompanions k.getT w (Chain.of w2)).map .t) = false →
    ∃ j : Job, j.IsVch w w2 mst ∧
      Completes (.vch c w w2) s c.val (some w2) (k.enqueueVch j mst w (Chain.of w2)) (k.pc + 16) := by
  intro k hbusy
  subst hmst
  obtain ⟨t, j, hbody, hj, hcore⟩ := vchBody_enters hbusy hroom hcode
  exact ⟨j, hj, completes_of_coreOnly (i := .vch c w w2) rfl h hf hbody hcore⟩

/-! ### The start of a VCH (R149) -/

section Start

variable {s : State} {c : CoreId} {j : Job} (hj : ((s.jobsOf c.val [5]).find? fun j => j.prog == .queued) = some j)

include hj

theorem vchStart_held (hr : vchReady s c.val j = false) : exec (.vchStart c) s = .next s := by
  change execVchStart c s = _
  simp [execVchStart, hj, hr]

/-- A VCH that is ready takes its cycles, its table and its latched operands (R149, R151). -/
theorem vchStart_ready (hsrc : vSrc j.w ≠ 2) (hr : vchReady s c.val j = true) : ∃ n, exec (.vchStart c) s =
    .next ((s.bump64 .vcuCycLo .vcuCycHi c.val n).modJob c.val j.id (s.startVch c.val)) := by
  change ∃ n, execVchStart c s = _
  simp only [execVchStart, hj, hsrc, hr, decide_false, Bool.not_true, Bool.or_false, Bool.false_eq_true, if_false]
  exact ⟨_, rfl⟩

end Start

/-! ### The completion of a VCH (R151) -/

theorem State.PadOnly.ite {s t u : State} {p : Nat} {b : Prop} [Decidable b] (ht : s.PadOnly t p) (hu : s.PadOnly u p) :
    s.PadOnly (if b then t else u) p := by
  split
  · exact ht
  · exact hu

namespace State.CoreRegsOnly

variable {s t u : State} {p : Nat}

theorem ite {b : Prop} [Decidable b] (ht : s.CoreRegsOnly t p) (hu : s.CoreRegsOnly u p) :
    s.CoreRegsOnly (if b then t else u) p := by
  split
  · exact ht
  · exact hu

theorem padPoison (h : s.CoreRegsOnly t p) : t.padPoison = s.padPoison := (congrArg State.padPoison h.frame :)

theorem setFlag (h : s.CoreRegsOnly t p) (r : Reg) (i b : Nat) (x : Bool) : s.CoreRegsOnly (t.setFlag r i b x) p := h.setReg ..

theorem stickyN (h : s.CoreRegsOnly t p) (b n : Nat) : s.CoreRegsOnly (t.stickyN p b n) p :=
  .ite h ((h.setFlag ..).bump ..)

theorem countSat (h : s.CoreRegsOnly t p) (n : Nat) : s.CoreRegsOnly (t.countSat p n) p :=
  .ite h (((h.bump ..).setFlag ..).bump ..)

end State.CoreRegsOnly

/-- A block of an output row writes its residual entry and its scale (R54, R141). -/
theorem padOnly_putBlock (p : Nat) (j : Job) (ch : Chain) (o : OutCfg) (d : Desc) (r : Nat) (acc : VAcc)
    (x : Nat × Nat × List Lane × OutBlock) : acc.s.PadOnly (putBlock p j ch o d r acc x).s p := by
  unfold putBlock
  obtain ⟨b, pos, lanes, ob⟩ := x
  dsimp -zeta only
  extract_lets hit rs res a entered sa
  have hentry : acc.s.PadOnly entered.s p := by
    clear_value res
    rcases res with _ | ⟨code, es⟩
    · exact .refl ..
    · unfold entered
      dsimp only
      split
      · exact .refl ..
      · exact (PadOnly.refl ..).padWrite ..
  exact .ite hentry (hentry.padWrite ..)

/-- Blocks or rows that are written one after another. -/
theorem padOnly_foldl {α : Type} {s : State} {p : Nat} {step : VAcc → α → VAcc}
    (hstep : ∀ (acc : VAcc) x, acc.s.PadOnly (step acc x).s p) (l : List α) {acc : VAcc} (h : s.PadOnly acc.s p) :
    s.PadOnly (l.foldl step acc).s p :=
  List.foldlRecOn (motive := fun a : VAcc => s.PadOnly a.s p) l step h fun a ha x _ => ha.trans (hstep a x)

/-- The lanes of a row are written to the output tensor (R141). -/
theorem padOnly_putRow (p : Nat) (j : Job) (ch : Chain) (o : Nat → OutCfg) (d : Desc) (acc : VAcc) (x : List Lane × Nat) :
    acc.s.PadOnly (putRow p j ch o d acc x).s p :=
  (padOnly_foldl (fun _ _ => padOnly_putBlock ..) _ (.refl ..)).padWrite ..

/-- The results of a row are written to the row tensor (R140). -/
theorem padOnly_putUV (p : Nat) (j : Job) (ch : Chain) (free : Nat → Nat → BitVec 64) (acc : VAcc) (x : List Lane × Nat) :
    acc.s.PadOnly (putUV p j ch free acc x).s p := (PadOnly.refl ..).padWrite ..

/-- A VCH that completes writes the scratchpad of its core, and none of it without an output, row results and a map; then it
changes its core and its counters, and its job is gone (R151). -/
theorem finishVch_spec (s : State) (p : Nat) (j : Job) : ∃ t, s.PadOnly t p ∧ t.CoreRegsOnly (finishVch s p j) p ∧
    (finishVch s p j).job p j.id = none ∧
    (vNout j.w = true → (Chain.of j.w2).rwov = false → (Chain.of j.w2).smap = false → t = s) := by
  unfold finishVch
  extract_lets ch t at0 tbl tblBad tblKey free rows inval d core o acc0 acc1 acc2 s1 s2 s3 s4 s5 s6 s7
  have hresults : s.PadOnly acc1.s p := by
    unfold acc1
    split
    · exact padOnly_foldl (fun _ _ => padOnly_putUV ..) _ (.refl ..)
    · exact .refl ..
  have hrows : s.PadOnly s1 p := by
    unfold s1 acc2
    split
    · exact hresults
    · exact padOnly_foldl (fun _ _ => padOnly_putRow ..) _ hresults
  have hmap : s.PadOnly s2 p := .ite (hrows.padWrite ..) hrows
  have hmarks : s.PadOnly s3 p :=
    List.foldlRecOn (motive := fun u : State => s.PadOnly u p) _ _ hmap fun _ hu _ _ => hu.padMark ..
  have hflags : s3.CoreRegsOnly s4 p := ((((CoreRegsOnly.refl ..).countSat ..).stickyN ..).stickyN ..).stickyN ..
  have hrowCount : s3.CoreRegsOnly s5 p := .ite (hflags.bump ..) hflags
  have hseed : s3.CoreRegsOnly s6 p := hrowCount.modCore _
  have hlist : s3.CoreRegsOnly s7 p := .ite (hseed.modCore _) hseed
  refine ⟨s3, hmarks, hlist.dropJob _, job_dropJob_self .., fun hout hres hsmap => ?_⟩
  have hacc : acc2 = acc0 := (if_pos hout).trans (if_neg (by rw [hres]; decide))
  have hs2 : s2 = acc2.s := if_neg (by rw [hsmap]; decide)
  simp only [s3, hs2, hacc, acc0, List.foldl_nil]

/-- The oldest VCH that runs completes, under DIRECT once its rows have come (R151). -/
theorem vchComplete_finish {s : State} {c : CoreId} {j : Job}
    (hj : ((s.jobsOf c.val [5]).find? fun j => j.prog == .running) = some j) (hrows : vSrc j.w = 2 → j.fwd.isSome = true) :
    exec (.vchComplete c) s = .next (finishVch s c.val j) := by
  have hcome : ¬(vSrc j.w = 2 ∧ j.fwd.isNone = true) :=
    fun ⟨hsrc, hnone⟩ => Option.isSome_iff_ne_none.mp (hrows hsrc) (Option.isNone_iff_eq_none.mp hnone)
  change execVchComplete c s = _
  simp only [execVchComplete, hj, if_neg hcome]

/-! ### Statements that hold -/

/-- Settles O22: a VCH enters the queue of its core and its partner names it; its start changes its core and its cycle counters,
and its completion writes its core's scratchpad before it does. -/
theorem vectorChainsRun : Obligations.VectorChainsRun := by
  unfold Obligations.VectorChainsRun
  refine ⟨fun c w w2 s h hf hbusy hroom => ⟨fun hsrc hcode => ?undirected, fun m hsrc hm hid hcode => ?direct⟩,
    fun c s j => ⟨fun hj hjob hsrc => ⟨fun hr => ?starts, fun hr => vchStart_held hj hr⟩, fun hj hrows => ?completes⟩⟩
  case undirected =>
    obtain ⟨j, hvch, hcompletes⟩ := vch_enters h hf hroom (vPartner_of_undirected _ _ hsrc) hcode hbusy
    exact ⟨_, hcompletes, Core.queues_enqueueVch hvch _ _, rfl, Core.enqueueVch_frame ..⟩
  case direct =>
    obtain ⟨j, hvch, hcompletes⟩ := vch_enters h hf hroom (vPartner_of_unpaired hsrc hm) hcode hbusy
    have hjobs := Core.jobs_enqueueVch hid j w (Chain.of w2)
    refine ⟨_, _, hcompletes, (congrArg List.getLast? hjobs).trans List.getLast?_concat, hvch.pair, rfl, rfl, fun x hx hxid => ?_⟩
    rw [hjobs]
    exact List.mem_append_left _ (List.mem_map.mpr ⟨x, hx, if_pos hxid⟩)
  case starts =>
    obtain ⟨n, hexec⟩ := vchStart_ready hj hsrc hr
    exact ⟨_, hexec, job_modJob_self (fun _ => rfl) hjob, rfl⟩
  case completes =>
    obtain ⟨t, hpad, honly, hgone, hnone⟩ := finishVch_spec s c.val j
    refine ⟨_, vchComplete_finish hj hrows, hgone, honly.cis.trans hpad.cis, honly.host.trans hpad.host,
      fun q hq => ⟨(honly.others q hq).trans (hpad.core q), ?_⟩, fun hout hres hmap => ?_⟩
    · rw [pad, honly.pads]
      exact hpad.others q hq
    · have ht := hnone hout hres hmap
      exact ⟨honly.pads.trans (congrArg State.pads ht), honly.padPoison.trans (congrArg State.padPoison ht)⟩

end Sys2Proof.Machine

/-!
PROOFS. The statements of the scratchpad and the streams: descriptors are dispatched, start, go on and complete (O23, O24).
-/

namespace Sys2Proof.Machine

open State

/-! ### Dispatch (R157 to R160) -/

/-- A core that takes one more descriptor, whose slot has no stream record yet. -/
def Core.enqueueDesc (k : Core) (j : Job) : Core := { k.enqueue j with srec := k.srec.erase j.slot }

theorem Core.enqueueDesc_frame (k : Core) (j : Job) :
    { k.enqueueDesc j with jobs := k.jobs, nextJob := k.nextJob, srec := k.srec } = k := rfl

theorem Core.queues_enqueueDesc {k : Core} {j : Job} (h : j.prog = .queued) :
    k.Queues (k.enqueueDesc j) j.cls j.func j.w j.w2 := Core.queues_enqueue h

theorem Core.lastSlot_enqueueDesc (k : Core) (j : Job) : (k.enqueueDesc j).jobs.getLast?.map (·.slot) = some j.slot :=
  congrArg (Option.map (·.slot)) (List.getLast?_concat (l := k.jobs))

/-- The tensors that a class 0x06 instruction names: FIL has no source (R158, R159). -/
def dmaTensors (k : Core) (func : Nat) (w : IWord) : List Desc :=
  if func = 1 then [k.getT w.dst.toNat] else [k.getT w.src1.toNat, k.getT w.dst.toNat]

/-- A descriptor whose checks pass and for which a slot is free takes the lowest free one. -/
theorem dmaBody_enters {func : Nat} {w : IWord} {p : Nat} {s : State} (hcode : dmaCode s p func w = .ok)
    (hbusy : (s.core p).isBusy ((((dmaTensors (s.core p) func w).filter fun d => d.scaling != 0).map Desc.scaleT).map .t) = false)
    (hroom : (s.dmaJobs p).length < s.fld .dmaCtrl p 4 0) : ∃ t, ∃ j : Job, dmaBody func w p s = .ok t ∧
      (j.prog = .queued ∧ j.cls = 6 ∧ j.func = func ∧ j.w = w ∧ j.w2 = 0 ∧ j.slot = freeSlot s p) ∧
      s.CoreOnly t p ((s.core p).enqueueDesc j) := by
  unfold dmaBody
  extract_lets k t a b ds comps code depth slot pads regs new j
  have hok : code = .ok := hcode
  have hfree : ¬k.isBusy (comps.map .t) = true := Bool.eq_false_iff.mp hbusy
  rw [if_neg hfree, if_neg (not_not.mpr hok), if_neg hroom.not_ge]
  exact ⟨_, j, rfl, ⟨rfl, rfl, rfl, rfl, rfl, rfl⟩, ((CoreOnly.refl s p).dispatch j).modCore _⟩

/-- Such an instruction completes on its core. -/
theorem dma_enters {func : Nat} {w : IWord} {c : CoreId} {s : State} {i : Instr} {fields : Bool} {regs : List RegRef}
    (hi : exec i s = issue 6 func w none fields regs c.val (dmaBody func w c.val) s) (h : Issues s c.val w none regs)
    (hf : fields = true) :
    let s1 := s.afterFetch c.val none
    let k := s1.core c.val
    dmaCode s1 c.val func w = .ok →
    k.isBusy ((((dmaTensors k func w).filter fun d => d.scaling != 0).map Desc.scaleT).map .t) = false →
    (s1.dmaJobs c.val).length < s1.fld .dmaCtrl c.val 4 0 →
    ∃ k', Completes i s c.val none k' (k.pc + 8) ∧ k.Queues k' 6 func w 0 ∧
      k'.jobs.getLast?.map (·.slot) = some (freeSlot s1 c.val) ∧
      { k' with jobs := k.jobs, nextJob := k.nextJob, srec := k.srec } = k := by
  intro s1 k hcode hbusy hroom
  obtain ⟨t, j, hbody, ⟨hprog, hcls, hfunc, hw, hw2, hslot⟩, hcore⟩ := dmaBody_enters hcode hbusy hroom
  refine ⟨_, completes_of_coreOnly hi h hf hbody hcore, ?_, ?_, Core.enqueueDesc_frame ..⟩
  · rw [← hcls, ← hfunc, ← hw, ← hw2]
    exact Core.queues_enqueueDesc hprog
  · rw [← hslot]
    exact Core.lastSlot_enqueueDesc ..

/-! ### Changes of a job that leave its hazards alone (R161 to R165) -/

namespace State

variable {s t : State} {p id : Nat} {f : Job → Job}

/-- The jobs before one that no change names. -/
theorem before_modJob (hid : ∀ x, (f x).id = x.id) {i : Nat} (hi : i ≤ id) : (s.modJob p id f).before p i = s.before p i := by
  have hkeeps : ((fun x : Job => decide (x.id < i)) ∘ fun x => if x.id = id then f x else x) = fun x => decide (x.id < i) := by
    funext x
    by_cases hx : x.id = id <;> simp [hx, hid]
  simp only [before, modJob, core_modCore_self, List.filter_map, hkeeps]
  refine (List.map_congr_left fun x hx => ?_).trans (List.map_id _)
  have hlt : x.id < i := of_decide_eq_true (List.mem_filter.mp hx).2
  exact if_neg (by omega)

/-- A stream that misses takes its turn in the same way when cores differ. -/
theorem missed_frame (h : { t with cores := s.cores } = s) (st : Stream) :
    { t.missed st with cores := s.cores } = s.missed st := by
  have hq : t.walkQ = s.walkQ := (congrArg State.walkQ h :)
  unfold missed
  rw [hq]
  split
  · exact h
  · exact (congrArg (fun u : State => { u with walkQ := s.walkQ ++ [st] }) h :)

theorem job_missed (st : Stream) (i : Nat) : (s.missed st).job p i = s.job p i := by
  unfold missed
  split <;> rfl

theorem tlbHit_modJob (ctx va : Nat) : (s.modJob p id f).tlbHit p ctx va = s.tlbHit p ctx va := by
  simp only [tlbHit, modJob, core_modCore_self]
  rfl

theorem ctx_modJob : ((s.modJob p id f).core p).ctx = (s.core p).ctx := by rw [modJob, core_modCore_self]

end State

/-- The issue stage stays free for a descriptor whose own progress stays (R165). -/
theorem stageFree_modJob {s : State} {p : Nat} {j : Job} {f : Job → Job} (hid : ∀ x, (f x).id = x.id)
    (hcls : ∀ x, (f x).cls = x.cls) (hprog : ∀ x, (f x).prog = x.prog) :
    stageFree (s.modJob p j.id f) p j = stageFree s p j := by
  have hshort : ((s.modJob p j.id f).jobsOf p [6]).any (fun x => x.prog == .short) =
      (s.jobsOf p [6]).any fun x => x.prog == .short := by
    simp only [jobsOf, modJob, core_modCore_self, List.any_filter, List.any_map]
    refine congrArg (List.any _) (funext fun x => ?_)
    by_cases hx : x.id = j.id <;> simp [hx, hcls, hprog]
  have hstage : (s.before p j.id).any (fun x => x.cls == 6 && atStage (s.modJob p j.id f) p x) =
      (s.before p j.id).any fun x => x.cls == 6 && atStage s p x := by
    rw [Bool.eq_iff_iff, List.any_eq_true, List.any_eq_true]
    refine exists_congr fun x => and_congr_right fun hx => ?_
    have hlt : x.id < j.id := of_decide_eq_true (List.mem_filter.mp hx).2
    simp only [atStage, dmaReady, before_modJob hid hlt.le]
  unfold stageFree
  rw [hshort, before_modJob hid le_rfl, hstage]

/-! ### The start of a descriptor (R160 to R165, R311) -/

theorem slot_of_slotJob {s : State} {p slot : Nat} {j : Job} (h : slotJob s p slot = some j) : j.slot = slot := by
  simpa using List.find?_some h

/-- A descriptor that may issue so many granules before other agents act (R291). -/
def withQuota (quota : Option Nat) (j : Job) : Job := { j with quota := quota }

/-- A descriptor that waits for the walk of an address (R311). -/
def walkingAt (va epoch : Nat) (j : Job) : Job := { j with prog := .walking va epoch }

section Start

variable {s : State} {c : CoreId} {slot : Fin 16} {quota : Option Nat} {j : Job} (hj : slotJob s c.val slot.val = some j)
  (hprog : j.prog = .queued)

include hj hprog

/-- A descriptor that a hazard or an older one at the issue stage holds stays queued. -/
theorem dmaDescStart_held (h : dmaReady s c.val j = false ∨ stageFree s c.val j = false) :
    exec (.dmaDescStart c ⟨slot, quota⟩) s = .next s := by
  have hheld : (dmaReady s c.val j && stageFree s c.val j) = false := by rcases h with h | h <;> simp [h]
  change execDmaDescStart c ⟨slot, quota⟩ s = _
  simp only [execDmaDescStart, hj, hprog]
  exact congrArg Host.Outcome.next (if_neg (Bool.eq_false_iff.mp hheld))

/-- A DMA that nothing holds starts. -/
theorem dmaDescStart_go (hready : dmaReady s c.val j = true) (hfree : stageFree s c.val j = true) (hfunc : j.func = 0) :
    exec (.dmaDescStart c ⟨slot, quota⟩) s = .next (dmaGo (s.modJob c.val j.id (withQuota quota)) c.val (withQuota quota j)) := by
  have hgo : (dmaReady s c.val j && stageFree s c.val j) = true := by rw [hready, hfree]; rfl
  change execDmaDescStart c ⟨slot, quota⟩ s = _
  simp only [execDmaDescStart, hj, hprog, hfunc]
  exact congrArg Host.Outcome.next (if_pos hgo)

end Start

section Go

variable {s : State} {p : Nat} {j : Job}

/-- A DMA whose target is known issues the pieces that it has left. -/
theorem dmaGo_of_target (h : j.target ≠ 3) : dmaGo s p j = dmaRun p j.id (dmaLeft j) s := if_pos h

variable (htarget : j.target = 3) (hon : s.ctxOn (s.core p).ctx = true)

include htarget hon

/-- A DMA whose first page is not in the TLB walks for it (R311). -/
theorem dmaGo_of_miss (hmiss : s.tlbHit p (s.core p).ctx (j.dev.rowAddr 0 % 2 ^ 57) = none) : dmaGo s p j =
    (s.modJob p j.id (walkingAt (j.dev.rowAddr 0 % 2 ^ 57) (s.epoch (s.core p).ctx))).missed (.dma p j.slot) := by
  unfold dmaGo
  simp only [htarget, hon, hmiss, ne_eq, not_true, if_false, Bool.not_true, Bool.false_eq_true, Option.filter_none]
  rfl

/-- A short DMA from working memory is held at the issue stage, which it takes (R165). -/
theorem dmaGo_of_short {l : Leaf} {a : Nat} (hhit : s.tlbHit p (s.core p).ctx (j.dev.rowAddr 0 % 2 ^ 57) = some l)
    (hpad : j.toPad = true) (hplace : s.place l (j.dev.rowAddr 0 % 2 ^ 57) = .cis a) (hfree : stageFree s p j = true)
    (hsize : dmaSize j.padSide < 4096) : dmaGo s p j =
      (s.bump .dmaShort p 1).modJob p j.id fun x => { x with prog := .short, target := 0 } := by
  have hmin : dmaSize j.padSide < minEfficient 0 := hsize
  unfold dmaGo
  simp only [htarget, hon, hhit, hpad, hplace, hfree, ne_eq, not_true, if_false, Bool.not_true, Bool.false_eq_true,
    Option.filter_some, Bool.true_or, if_true, if_pos hmin]

end Go

/-- Settles O23: a class 0x06 instruction enters its queue with the lowest free slot; a DMA that starts walks, or is held at the
issue stage, unless a hazard or an older one holds it. -/
theorem descriptorsDispatchAndStart : Obligations.DescriptorsDispatchAndStart := by
  unfold Obligations.DescriptorsDispatchAndStart
  refine ⟨fun c w s => ⟨fun h hdst hsrc1 hsrc2 himm => ⟨?dma, ?scp⟩, fun h hdst hsrc2 himm => ?fil⟩,
    fun c slot quota s j hslot hj hprog => ⟨dmaDescStart_held hslot hprog, fun hready hfree hfunc htarget hon => ?starts⟩⟩
  case dma =>
    exact dma_enters (i := .dma c w) rfl h (by simp [IWord.isT, hdst, hsrc1, hsrc2, himm])
  case scp =>
    exact dma_enters (i := .scp c w) rfl h (by simp [IWord.isT, hdst, hsrc1, hsrc2, himm])
  case fil =>
    exact dma_enters (i := .fil c w) rfl h (by simp [IWord.isT, hdst, hsrc2, himm])
  case starts =>
    intro va
    have hgo := dmaDescStart_go (quota := quota) hslot hprog hready hfree hfunc
    have hhit : ∀ x, (s.modJob c.val j.id (withQuota quota)).tlbHit c.val
        ((s.modJob c.val j.id (withQuota quota)).core c.val).ctx x = s.tlbHit c.val (s.core c.val).ctx x := fun x => by
      rw [ctx_modJob, tlbHit_modJob]
    have hon' : (s.modJob c.val j.id (withQuota quota)).ctxOn ((s.modJob c.val j.id (withQuota quota)).core c.val).ctx = true := by
      rw [ctx_modJob]
      exact hon
    have hjob : (s.modJob c.val j.id (withQuota quota)).job c.val j.id = some (withQuota quota j) :=
      job_modJob_self (fun _ => rfl) hj
    refine ⟨fun hmiss => ?_, fun l a hl hpad hplace hsize => ?_⟩
    · rw [dmaGo_of_miss (j := withQuota quota j) htarget hon' ((hhit va).trans hmiss)] at hgo
      refine ⟨_, hgo, ?_, ?_⟩
      · rw [job_missed, ctx_modJob]
        exact job_modJob_self (j := withQuota quota j) (f := walkingAt va _) (fun _ => rfl) hjob
      · rw [← slot_of_slotJob hslot]
        exact missed_frame rfl _
    · have hstage : stageFree (s.modJob c.val j.id (withQuota quota)) c.val (withQuota quota j) = true :=
        (stageFree_modJob (f := withQuota quota) (fun _ => rfl) (fun _ => rfl) fun _ => rfl).trans hfree
      rw [dmaGo_of_short (j := withQuota quota j) htarget hon' ((hhit va).trans hl) hpad hplace hstage hsize] at hgo
      exact ⟨_, hgo, job_modJob_self (j := withQuota quota j) (fun _ => rfl) hjob, rfl⟩

/-! ### A fill that has bytes behind it (R159) -/

/-- A row of 64 INT8 elements at the start of the scratchpad. -/
def filledRow : Desc := BitVec.ofNat 256 (2 ^ 59 * 8 + 2 ^ 68 * 64)

/-- A fill of the row with the byte 1, queued and with 64 bytes already issued, which no dispatch makes. -/
def begunFill : Job := { newJob 6 1 ⟨0, 0, 0, false, false, 0⟩ 0 [(0, filledRow)] [1] [] [filledRow.area] with done := 64 }

def fillBegun : State := { State.reset with cores := [(0, { Core.reset with jobs := [begunFill] })] }

/-- Nothing is left to be moved, and the scratchpads stay empty. -/
theorem fillBegun_starts : ∃ t, exec (.dmaDescStart 0 ⟨0, none⟩) fillBegun = .next t ∧ t.pads = [] := ⟨_, rfl, rfl⟩

/-- Refutes O24: its clause on fills takes in a queued fill that counts bytes as issued. Such a fill goes on behind them when it
starts, and the bytes before stay unwritten. -/
theorem not_descriptorsGoOnAndComplete : ¬ Obligations.DescriptorsGoOnAndComplete := by
  unfold Obligations.DescriptorsGoOnAndComplete
  rintro ⟨hfill, -⟩
  obtain ⟨t, ht, -, hbytes, -⟩ := hfill 0 0 fillBegun begunFill rfl rfl rfl rfl rfl rfl rfl rfl
  obtain ⟨u, hu, hpads⟩ := fillBegun_starts
  have htu : t = u := Host.Outcome.next.inj (ht.symm.trans hu)
  have hfirst := hbytes 0 (by decide)
  rw [htu, State.pad, hpads] at hfirst
  exact absurd hfirst (by decide)

end Sys2Proof.Machine

/-!
PROOFS. The statements of the scratchpad and the streams, continued: requests of other nodes and the answers to this module's
own (O47).
-/

namespace Sys2Proof.Machine

open State

/-! ### Registers that stay (R6) -/

namespace State

theorem reg_setReg_apart (s : State) {r q : Reg} {i j : Nat} (v : Word) (h : q ≠ r ∨ j ≠ i) (hi : i < 1048576)
    (hj : j < 1048576) : (s.setReg r i v).reg q j = s.reg q j := by
  refine reg_setReg_ne _ _ _ _ _ _ fun hkey => ?_
  have hqr : q = r := Reg.eq_of_key_eq hkey hj hi
  subst hqr
  have hji : j = i := by unfold Reg.key at hkey; omega
  exact h.elim (absurd rfl) (absurd hji)

/-- Registers of other names than those of a list stay. -/
def RegsKept (rs : List Reg) (s t : State) : Prop := ∀ q j, q ∉ rs → j < 1048576 → t.reg q j = s.reg q j

namespace RegsKept

variable {rs : List Reg} {s t u : State} {r : Reg} {i : Nat}

theorem refl (rs : List Reg) (s : State) : RegsKept rs s s := fun _ _ _ _ => rfl

theorem trans (h : RegsKept rs s t) (h' : RegsKept rs t u) : RegsKept rs s u :=
  fun q j hq hj => (h' q j hq hj).trans (h q j hq hj)

theorem of_regs (h : t.regs = s.regs) : RegsKept rs s t := fun q j _ _ => by rw [reg, h, reg]

theorem setReg (h : RegsKept rs s t) (hr : r ∈ rs) (hi : i < 1048576) (v : Word) : RegsKept rs s (t.setReg r i v) :=
  h.trans fun _ _ hq hj => reg_setReg_apart t v (.inl fun hqr => hq (hqr ▸ hr)) hi hj

theorem bump (h : RegsKept rs s t) (hr : r ∈ rs) (hi : i < 1048576) (n : Nat) : RegsKept rs s (t.bump r i n) :=
  h.setReg hr hi _

theorem setFlag (h : RegsKept rs s t) (hr : r ∈ rs) (hi : i < 1048576) (b : Nat) (x : Bool) :
    RegsKept rs s (t.setFlag r i b x) := h.setReg hr hi _

theorem bump64 {hi : Reg} (h : RegsKept rs s t) (hr : r ∈ rs) (hhi : hi ∈ rs) (hlt : i < 1048576) (n : Nat) :
    RegsKept rs s (t.bump64 r hi i n) := (h.setReg hr hlt _).setReg hhi hlt _

theorem emit (h : RegsKept rs s t) (o : Out) : RegsKept rs s (t.emit o) := h

theorem fld (h : RegsKept rs s t) (hr : r ∉ rs) (hi : i < 1048576) (a b : Nat) : t.fld r i a b = s.fld r i a b := by
  rw [State.fld, h r i hr hi, State.fld]

theorem flag (h : RegsKept rs s t) (hr : r ∉ rs) (hi : i < 1048576) (b : Nat) : t.flag r i b = s.flag r i b := by
  rw [State.flag, h r i hr hi, State.flag]

theorem reg64 {hi : Reg} (h : RegsKept rs s t) (hr : r ∉ rs) (hhi : hi ∉ rs) (hlt : i < 1048576) :
    t.reg64 r hi i = s.reg64 r hi i := by rw [State.reg64, h r i hr hlt, h hi i hhi hlt, State.reg64]

end RegsKept

/-- Only registers of a list differ. -/
structure RegsOnly (rs : List Reg) (s t : State) : Prop where
  frame : { t with regs := s.regs } = s
  kept : RegsKept rs s t

namespace RegsOnly

variable {rs : List Reg} {s t u : State}

theorem refl (rs : List Reg) (s : State) : RegsOnly rs s s := ⟨rfl, .refl rs s⟩

theorem trans (h : RegsOnly rs s t) (h' : RegsOnly rs t u) : RegsOnly rs s u :=
  ⟨(congrArg (fun x : State => { x with regs := s.regs }) h'.frame).trans h.frame, h.kept.trans h'.kept⟩

theorem foldl {α : Type} {f : State → α → State} (l : List α) (hf : ∀ t, ∀ x ∈ l, RegsOnly rs s t → RegsOnly rs s (f t x))
    (h : RegsOnly rs s t) : RegsOnly rs s (l.foldl f t) :=
  List.foldlRecOn (motive := fun u => RegsOnly rs s u) l f h fun u hu x hx => hf u x hx hu

end RegsOnly

theorem reg_setReg_other (s : State) {r q : Reg} (h : q ≠ r) (i : Nat) (v : Word) : (s.setReg r i v).reg q i = s.reg q i := by
  refine reg_setReg_ne _ _ _ _ _ _ fun hkey => h ?_
  have hidx : q.ctorIdx = r.ctorIdx := by unfold Reg.key at hkey; omega
  rw [← Reg.ofNat_ctorIdx q, hidx, Reg.ofNat_ctorIdx]

/-- A 64-bit counter that rises. -/
theorem reg64_bump64_self (s : State) {lo hi : Reg} (h : lo ≠ hi) (i n : Nat) :
    (s.bump64 lo hi i n).reg64 lo hi i = (s.reg64 lo hi i + n) % 2 ^ 64 := by
  generalize hv : (s.reg64 lo hi i + n) % 2 ^ 64 = v
  have hlt : v < 2 ^ 64 := hv ▸ Nat.mod_lt _ (by decide)
  rw [bump64, hv, setReg64, reg64, reg_setReg_self, reg_setReg_other _ h, reg_setReg_self, BitVec.toNat_ofNat,
    BitVec.toNat_ofNat]
  omega

theorem reg64_bump64_apart (s : State) {lo hi : Reg} {i j : Nat} (h : j ≠ i) (hi' : i < 1048576) (hj : j < 1048576) (n : Nat) :
    (s.bump64 lo hi i n).reg64 lo hi j = s.reg64 lo hi j := by
  have happart : ∀ q : Reg, (s.bump64 lo hi i n).reg q j = s.reg q j := fun q =>
    (reg_setReg_apart _ _ (.inr h) hi' hj).trans (reg_setReg_apart _ _ (.inr h) hi' hj)
  rw [reg64, happart, happart, reg64]

/-- Entries of a table of 256 that updates change one after another, each entry once and by what it holds. -/
theorem foldl_once {β : Type} {step : State → Nat → State} {val : State → Nat → β} {g : Nat → β → β} {P : State → Prop}
    {l : List Nat} (hP : ∀ t, ∀ i ∈ l, P t → P (step t i))
    (hstep : ∀ t, P t → ∀ i ∈ l, ∀ j, j < 256 → val (step t i) j = if j = i then g i (val t i) else val t j)
    (hl : l.Nodup) {s : State} (hs : P s) {j : Nat} (hj : j < 256) :
    val (l.foldl step s) j = if j ∈ l then g j (val s j) else val s j := by
  induction l generalizing s with
  | nil => rfl
  | cons i l ih =>
    obtain ⟨hil, hl⟩ := List.nodup_cons.mp hl
    have hi : i ∈ i :: l := List.mem_cons_self
    rw [List.foldl_cons, ih (fun t x hx => hP t x (List.mem_cons_of_mem _ hx))
      (fun t ht x hx => hstep t ht x (List.mem_cons_of_mem _ hx)) hl (hP s i hi hs), hstep s hs i hi j hj]
    by_cases hji : j = i
    · subst hji
      simp [hil]
    · simp [hji]

/-! ### Packets that are received and sent (R391 to R393, R400) -/

/-- A state with other links. -/
def withLinks (s : State) (L : SMap Link) : State := { s with links := L }

/-- A packet that is performed frees its credits, on its link. -/
theorem consume_eq (s : State) (p : Packet) : ∃ L, s.consume p = s.withLinks L := by
  unfold consume
  split
  · exact ⟨_, rfl⟩
  · exact ⟨_, rfl⟩

theorem consume_frame (s : State) (p : Packet) : { s.consume p with links := s.links } = s := by
  obtain ⟨L, hL⟩ := s.consume_eq p
  rw [hL]
  rfl

/-- What no link has a part in stays as a packet is performed. -/
theorem at_consume {α : Type} (f : State → α) (hf : ∀ s L, f (withLinks s L) = f s) (s : State) (p : Packet) :
    f (s.consume p) = f s := by
  obtain ⟨L, hL⟩ := s.consume_eq p
  rw [hL, hf]

section Consume

variable (s : State) (p : Packet)

@[simp] theorem txns_consume : (s.consume p).txns = s.txns := at_consume State.txns (fun _ _ => rfl) s p
@[simp] theorem cores_consume : (s.consume p).cores = s.cores := at_consume State.cores (fun _ _ => rfl) s p
@[simp] theorem ticks_consume : (s.consume p).ticks = s.ticks := at_consume State.ticks (fun _ _ => rfl) s p
@[simp] theorem cis_consume : (s.consume p).cis = s.cis := at_consume State.cis (fun _ _ => rfl) s p
@[simp] theorem reg_consume (r : Reg) (i : Nat) : (s.consume p).reg r i = s.reg r i := at_consume (reg · r i) (fun _ _ => rfl) s p
@[simp] theorem workSize_consume : (s.consume p).workSize = s.workSize := at_consume workSize (fun _ _ => rfl) s p
@[simp] theorem genOf_consume (k i : Nat) : (s.consume p).genOf k i = s.genOf k i := at_consume (genOf · k i) (fun _ _ => rfl) s p
@[simp] theorem cntsMet_consume (a n : Nat) : (s.consume p).cntsMet a n = s.cntsMet a n :=
  at_consume (cntsMet · a n) (fun _ _ => rfl) s p
@[simp] theorem cntAdmits_consume (i n : Nat) : (s.consume p).cntAdmits i n = s.cntAdmits i n :=
  at_consume (cntAdmits · i n) (fun _ _ => rfl) s p
@[simp] theorem cntRange_consume (i : Nat) : (s.consume p).cntRange i = s.cntRange i := at_consume (cntRange · i) (fun _ _ => rfl) s p
@[simp] theorem cntChunk_consume (i c : Nat) : (s.consume p).cntChunk i c = s.cntChunk i c :=
  at_consume (cntChunk · i c) (fun _ _ => rfl) s p
@[simp] theorem cntKey_consume (i : Nat) : (s.consume p).cntKey i = s.cntKey i := at_consume (cntKey · i) (fun _ _ => rfl) s p
@[simp] theorem chunkAt_consume (i c : Nat) : (s.consume p).chunkAt i c = s.chunkAt i c :=
  at_consume (chunkAt · i c) (fun _ _ => rfl) s p
@[simp] theorem dsRange_consume (i : Nat) : (s.consume p).dsRange i = s.dsRange i := at_consume (dsRange · i) (fun _ _ => rfl) s p
@[simp] theorem dsChunk_consume (i c : Nat) : (s.consume p).dsChunk i c = s.dsChunk i c :=
  at_consume (dsChunk · i c) (fun _ _ => rfl) s p
@[simp] theorem chunkCnt_consume (a n : Nat) : (s.consume p).chunkCnt a n = s.chunkCnt a n :=
  at_consume (chunkCnt · a n) (fun _ _ => rfl) s p
@[simp] theorem chunkDs_consume (a n : Nat) : (s.consume p).chunkDs a n = s.chunkDs a n :=
  at_consume (chunkDs · a n) (fun _ _ => rfl) s p
@[simp] theorem physCore_consume (n c : Nat) : (s.consume p).physCore n c = s.physCore n c :=
  at_consume (physCore · n c) (fun _ _ => rfl) s p
@[simp] theorem windowFor_consume (c off n node : Nat) : (s.consume p).windowFor c off n node = s.windowFor c off n node :=
  at_consume (windowFor · c off n node) (fun _ _ => rfl) s p
@[simp] theorem touchesSealed_consume (a n : Nat) : (s.consume p).touchesSealed a n = s.touchesSealed a n :=
  at_consume (touchesSealed · a n) (fun _ _ => rfl) s p
@[simp] theorem cisRead_consume (a n : Nat) : (s.consume p).cisRead a n = s.cisRead a n :=
  at_consume (cisRead · a n) (fun _ _ => rfl) s p
@[simp] theorem cisMask_consume (a n : Nat) : (s.consume p).cisMask a n = s.cisMask a n :=
  at_consume (cisMask · a n) (fun _ _ => rfl) s p

end Consume

theorem route_lt {s : State} {dst hops l : Nat} (h : s.route dst hops = some l) : l < 36 := by
  have hup : ∀ l, s.linkUp l = true → l < 36 := fun l h => by
    simp only [linkUp, Bool.and_eq_true, decide_eq_true_eq] at h
    exact h.1
  unfold route at h
  dsimp only at h
  split at h
  · cases h
  · split at h
    · next hprim => exact Option.some.inj h ▸ hup _ hprim
    · split at h
      · next halt => exact Option.some.inj h ▸ hup _ (Bool.and_eq_true_iff.mp halt).2
      · cases h

/-- Registers that sending a packet changes: the traffic counters of its link, and the count of packets without a route. -/
def sendRegs : List Reg := [.lnkTxLo, .lnkTxHi, .tlkNoroute]

/-- `t` is `s` after packets were sent: the links, what left, and those registers differ. -/
structure SendsOnly (s t : State) : Prop where
  frame : { t with links := s.links, regs := s.regs, outbox := s.outbox } = s
  kept : RegsKept sendRegs s t

namespace SendsOnly

variable {s t u : State}

theorem trans (h : s.SendsOnly t) (h' : t.SendsOnly u) : s.SendsOnly u :=
  ⟨(congrArg (fun x : State => { x with links := s.links, regs := s.regs, outbox := s.outbox }) h'.frame).trans h.frame,
    h.kept.trans h'.kept⟩

theorem setLink (s : State) (l : Nat) (x : Link) : s.SendsOnly (s.setLink l x) := ⟨rfl, .of_regs rfl⟩

theorem giveBack (s : State) (back : Option (Nat × Nat)) (n : Nat) : s.SendsOnly (s.giveBack back n) := by
  unfold State.giveBack
  split
  · exact setLink ..
  · exact ⟨rfl, .refl _ _⟩

theorem count (s : State) {l : Nat} (hl : l < 36) (n : Nat) : s.SendsOnly (s.bump64 .lnkTxLo .lnkTxHi l n) :=
  ⟨rfl, (RegsKept.refl _ _).bump64 (by decide) (by decide) (by omega) _⟩

theorem emit (s : State) (o : Out) : s.SendsOnly (s.emit o) := ⟨rfl, .of_regs rfl⟩

theorem sendNow (s : State) {l : Nat} (hl : l < 36) (c : Nat) (p : Packet) : s.SendsOnly (s.sendNow l c p) := by
  unfold State.sendNow
  extract_lets x p' last x'
  exact ((setLink s l x').trans (count _ hl _)).trans (emit ..)

theorem sendOn (s : State) {l : Nat} (hl : l < 36) (p : Packet) (back : Option (Nat × Nat)) :
    s.SendsOnly (s.sendOn l p back) := by
  unfold State.sendOn
  dsimp only
  split
  · exact (giveBack ..).trans (sendNow _ hl ..)
  · exact setLink ..

theorem bump_noroute (s : State) : s.SendsOnly (s.bump .tlkNoroute 0 1) :=
  ⟨rfl, (RegsKept.refl _ _).bump (by decide) (by decide) _⟩

theorem sendCtl (s : State) (p : Packet) : s.SendsOnly (s.sendCtl p) := by
  unfold State.sendCtl
  dsimp only
  split
  · next hl => exact sendOn _ (route_lt hl) ..
  · exact bump_noroute s

theorem cis (h : s.SendsOnly t) : t.cis = s.cis := (congrArg State.cis h.frame :)
theorem pads (h : s.SendsOnly t) : t.pads = s.pads := (congrArg State.pads h.frame :)
theorem cores (h : s.SendsOnly t) : t.cores = s.cores := (congrArg State.cores h.frame :)
theorem txns (h : s.SendsOnly t) : t.txns = s.txns := (congrArg State.txns h.frame :)

end SendsOnly

/-! ### Poison marks of a write (R417) -/

theorem mem_setInsert {l : List Nat} {a x : Nat} : x ∈ setInsert l a ↔ x = a ∨ x ∈ l := by
  induction l with
  | nil => simp [setInsert]
  | cons k l ih =>
    unfold setInsert
    split
    · simp
    · split
      · next hak => simp [hak]
      · simp [ih, or_left_comm]

/-- What each step of a run brings about, and no step undoes, holds at its end. -/
theorem foldl_establishes {σ α : Type} {f : σ → α → σ} {Q : α → σ → Prop} {l : List α} (hset : ∀ t, ∀ x ∈ l, Q x (f t x))
    (hkeep : ∀ t, ∀ x ∈ l, ∀ y, Q y t → Q y (f t x)) (s : σ) {x : α} (hx : x ∈ l) : Q x (l.foldl f s) := by
  induction l generalizing s with
  | nil => exact absurd hx List.not_mem_nil
  | cons a l ih =>
    rcases List.mem_cons.mp hx with rfl | hx
    · exact List.foldlRecOn (motive := fun t => Q x t) l f (hset s x List.mem_cons_self) fun t ht y hy =>
        hkeep t y (List.mem_cons_of_mem _ hy) x ht
    · exact ih (fun t y hy => hset t y (List.mem_cons_of_mem _ hy)) (fun t y hy => hkeep t y (List.mem_cons_of_mem _ hy)) _ hx

/-- The lines of a marked write are poisoned, and those that were stay so. -/
theorem mem_clearGranules_marked {set : List Nat} {a n g : Nat} (h : g ∈ set ∨ g ∈ granules a n) :
    g ∈ clearGranules set a n true := by
  have hstep : ∀ (acc : List Nat) (x y : Nat), y ∈ acc → y ∈ setInsert acc x := fun acc x y hy => mem_setInsert.mpr (.inr hy)
  rcases h with h | h
  · exact List.foldlRecOn (motive := fun acc => g ∈ acc) _ _ h fun acc hacc x _ => hstep acc x g hacc
  · exact foldl_establishes (Q := fun x (acc : List Nat) => x ∈ acc) (fun acc x _ => mem_setInsert.mpr (.inl rfl))
      (fun acc x _ y hy => hstep acc x y hy) _ h

/-- A line that a write without a mark covers whole is not poisoned. -/
theorem not_mem_clearGranules {a n g : Nat} (set : List Nat) (hlo : a ≤ 64 * g) (hhi : 64 * g + 64 ≤ a + n) :
    g ∉ clearGranules set a n false := by
  refine foldl_establishes (Q := fun x (acc : List Nat) => a ≤ 64 * x ∧ 64 * x + 64 ≤ a + n → x ∉ acc) (fun acc x _ hx => ?_)
    (fun acc x _ y hy hcov => ?_) set (mem_granules.mpr ⟨by omega, by omega, by omega⟩) ⟨hlo, hhi⟩
  · simp [hx, setErase]
  · split
    · next h => exact absurd h Bool.false_ne_true
    · split
      · exact fun hmem => hy hcov (List.mem_filter.mp hmem).1
      · exact hy hcov

theorem granules_one (a : Nat) : granules a 1 = [a / 64] := by simp [granules]

theorem granules_line (g : Nat) : granules (64 * g) 64 = [g] := by
  have hcount : (64 * g + 64 - 1) / 64 - 64 * g / 64 + 1 = 1 := by omega
  rw [granules, if_neg (by decide), hcount]
  simp

theorem cisPoison_rekey (key : Nat) (gs : List Nat) (s : State) : (s.rekey key gs).cisPoison = s.cisPoison := by
  induction gs generalizing s with
  | nil => rfl
  | cons g gs ih =>
    simp only [rekey]
    split
    · exact ih s
    · exact ih _

theorem cisPoison_cisWrite (s : State) (a : Nat) (bs : List Byte) (poison : Bool) :
    (s.cisWrite a bs poison).cisPoison = clearGranules s.cisPoison a bs.length poison :=
  congrArg (clearGranules · a bs.length poison) (cisPoison_rekey ..)

/-! ### Writes with a mask (R403) -/

/-- What the plain write and each marked granule keep. -/
theorem maskedWrite_induction {P : State → Prop} {put : State → Nat → List Byte → Bool → State} {s : State} {a mask : Nat}
    {bs : List Byte} (hplain : P (put s a bs false))
    (hmark : ∀ t g, 64 * g < bs.length → P t → P (put t (a + 64 * g) ((bs.drop (64 * g)).take 64) true)) :
    P (maskedWrite put s a mask bs) := by
  refine List.foldlRecOn (motive := P) _ _ hplain fun t ht g hg => hmark t g ?_ ht
  have hlt : g < (bs.length + 63) / 64 := List.mem_range.mp (List.mem_filter.mp hg).1
  omega

/-- Without a mask there is the plain write alone. -/
theorem maskedWrite_zero (put : State → Nat → List Byte → Bool → State) (s : State) (a : Nat) (bs : List Byte) :
    maskedWrite put s a 0 bs = put s a bs false := by
  have hnone : (List.range ((bs.length + 63) / 64)).filter (Nat.testBit 0) = [] :=
    List.filter_eq_nil_iff.mpr fun g _ => by simp
  rw [maskedWrite, hnone, List.foldl_nil]

/-- A WRITE that lands in working memory. -/
def cisMasked (s : State) (a mask : Nat) (bs : List Byte) : State :=
  maskedWrite (fun s a bs bad => s.cisWrite a bs bad) s a mask bs

/-- Bytes stored in working memory, beside which only keys of granules and poison marks differ. -/
structure CisStored (s t : State) (a : Nat) (bs : List Byte) : Prop where
  wf : t.cis.wf = true
  stored : s.Stored t a bs
  frame : { t with cis := s.cis, cisKey := s.cisKey, cisPoison := s.cisPoison } = s

theorem cisStored_cisWrite {s : State} (hw : s.cis.wf = true) (a : Nat) (bs : List Byte) (bad : Bool) :
    s.CisStored (s.cisWrite a bs bad) a bs := by
  obtain ⟨hwf, hstored⟩ := cisWrite_stored s a bs bad hw
  obtain ⟨-, -, -, -, -, hrekey⟩ := rekey_spec (s.keyAt a) (granules a bs.length) s hw
  exact ⟨hwf, hstored, (congrArg (fun t : State => { t with cisPoison := s.cisPoison }) hrekey :)⟩

namespace CisStored

variable {s t : State} {a : Nat} {bs : List Byte}

theorem keyAt (h : s.CisStored t a bs) (x : Nat) : t.keyAt x = s.keyAt x := (congrArg (State.keyAt · x) h.frame :)

/-- A part of the bytes is written again under the key of the whole. -/
theorem part (h : s.CisStored t a bs) {o : Nat} (hkey : s.keyAt (a + o) = s.keyAt a) (m : Nat) (bad : Bool) :
    s.CisStored (t.cisWrite (a + o) ((bs.drop o).take m) bad) a bs := by
  obtain ⟨hwf, ⟨hin, hout, hfar⟩, hframe⟩ := cisStored_cisWrite h.wf (a + o) ((bs.drop o).take m) bad
  obtain ⟨hbytes, hrest, hapart⟩ := h.stored
  have hlen : ((bs.drop o).take m).length = min m (bs.length - o) := by simp
  rw [h.keyAt, hkey] at hin hout
  refine ⟨hwf, ⟨fun i hi => ?_, fun x hx => (hout x (by omega)).trans (hrest x hx), fun x hx => ?_⟩,
    (congrArg (fun u : State => { u with cis := s.cis, cisKey := s.cisKey, cisPoison := s.cisPoison }) hframe).trans h.frame⟩
  · by_cases hpart : o ≤ i ∧ i < o + ((bs.drop o).take m).length
    · have hbyte := hin (i - o) (by omega)
      rw [show a + o + (i - o) = a + i by omega] at hbyte
      rw [hbyte]
      simp only [List.getElem_take, List.getElem_drop, show o + (i - o) = i by omega]
    · exact (hout _ (by omega)).trans (hbytes i hi)
  · have hfar' : x / 64 ∉ granules (a + o) ((bs.drop o).take m).length := fun hmem => by
      rw [mem_granules] at hx hmem
      omega
    obtain ⟨hread, hkeyed⟩ := hfar x hfar'
    obtain ⟨hread', hkeyed'⟩ := hapart x hx
    exact ⟨hread.trans hread', hkeyed.trans hkeyed'⟩

end CisStored

section CisMasked

variable {s : State} {a mask : Nat} {bs : List Byte}

theorem cisStored_cisMasked (hw : s.cis.wf = true) (hkey : ∀ x, x < bs.length → s.keyAt (a + x) = s.keyAt a) :
    s.CisStored (s.cisMasked a mask bs) a bs :=
  maskedWrite_induction (P := fun t => s.CisStored t a bs) (cisStored_cisWrite hw a bs false) fun _ _ hg ht =>
    ht.part (hkey _ hg) 64 true

/-- The granules that the mask names are poisoned. -/
theorem cisMasked_marks {g : Nat} (hg : g < (bs.length + 63) / 64) (hmask : mask.testBit g = true) :
    (s.cisMasked a mask bs).cisBad (a + 64 * g) 1 = true := by
  have hbad : (a + 64 * g) / 64 ∈ (s.cisMasked a mask bs).cisPoison := by
    refine foldl_establishes (Q := fun g (t : State) => (a + 64 * g) / 64 ∈ t.cisPoison) (fun t x hx => ?_)
      (fun t x _ y hy => ?_) _ (List.mem_filter.mpr ⟨List.mem_range.mpr hg, hmask⟩)
    · have hlt : x < (bs.length + 63) / 64 := List.mem_range.mp (List.mem_filter.mp hx).1
      rw [cisPoison_cisWrite]
      refine mem_clearGranules_marked (.inr (granule_of_byte le_rfl ?_))
      simp only [List.length_take, List.length_drop]
      omega
    · rw [cisPoison_cisWrite]
      exact mem_clearGranules_marked (.inl hy)
  rw [cisBad, granules_one]
  simpa using hbad

/-- Without a mask the granules written whole lose their poison. -/
theorem cisMasked_clears {g : Nat} (hlo : a ≤ 64 * g) (hhi : 64 * g + 64 ≤ a + bs.length) :
    (s.cisMasked a 0 bs).cisBad (64 * g) 64 = false := by
  have hgood : g ∉ (s.cisMasked a 0 bs).cisPoison := by
    rw [cisMasked, maskedWrite_zero, cisPoison_cisWrite]
    exact not_mem_clearGranules _ hlo hhi
  rw [cisBad, granules_line]
  simpa using hgood

end CisMasked

/-- A WRITE that lands in the scratchpad of a core. -/
def padMasked (s : State) (p a mask : Nat) (bs : List Byte) : State :=
  maskedWrite (fun s a bs bad => s.padWrite p a bs bad) s a mask bs

theorem pad_padWrite_self (s : State) (p a : Nat) (bs : List Byte) (bad : Bool) :
    (s.padWrite p a bs bad).pad p = (s.pad p).writeL a bs := by
  unfold padWrite
  dsimp only
  split <;> exact pad_setPad_self ..

/-- Bytes stored in a scratchpad, beside which only its poison marks differ. -/
structure PadStored (s t : State) (p a : Nat) (bs : List Byte) : Prop where
  only : s.PadOnly t p
  wf : (t.pad p).wf = true
  bytes : ∀ i, (h : i < bs.length) → (t.pad p).read (a + i) = bs[i]
  rest : ∀ x, x < a ∨ a + bs.length ≤ x → (t.pad p).read x = (s.pad p).read x

theorem PadStored.part {s t : State} {p a : Nat} {bs : List Byte} (h : s.PadStored t p a bs) (o m : Nat) (bad : Bool) :
    s.PadStored (t.padWrite p (a + o) ((bs.drop o).take m) bad) p a bs := by
  have hlen : ((bs.drop o).take m).length = min m (bs.length - o) := by simp
  refine ⟨h.only.padWrite .., ?_, fun i hi => ?_, fun x hx => ?_⟩ <;> rw [pad_padWrite_self]
  · exact Mem.wf_writeL _ _ h.wf
  · by_cases hpart : o ≤ i ∧ i < o + ((bs.drop o).take m).length
    · have hbyte := Mem.read_writeL_in (a := a + o) _ h.wf (i - o) (by omega : i - o < ((bs.drop o).take m).length)
      rw [show a + o + (i - o) = a + i by omega] at hbyte
      rw [hbyte]
      simp only [List.getElem_take, List.getElem_drop, show o + (i - o) = i by omega]
    · exact (Mem.read_writeL_out _ h.wf (by omega)).trans (h.bytes i hi)
  · exact (Mem.read_writeL_out _ h.wf (by omega)).trans (h.rest x hx)

theorem padStored_padMasked {s : State} {p : Nat} (hw : (s.pad p).wf = true) (a mask : Nat) (bs : List Byte) :
    s.PadStored (s.padMasked p a mask bs) p a bs := by
  refine maskedWrite_induction (P := fun t => s.PadStored t p a bs)
    ⟨(PadOnly.refl s p).padWrite .., ?_, fun i hi => ?_, fun x hx => ?_⟩ fun t g _ ht => ht.part _ _ _
  all_goals rw [pad_padWrite_self]
  · exact Mem.wf_writeL _ _ hw
  · exact Mem.read_writeL_in _ hw i hi
  · exact Mem.read_writeL_out _ hw hx

end State

/-! ### WRITE to working memory (R403, R404, R407) -/

section Write

variable {s : State} {a i : Nat} {bs : List Byte}

/-- The bytes of a write that lie in the range of a counter. -/
def arrived (s : State) (a n i : Nat) : Nat := min (a + n) ((s.cntRange i).1 + (s.cntRange i).2) - max a (s.cntRange i).1

theorem cntRange_kept {rs : List Reg} {t : State} (h : RegsKept rs s t) (hbase : .cntBase ∉ rs) (hsize : .cntSize ∉ rs)
    (hi : i < 256) : t.cntRange i = s.cntRange i := by
  rw [State.cntRange, h.fld hbase (by omega), h.fld hsize (by omega), State.cntRange]

theorem lt_of_mem_cntsMet {n : Nat} (h : i ∈ s.cntsMet a n) : i < 256 := List.mem_range.mp (List.mem_filter.mp h).1

theorem cntsMet_nodup (s : State) (a n : Nat) : (s.cntsMet a n).Nodup := List.nodup_range.filter _

/-- A counter without DIGEST counts bytes (R404). -/
theorem arriveBytes_plain (h : s.flag .cntCfg i 7 = false) :
    s.arriveBytes a bs i = s.bump64 .cntBytesLo .cntBytesHi i (arrived s a bs.length i) := by
  simp only [arriveBytes, h]
  rfl

/-- The packets that a write adds to its counters. -/
def countPackets (l : List Nat) (s : State) : State :=
  l.foldl (fun s i => s.setReg .cntPackets i (s.reg .cntPackets i + 1)) s

theorem regsOnly_countPackets {l : List Nat} (hl : ∀ i ∈ l, i < 256) : RegsOnly [.cntPackets] s (countPackets l s) :=
  .foldl l (fun t i hi ht => ht.trans ⟨rfl, (RegsKept.refl _ _).setReg (by decide) (by have := hl i hi; omega) _⟩) (.refl _ _)

theorem reg_countPackets {l : List Nat} (hl : ∀ i ∈ l, i < 256) (hnodup : l.Nodup) {j : Nat} (hj : j < 256) :
    (countPackets l s).reg .cntPackets j = if j ∈ l then s.reg .cntPackets j + 1 else s.reg .cntPackets j := by
  refine foldl_once (P := fun _ => True) (val := fun t j => t.reg .cntPackets j) (g := fun _ v => v + 1)
    (fun _ _ _ _ => trivial) (fun t _ i hi j hj => ?_) hnodup trivial hj
  split
  · next hji => rw [hji, reg_setReg_self]
  · next hji => exact reg_setReg_apart t _ (.inr hji) (by have := hl i hi; omega) (by omega)

/-- The bytes that a write adds to counters without DIGEST. -/
theorem arriveBytes_all {l : List Nat} (hl : ∀ i ∈ l, i < 256) (hnodup : l.Nodup)
    (hplain : ∀ i ∈ l, s.flag .cntCfg i 7 = false) :
    RegsOnly [.cntBytesLo, .cntBytesHi] s (l.foldl (arriveBytes a bs) s) ∧
    ∀ j, j < 256 → (l.foldl (arriveBytes a bs) s).reg64 .cntBytesLo .cntBytesHi j =
      if j ∈ l then (s.reg64 .cntBytesLo .cntBytesHi j + arrived s a bs.length j) % 2 ^ 64
      else s.reg64 .cntBytesLo .cntBytesHi j := by
  have hstep : ∀ t, ∀ i ∈ l, RegsOnly [.cntBytesLo, .cntBytesHi] s t →
      t.arriveBytes a bs i = t.bump64 .cntBytesLo .cntBytesHi i (arrived s a bs.length i) := fun t i hi ht => by
    have hlt := hl i hi
    rw [arriveBytes_plain ((ht.kept.flag (by decide) (by omega) 7).trans (hplain i hi)), arrived, arrived,
      cntRange_kept ht.kept (by decide) (by decide) hlt]
  have honly : ∀ t, ∀ i ∈ l, RegsOnly [.cntBytesLo, .cntBytesHi] s t → RegsOnly [.cntBytesLo, .cntBytesHi] s (t.arriveBytes a bs i) :=
    fun t i hi ht => by
      have hlt := hl i hi
      rw [hstep t i hi ht]
      exact ht.trans ⟨rfl, (RegsKept.refl _ _).bump64 (by decide) (by decide) (by omega) _⟩
  refine ⟨.foldl l honly (.refl _ _), fun j hj => ?_⟩
  refine foldl_once (val := fun t j => t.reg64 .cntBytesLo .cntBytesHi j)
    (g := fun i v => (v + arrived s a bs.length i) % 2 ^ 64) honly (fun t ht i hi j hj => ?_) hnodup (.refl _ _) hj
  have hlt := hl i hi
  rw [hstep t i hi ht]
  split
  · next hji => rw [hji, reg64_bump64_self t (by decide)]
  · next hji => exact reg64_bump64_apart t hji (by omega) (by omega) _

/-- Bytes that lie in one chunk are one piece of it. -/
theorem cutRow_chunk {dev n : Nat} (hn : 0 < n) (hfit : dev % 65536 + n ≤ 65536) : cutRow 65536 0 0 dev n = [⟨0, 0, dev, n⟩] := by
  have hcount : (dev + n - 1) / 65536 - dev / 65536 + 1 = 1 := by omega
  have hlo : max dev (65536 * (dev / 65536)) = dev := by omega
  have hhi : min (dev + n) (65536 * (dev / 65536 + 1)) = dev + n := by omega
  simp [cutRow, hcount, hlo, hhi]

@[simp] theorem cntChunk_setCntChunk_self (s : State) (i c : Nat) (x : Chunk) : (s.setCntChunk i c x).cntChunk i c = x := by
  simp [cntChunk, setCntChunk]

/-- A chunk whose digest has not come stays open. -/
theorem checkChunk_open {c : Nat} (hset : (s.cntChunk i c).settling = none) (hdig : (s.cntChunk i c).digest = none) :
    s.checkChunk i c = s := by
  unfold checkChunk
  simp only [hset, hdig]

/-- A chunk that has taken in more bytes (R407). -/
def Chunk.take (x : Chunk) (key word : Nat) (bs : List Byte) : Chunk :=
  { x with bytes := x.bytes + bs.length, sum := (x.sum + digestWords key word bs) % digestP }

/-- A counter with DIGEST takes a write that lies in one of its chunks into that chunk (R407). -/
theorem arriveBytes_digest (hmet : i ∈ s.cntsMet a bs.length) (hdigest : s.flag .cntCfg i 7 = true)
    (hlo : (s.cntRange i).1 ≤ a) :
    let o := a - (s.cntRange i).1
    let x := s.cntChunk i (o / 65536)
    o % 65536 + bs.length ≤ 65536 → x.settling = none → x.digest = none →
    s.arriveBytes a bs i = s.setCntChunk i (o / 65536) (Chunk.take x (s.cntKey i) (o % 65536 / 8) bs) := by
  intro o x hfit hset hdig
  obtain ⟨b, hb⟩ : ∃ b, (s.cntRange i).1 = b * 65536 := ⟨_, rfl⟩
  obtain ⟨z, hz⟩ : ∃ z, (s.cntRange i).2 = z * 65536 := ⟨_, rfl⟩
  have hmeets : rangesMeet (a, bs.length) (s.cntRange i) = true := (Bool.and_eq_true_iff.mp (List.mem_filter.mp hmet).2).2
  simp only [rangesMeet, Bool.and_eq_true, decide_eq_true_eq] at hmeets
  obtain ⟨⟨⟨hn, -⟩, hend⟩, -⟩ := hmeets
  have ho : o = a - b * 65536 := by rw [← hb]
  have hmax : max a (s.cntRange i).1 = a := by omega
  have hmin : min (a + bs.length) ((s.cntRange i).1 + (s.cntRange i).2) - a = bs.length := by omega
  have hpiece : cutRow 65536 0 0 a bs.length = [⟨0, 0, a, bs.length⟩] := cutRow_chunk hn (by omega)
  simp only [arriveBytes, hdigest, Bool.not_true, Bool.false_eq_true, if_false, hmax, hmin, Nat.sub_self, hpiece,
    List.foldl_cons, List.foldl_nil, List.drop_zero, List.take_length]
  exact checkChunk_open (by rw [cntChunk_setCntChunk_self]; exact hset) (by rw [cntChunk_setCntChunk_self]; exact hdig)

end Write

/-- The bytes of a WRITE stand in working memory, marked as its mask says (R403). -/
structure PacketStored (s t : State) (p : Packet) : Prop where
  stored : s.Stored t p.addr p.body
  marks : ∀ g, g < (p.body.length + 63) / 64 → p.pmask.testBit g = true → t.cisBad (p.addr + 64 * g) 1 = true
  clears : p.pmask = 0 → ∀ g, p.addr ≤ 64 * g → 64 * g + 64 ≤ p.addr + p.body.length → t.cisBad (64 * g) 64 = false

theorem PacketStored.congr {s t u : State} {p : Packet} (h : PacketStored s t p) (hcis : u.cis = t.cis)
    (hkey : u.cisKey = t.cisKey) (hbad : u.cisPoison = t.cisPoison) : PacketStored s u p := by
  obtain ⟨hstored, hmarks, hclears⟩ := h
  refine ⟨?_, ?_, ?_⟩
  · simpa only [State.Stored, byteAs, cisBytes, granuleAs, hcis, hkey] using hstored
  · simpa only [cisBad, hbad] using hmarks
  · simpa only [cisBad, hbad] using hclears

/-- The state in which the bytes of a WRITE are stored and the packet is counted. -/
def cisPacket (s : State) (p : Packet) : State :=
  countPackets (s.cntsMet p.addr 1) (s.cisMasked p.addr p.pmask p.body)

section Packet

variable {s : State} {p : Packet} {link : Fin 36}

/-- A WRITE to working memory arrives at its memory and its counters. -/
theorem exec_write_cis (hme : s.forMe p 1 = true) (hin : p.addr + p.body.length ≤ s.workSize) :
    exec (.write link p) s = .next ((s.consume p).cisArrive p) := by
  change execWrite link p s = _
  simp only [execWrite, hme, workSize_consume, if_pos hin, Bool.not_true, Bool.false_eq_true, if_false]

/-- The registers stay as the bytes of a WRITE are stored. -/
theorem regs_cisMasked (hw : s.cis.wf = true) (hkey : ∀ x, x < p.body.length → s.keyAt (p.addr + x) = s.keyAt p.addr) :
    (s.cisMasked p.addr p.pmask p.body).regs = s.regs := (congrArg State.regs (cisStored_cisMasked hw hkey).frame :)

theorem cntsMet_of_regs {s t : State} (h : t.regs = s.regs) (a n : Nat) : t.cntsMet a n = s.cntsMet a n := by
  simp only [cntsMet, cntRange, State.flag, State.fld, State.reg, h]

/-- A WRITE that every counter that it meets admits is stored, counted and acknowledged. -/
theorem cisArrive_admitted (hw : s.cis.wf = true) (hkey : ∀ x, x < p.body.length → s.keyAt (p.addr + x) = s.keyAt p.addr)
    (hadmit : ∀ i ∈ s.cntsMet p.addr p.body.length, s.cntAdmits i p.src = true) : s.cisArrive p =
      ((s.cntsMet p.addr p.body.length).foldl (arriveBytes p.addr p.body) (cisPacket s p)).reply p 0x10 0 := by
  have hnone : ((s.cntsMet p.addr p.body.length).any fun i => !s.cntAdmits i p.src) = false := by
    simpa using hadmit
  have hmet := cntsMet_of_regs (regs_cisMasked hw hkey) p.addr 1
  unfold cisPacket
  rw [← hmet]
  exact if_neg (Bool.eq_false_iff.mp hnone)

/-- One that some counter keeps out is refused. -/
theorem cisArrive_refused (hrefuse : ∃ i ∈ s.cntsMet p.addr p.body.length, s.cntAdmits i p.src = false) :
    s.cisArrive p = s.reply p 0x14 Code.protection.toNat := by
  have hsome : ((s.cntsMet p.addr p.body.length).any fun i => !s.cntAdmits i p.src) = true := by
    simpa using hrefuse
  exact if_pos hsome

variable (hw : s.cis.wf = true) (hkey : ∀ x, x < p.body.length → s.keyAt (p.addr + x) = s.keyAt p.addr)

include hw hkey

/-- The bytes stand in memory, and of the registers only the packet counts differ. -/
theorem cisPacket_spec : PacketStored s (cisPacket s p) p ∧ RegsKept [.cntPackets] s (cisPacket s p) ∧
    { cisPacket s p with cis := s.cis, cisKey := s.cisKey, cisPoison := s.cisPoison, regs := s.regs } = s := by
  have hmasked := cisStored_cisMasked (mask := p.pmask) hw hkey
  have hcount : RegsOnly [.cntPackets] (s.cisMasked p.addr p.pmask p.body) (cisPacket s p) :=
    regsOnly_countPackets fun i hi => lt_of_mem_cntsMet hi
  have hstored : PacketStored s (s.cisMasked p.addr p.pmask p.body) p :=
    ⟨hmasked.stored, fun g => cisMasked_marks, fun hmask g hlo hhi => by rw [hmask]; exact cisMasked_clears hlo hhi⟩
  exact ⟨hstored.congr (congrArg State.cis hcount.frame :) (congrArg State.cisKey hcount.frame :) (congrArg State.cisPoison hcount.frame :),
    (RegsKept.of_regs (regs_cisMasked hw hkey)).trans hcount.kept,
    (congrArg (fun t : State => { t with cis := s.cis, cisKey := s.cisKey, cisPoison := s.cisPoison, regs := s.regs })
      hcount.frame).trans ((congrArg (fun t : State => { t with regs := s.regs }) hmasked.frame :) : _ = s)⟩

theorem reg_cisPacket {j : Nat} (hj : j < 256) : (cisPacket s p).reg .cntPackets j =
    if j ∈ s.cntsMet p.addr 1 then s.reg .cntPackets j + 1 else s.reg .cntPackets j := by
  have hreg : (s.cisMasked p.addr p.pmask p.body).reg .cntPackets j = s.reg .cntPackets j := by
    rw [State.reg, regs_cisMasked hw hkey, State.reg]
  rw [cisPacket, reg_countPackets (fun i hi => lt_of_mem_cntsMet hi) (cntsMet_nodup ..) hj, hreg]

/-- Counters without DIGEST count the bytes of a WRITE at once (R404). -/
theorem write_counted (hplain : ∀ i ∈ s.cntsMet p.addr p.body.length, s.flag .cntCfg i 7 = false) :
    let t := (s.cntsMet p.addr p.body.length).foldl (arriveBytes p.addr p.body) (cisPacket s p)
    PacketStored s t p ∧
    (∀ i, i < 256 → t.reg64 .cntBytesLo .cntBytesHi i = if i ∈ s.cntsMet p.addr p.body.length then
        (s.reg64 .cntBytesLo .cntBytesHi i + arrived s p.addr p.body.length i) % 2 ^ 64
      else s.reg64 .cntBytesLo .cntBytesHi i) ∧
    (∀ i, i < 256 → t.reg .cntPackets i = if i ∈ s.cntsMet p.addr 1 then s.reg .cntPackets i + 1 else s.reg .cntPackets i) ∧
    { t with cis := s.cis, cisKey := s.cisKey, cisPoison := s.cisPoison, regs := s.regs } = s := by
  obtain ⟨hstored, hkept, hframe⟩ := cisPacket_spec hw hkey
  obtain ⟨honly, hbytes⟩ := arriveBytes_all (a := p.addr) (bs := p.body) (s := cisPacket s p) (fun i hi => lt_of_mem_cntsMet hi)
    (cntsMet_nodup s p.addr p.body.length) fun i hi => by
      have hlt := lt_of_mem_cntsMet hi
      rw [hkept.flag (by decide) (by omega)]
      exact hplain i hi
  refine ⟨hstored.congr (congrArg State.cis honly.frame :) (congrArg State.cisKey honly.frame :) (congrArg State.cisPoison honly.frame :),
    fun i hi => ?_, fun i hi => ?_,
    (congrArg (fun t : State => { t with cis := s.cis, cisKey := s.cisKey, cisPoison := s.cisPoison, regs := s.regs })
      honly.frame).trans hframe⟩
  · rw [hbytes i hi, hkept.reg64 (by decide) (by decide) (by omega), arrived,
      cntRange_kept hkept (by decide) (by decide) hi, arrived]
  · rw [honly.kept _ i (by decide) (by omega), reg_cisPacket hw hkey hi]

/-- A counter with DIGEST takes the bytes into their chunk (R407). -/
theorem write_digested {i : Nat} (hmet : s.cntsMet p.addr p.body.length = [i]) (hdigest : s.flag .cntCfg i 7 = true)
    (hlo : (s.cntRange i).1 ≤ p.addr) :
    let t := (s.cntsMet p.addr p.body.length).foldl (arriveBytes p.addr p.body) (cisPacket s p)
    let o := p.addr - (s.cntRange i).1
    let x := s.cntChunk i (o / 65536)
    o % 65536 + p.body.length ≤ 65536 → x.settling = none → x.digest = none →
    PacketStored s t p ∧ t.cntChunk i (o / 65536) = Chunk.take x (s.cntKey i) (o % 65536 / 8) p.body := by
  intro t o x hfit hset hdig
  obtain ⟨hstored, hkept, hframe⟩ := cisPacket_spec hw hkey
  have hi : i < 256 := lt_of_mem_cntsMet (hmet ▸ List.mem_singleton_self i : i ∈ s.cntsMet p.addr p.body.length)
  have hrange : (cisPacket s p).cntRange i = s.cntRange i := cntRange_kept hkept (by decide) (by decide) hi
  have hchunk : ∀ c, (cisPacket s p).cntChunk i c = s.cntChunk i c := fun c => (congrArg (State.cntChunk · i c) hframe :)
  have hkeyed : (cisPacket s p).cntKey i = s.cntKey i := hkept.reg64 (by decide) (by decide) (by omega)
  have hmet' : i ∈ (cisPacket s p).cntsMet p.addr p.body.length := by
    have hmem : i ∈ s.cntsMet p.addr p.body.length := hmet ▸ List.mem_singleton_self i
    unfold cntsMet at hmem ⊢
    rw [List.mem_filter] at hmem ⊢
    rw [hrange, hkept.flag (by decide) (by omega)]
    exact hmem
  have harrive := arriveBytes_digest hmet' ((hkept.flag (by decide) (by omega) 7).trans hdigest) (by rw [hrange]; exact hlo)
  simp only [hrange, hchunk, hkeyed] at harrive
  have ht : t = (cisPacket s p).setCntChunk i (o / 65536) (Chunk.take x (s.cntKey i) (o % 65536 / 8) p.body) := by
    simp only [t, hmet, List.foldl_cons, List.foldl_nil]
    exact harrive hfit hset hdig
  rw [ht]
  exact ⟨hstored.congr rfl rfl rfl, cntChunk_setCntChunk_self ..⟩

end Packet

/-! ### WRITE to the scratchpad aperture, and READ (R169, R170, R403, R462) -/

section Aperture

variable {s : State} {p : Packet} {link : Fin 36}

theorem exec_write_pad (hme : s.forMe p 1 = true) (hout : s.workSize < p.addr + p.body.length)
    (hin : apertureBase ≤ p.addr ∧ p.addr + p.body.length ≤ apertureBase + apertureSize) :
    exec (.write link p) s = .next ((s.consume p).padArrive p) := by
  change execWrite link p s = _
  simp only [execWrite, hme, workSize_consume, if_neg hout.not_ge, if_pos hin, Bool.not_true, Bool.false_eq_true, if_false]

theorem exec_write_range (hme : s.forMe p 1 = true) (hout : s.workSize < p.addr + p.body.length)
    (hin : ¬(apertureBase ≤ p.addr ∧ p.addr + p.body.length ≤ apertureBase + apertureSize)) :
    exec (.write link p) s = .next ((s.consume p).reply p 0x14 Code.range.toNat) := by
  change execWrite link p s = _
  simp only [execWrite, hme, workSize_consume, if_neg hout.not_ge, if_neg hin, Bool.not_true, Bool.false_eq_true, if_false]

/-- The physical core that an address of the aperture names, and the offset in its scratchpad (R304). -/
def apertureCore (s : State) (a : Nat) : Nat := s.physCore ((a - apertureBase) / 2 ^ 20 / 16) ((a - apertureBase) / 2 ^ 20 % 16)
def apertureOff (a : Nat) : Nat := (a - apertureBase) % 2 ^ 20

theorem padArrive_open {w : Nat}
    (hwin : s.windowFor (apertureCore s p.addr) (apertureOff p.addr) p.body.length p.src = some w) : s.padArrive p =
      ((s.padMasked (apertureCore s p.addr) (apertureOff p.addr) p.pmask p.body).bump64 .dmaWinLo .dmaWinHi
        (4 * apertureCore s p.addr + w) p.body.length).reply p 0x10 0 := by
  unfold apertureCore apertureOff at *
  simp only [padArrive, hwin]
  rfl

theorem padArrive_closed (hwin : s.windowFor (apertureCore s p.addr) (apertureOff p.addr) p.body.length p.src = none) :
    s.padArrive p = s.reply p 0x14 Code.busy.toNat := by
  unfold apertureCore apertureOff at *
  simp only [padArrive, hwin]

/-- A WRITE that an open window admits is stored and counted (R169). -/
theorem write_windowed (hmem : s.memWf = true) (w : Nat) :
    let c := apertureCore s p.addr
    let t := (s.padMasked c (apertureOff p.addr) p.pmask p.body).bump64 .dmaWinLo .dmaWinHi (4 * c + w) p.body.length
    s.PadStored (s.padMasked c (apertureOff p.addr) p.pmask p.body) c (apertureOff p.addr) p.body ∧ t.pads =
      (s.padMasked c (apertureOff p.addr) p.pmask p.body).pads ∧
    t.reg64 .dmaWinLo .dmaWinHi (4 * c + w) = (s.reg64 .dmaWinLo .dmaWinHi (4 * c + w) + p.body.length) % 2 ^ 64 ∧
    { t with pads := s.pads, padPoison := s.padPoison, regs := s.regs } = s := by
  intro c t
  have hstored := padStored_padMasked (wf_pad hmem c) (apertureOff p.addr) p.pmask p.body
  have hreg : (s.padMasked c (apertureOff p.addr) p.pmask p.body).reg64 .dmaWinLo .dmaWinHi (4 * c + w) =
      s.reg64 .dmaWinLo .dmaWinHi (4 * c + w) := (congrArg (State.reg64 · .dmaWinLo .dmaWinHi (4 * c + w)) hstored.only.frame :)
  refine ⟨hstored, rfl, ?_, (congrArg (fun u : State => { u with regs := s.regs }) hstored.only.frame :)⟩
  rw [reg64_bump64_self _ (by decide), hreg]

variable (hme : s.forMe p 2 = true)

include hme

theorem exec_read_range (hout : s.workSize < p.addr + p.arg) :
    exec (.read link p) s = .next ((s.consume p).reply p 0x14 Code.range.toNat) := by
  change execRead link p s = _
  simp only [execRead, hme, workSize_consume, if_pos hout, Bool.not_true, Bool.false_eq_true, if_false]

/-- A READ within working memory answers with bytes and marks, outside sealed pools. -/
theorem exec_read_in (hin : p.addr + p.arg ≤ s.workSize) : exec (.read link p) s =
    .next (if s.touchesSealed p.addr p.arg = true then ((s.consume p).bump .secProtEvt 0 1).reply p 0x14 Code.protection.toNat
      else (s.consume p).reply p 0x11 p.arg (s.cisRead p.addr p.arg).1 (s.cisMask p.addr p.arg)) := by
  change execRead link p s = _
  simp only [execRead, hme, workSize_consume, if_neg hin.not_gt, touchesSealed_consume, cisRead_consume, cisMask_consume,
    Bool.not_true, Bool.false_eq_true, if_false]
  split <;> rfl

end Aperture

/-! ### DIGEST (R407, R408) -/

/-- A chunk as a DIGEST finds it (R408): a RESENT one counts while the chunk is settled. -/
def Chunk.digested (x : Chunk) (p : Packet) : Chunk :=
  if p.addr.testBit 44 then (if x.settling.isSome then { x with resent := some p.arg } else x)
  else { x with digest := some p.arg, peer := p.src }

section Chunks

variable {s : State} {i c d : Nat}

@[simp] theorem cntChunk_dropChunk_self (s : State) (i c : Nat) : (s.dropChunk i c).cntChunk i c = noChunk := by
  simp [cntChunk, dropChunk]

/-- A full chunk whose digest agrees is done (R407). -/
theorem checkChunk_agrees (hset : (s.cntChunk i c).settling = none) (hdig : (s.cntChunk i c).digest = some d)
    (hfull : 65536 ≤ (s.cntChunk i c).bytes) (hsum : (s.cntChunk i c).sum = d) :
    s.checkChunk i c = (s.dropChunk i c).addBytes i 65536 := by
  unfold checkChunk
  simp only [hset, hdig, if_neg hfull.not_gt, if_pos hsum]

/-- A chunk whose round is taken again (R408). -/
def Chunk.again (x : Chunk) (tick : Nat) : Chunk := { x with bytes := 0, sum := 0, settling := some tick }

/-- A full chunk whose digest disagrees starts again, and asks for its bytes (R408). -/
theorem checkChunk_disagrees (hset : (s.cntChunk i c).settling = none) (hdig : (s.cntChunk i c).digest = some d)
    (hfull : 65536 ≤ (s.cntChunk i c).bytes) (hsum : (s.cntChunk i c).sum ≠ d) :
    (s.checkChunk i c).cntChunk i c = Chunk.again (s.cntChunk i c) s.ticks ∧ (s.checkChunk i c).cis = s.cis := by
  have hsent : ∀ (t : State) q, ((t.sendCtl q).cntChunk i c = t.cntChunk i c ∧ (t.sendCtl q).cis = t.cis) := fun t q => by
    have h := SendsOnly.sendCtl t q
    exact ⟨(congrArg (State.cntChunk · i c) h.frame :), h.cis⟩
  unfold checkChunk
  simp only [hset, hdig, if_neg hfull.not_gt, if_neg hsum]
  split
  all_goals
    rw [(hsent _ _).1, (hsent _ _).2]
    refine ⟨(cntChunk_setCntChunk_self s i c _).trans ?_, rfl⟩
    rw [Chunk.again, hdig]

section Resent

variable {d2 : Nat} (hset : (s.cntChunk i c).settling.isSome = true) (hdig : (s.cntChunk i c).digest = some d)
  (hres : (s.cntChunk i c).resent = some d2)

include hset hdig hres

/-- A RESENT digest that differs from the first settles the chunk as changed at the sender (R409). -/
theorem checkChunk_resent_differs (hd : d2 ≠ d) : s.checkChunk i c = s.settle i c 2 := by
  obtain ⟨since, hsince⟩ := Option.isSome_iff_exists.mp hset
  unfold checkChunk
  simp only [hsince, hdig, hres, if_pos hd]

/-- One that is the first, of a chunk that is full again, settles it by the sum and by what memory holds (R408, R409). -/
theorem checkChunk_resent_same (hd : d2 = d) (hfull : 65536 ≤ (s.cntChunk i c).bytes) : s.checkChunk i c =
    s.settle i c (if (s.cntChunk i c).sum ≠ d then 1
      else if digestWords (s.cntKey i) 0 (s.cisRead (s.chunkAt i c) 65536).1 ≠ d then 3 else 0) := by
  obtain ⟨since, hsince⟩ := Option.isSome_iff_exists.mp hset
  subst hd
  unfold checkChunk
  simp only [hsince, hdig, hres, ne_eq, not_true, if_false, if_neg hfull.not_gt]
  split
  · rfl
  · split <;> rfl

end Resent

end Chunks

section Digest

variable {s : State} {p : Packet} {link : Fin 36} {i : Nat}

/-- A DIGEST reaches the chunk that it names and has it checked. -/
theorem exec_digest (hme : s.forMe p 0x21 = true) (hcnt : s.chunkCnt (p.addr % 2 ^ 44) p.src = some i) :
    let c := (p.addr % 2 ^ 44 - (s.cntRange i).1) / 65536
    exec (.digest link p) s =
      .next (((s.consume p).setCntChunk i c (Chunk.digested (s.cntChunk i c) p)).checkChunk i c) := by
  change execDigest link p s = _
  simp only [execDigest, hme, chunkCnt_consume, hcnt, cntRange_consume, cntChunk_consume, Bool.not_true, Bool.false_eq_true,
    if_false]
  rfl

end Digest

/-! ### VERDICT, and the sump entry of a chunk (R408, R409, R421) -/

/-- Registers that raising a sump entry changes. -/
def sumpRegs : List Reg := [.sumpLost, .rasState, .sumpEvt, .sumpTail]

/-- An entry that is overwritten unread counts as lost (R421). -/
def sumpLoses (s : State) : State := ((s.bump .sumpLost 0 1).setFlag .rasState 0 1 true).bump .sumpEvt 0 1

/-- The entry of a settled chunk takes the next number. -/
theorem chunkSump_eq (s : State) (peer a cls : Nat) : ∃ t m, (t = s ∨ t = sumpLoses s) ∧ s.chunkSump peer a cls =
    { t.setReg .sumpTail 0 (BitVec.ofNat 32 (nextSeq (s.reg .sumpTail 0).toNat)) with sump := m, sumpIrq := true } := by
  unfold chunkSump raise
  extract_lets seq slot head unread t u
  refine ⟨t, _, ?_, rfl⟩
  unfold t
  split
  · exact .inr rfl
  · exact .inl rfl

/-- `t` is `s` after a sump entry was raised: it took the next number. -/
structure SumpRaised (s t : State) : Prop where
  kept : RegsKept sumpRegs s t
  tail : t.reg .sumpTail 0 = BitVec.ofNat 32 (nextSeq (s.reg .sumpTail 0).toNat)
  frame : { t with regs := s.regs, sump := s.sump, sumpIrq := s.sumpIrq } = s

theorem sumpRaised_chunkSump (s : State) (peer a cls : Nat) : SumpRaised s (s.chunkSump peer a cls) := by
  obtain ⟨t, m, ht, heq⟩ := chunkSump_eq s peer a cls
  have hspec : RegsKept sumpRegs s t ∧ { t with regs := s.regs } = s := by
    rcases ht with rfl | rfl
    · exact ⟨.refl _ t, rfl⟩
    · exact ⟨(((RegsKept.refl _ s).bump (by decide) (by decide) _).setFlag (by decide) (by decide) _ _).bump (by decide)
        (by decide) _, rfl⟩
  obtain ⟨hkept, hframe⟩ := hspec
  rw [heq]
  generalize hv : BitVec.ofNat 32 (nextSeq (s.reg .sumpTail 0).toNat) = v
  exact ⟨hkept.setReg (r := .sumpTail) (by decide) (by decide) v, hv ▸ reg_setReg_self t .sumpTail 0 v,
    (congrArg (fun x : State => { x with sump := s.sump, sumpIrq := s.sumpIrq }) hframe :)⟩

@[simp] theorem dsChunk_setDsChunk_self (s : State) (i c : Nat) (x : Chunk) : (s.setDsChunk i c x).dsChunk i c = x := by
  simp [dsChunk, setDsChunk]

theorem flag_setFlag_self (s : State) (r : Reg) (i : Nat) {b : Nat} (hb : b < 32) : (s.setFlag r i b true).flag r i b = true := by
  rw [flag, setFlag, setFld, reg_setReg_self, BitVec.getLsbD_ofNat, testBit_setBits _ _ _ le_rfl]
  simp [hb, bit]

/-! ### RESEND (R397, R408) -/

namespace State

/-- `t` is `s` after requests were sent: transactions differ too. -/
structure RequestsOnly (s t : State) : Prop where
  frame : { t with links := s.links, regs := s.regs, outbox := s.outbox, txns := s.txns } = s
  kept : RegsKept sendRegs s t

namespace RequestsOnly

variable {s t u : State}

theorem refl (s : State) : s.RequestsOnly s := ⟨rfl, .refl _ _⟩

theorem trans (h : s.RequestsOnly t) (h' : t.RequestsOnly u) : s.RequestsOnly u :=
  ⟨(congrArg (fun x : State => { x with links := s.links, regs := s.regs, outbox := s.outbox, txns := s.txns }) h'.frame).trans
    h.frame, h.kept.trans h'.kept⟩

theorem of_sends {m : SMap Txn} (h : SendsOnly { s with txns := m } t) : s.RequestsOnly t :=
  ⟨(congrArg (fun x : State => { x with txns := s.txns }) h.frame :), h.kept⟩

end RequestsOnly

theorem fld_lt (s : State) (r : Reg) (i hi lo : Nat) : s.fld r i hi lo < 2 ^ (hi - lo + 1) := Nat.mod_lt _ (by positivity)

theorem linkUp_kept {s t : State} (h : RegsKept sendRegs s t) {l : Nat} (hl : l < 1048576) : t.linkUp l = s.linkUp l := by
  rw [linkUp, h.fld (by decide) hl, linkUp]

/-- Routes stay as packets are sent. -/
theorem route_kept {s t : State} (h : RegsKept sendRegs s t) {dst : Nat} (hdst : dst < 1048576) (hops : Nat) :
    t.route dst hops = s.route dst hops := by
  have hprim : s.fld .rt dst 5 0 < 64 := fld_lt ..
  have halt : s.fld .rt dst 11 6 < 64 := fld_lt ..
  simp only [route, h.fld (r := .rt) (by decide) hdst, h.flag (r := .rt) (by decide) hdst,
    linkUp_kept h (l := s.fld .rt dst 5 0) (by omega), linkUp_kept h (l := s.fld .rt dst 11 6) (by omega)]

/-- With a tag free at a place, the tag taken is free, and at the place or below (R397). -/
theorem freeTag_of_free {s : State} {die k : Nat} (hk : k < 8192) (hfree : s.txns.get? (8192 * die + k) = none) :
    ∃ t, t ≤ k ∧ s.freeTag die = some (8192 * die + t) ∧ s.txns.get? (8192 * die + t) = none := by
  unfold freeTag
  cases hfind : (List.range 8192).find? fun t => (s.txns.get? (8192 * die + t)).isNone with
  | none => simpa [hfree] using List.find?_eq_none.mp hfind k (List.mem_range.mpr hk)
  | some t =>
    obtain ⟨hopen, -, hfirst⟩ := List.find?_range_eq_some.mp hfind
    refine ⟨t, not_lt.mp fun hlt => ?_, rfl, Option.isNone_iff_eq_none.mp hopen⟩
    simpa [hfree] using hfirst k hlt

/-- The transaction that a request opens (R397). -/
def opened (s : State) (o : Owner) (ctx va : Nat) (p : Packet) (l t : Nat) : Txn :=
  ⟨o, { p with src := s.node, tag := t + 16384 * s.genOf 8 (4 + l / 18) }, ctx, s.epoch ctx, va, s.ticks, none, false⟩

theorem request_routed {s : State} {p : Packet} {l t : Nat} (hl : s.route p.dst 0 = some l) (ht : s.freeTag (l / 18) = some t)
    (o : Owner) (ctx va : Nat) : s.request o ctx va p =
      .sent t (sendOn { s with txns := s.txns.set t (s.opened o ctx va p l t) } l (s.opened o ctx va p l t).pkt) := by
  unfold request
  simp only [hl, ht]
  rfl

end State

/-- One of the WRITEs by which a chunk is sent again (R408). -/
def resendPart (node at_ core pad : Nat) (s : State) (k : Nat) : State :=
  match s.request .other noCtx 0
      (writePkt node (at_ + 2048 * k) (s.padRead core (pad + 2048 * k) 2048).1 (pmaskOf s core (pad + 2048 * k) 2048)) with
  | .sent _ t => t
  | .waits => s
  | .undeliverable t => t

section Parts

variable {s : State} {node at_ core pad : Nat}

theorem requestsOnly_resendPart (s : State) (k : Nat) : s.RequestsOnly (resendPart node at_ core pad s k) := by
  unfold resendPart
  generalize writePkt node (at_ + 2048 * k) (s.padRead core (pad + 2048 * k) 2048).1 (pmaskOf s core (pad + 2048 * k) 2048) = p
  cases hroute : s.route p.dst 0 with
  | none =>
    simp only [request, hroute]
    exact .of_sends (SendsOnly.bump_noroute s)
  | some l =>
    cases htag : s.freeTag (l / 18) with
    | none =>
      simp only [request, hroute, htag]
      exact .refl s
    | some t =>
      rw [request_routed hroute htag]
      exact .of_sends (.sendOn _ (route_lt hroute) ..)

theorem requestsOnly_parts (s : State) (n : Nat) : s.RequestsOnly ((List.range n).foldl (resendPart node at_ core pad) s) :=
  List.foldlRecOn (motive := fun t => s.RequestsOnly t) _ _ (.refl s) fun t ht k _ => ht.trans (requestsOnly_resendPart t k)

/-- Part `k` of a chunk is on its way. -/
def PartSent (s : State) (node at_ core pad : Nat) (t : State) (k : Nat) : Prop :=
  ∃ tag x, t.txns.get? tag = some x ∧ x.owner = .other ∧ x.pkt.type = 0x01 ∧ x.pkt.dst = node ∧ x.pkt.addr = at_ + 2048 * k ∧
    x.pkt.body = (s.padRead core (pad + 2048 * k) 2048).1

/-- A part with a route and a tag opens its transaction. -/
theorem resendPart_routed {l tag : Nat} (hroute : s.route node 0 = some l) (htag : s.freeTag (l / 18) = some tag) (k : Nat) :
    ∃ x : Txn, (resendPart node at_ core pad s k).txns = s.txns.set tag x ∧ x.owner = .other ∧ x.pkt.type = 0x01 ∧
      x.pkt.dst = node ∧ x.pkt.addr = at_ + 2048 * k ∧ x.pkt.body = (s.padRead core (pad + 2048 * k) 2048).1 := by
  unfold resendPart
  generalize (s.padRead core (pad + 2048 * k) 2048).1 = bs
  generalize pmaskOf s core (pad + 2048 * k) 2048 = mask
  rw [request_routed (p := writePkt node (at_ + 2048 * k) bs mask) hroute htag]
  exact ⟨_, (SendsOnly.sendOn _ (route_lt hroute) _ _).txns, rfl, rfl, rfl, rfl, rfl⟩

/-- With no transaction open every part finds a tag: the first ones of the die are taken in order. -/
theorem parts_sent {l : Nat} (hroute : s.route node 0 = some l) (hnode : node < 1048576) (htxns : s.txns = []) {n : Nat}
    (hn : n ≤ 8192) :
    (∀ j, n ≤ j → ((List.range n).foldl (resendPart node at_ core pad) s).txns.get? (8192 * (l / 18) + j) = none) ∧
    ∀ k, k < n → PartSent s node at_ core pad ((List.range n).foldl (resendPart node at_ core pad) s) k := by
  induction n with
  | zero => exact ⟨fun j _ => by simp [htxns], nofun⟩
  | succ n ih =>
    obtain ⟨hfree, hsent⟩ := ih (by omega)
    have honly : s.RequestsOnly ((List.range n).foldl (resendPart node at_ core pad) s) := requestsOnly_parts s n
    rw [List.range_succ, List.foldl_append, List.foldl_cons, List.foldl_nil]
    generalize (List.range n).foldl (resendPart node at_ core pad) s = t at hfree hsent honly
    obtain ⟨tag, htag, hfound, hopen⟩ := freeTag_of_free (by omega) (hfree n le_rfl)
    obtain ⟨x, htx, howner, htype, hdst, haddr, hbody⟩ := resendPart_routed (at_ := at_) (core := core) (pad := pad)
      ((route_kept honly.kept hnode 0).trans hroute) hfound n
    have hpad : ∀ a m, t.padRead core a m = s.padRead core a m := fun a m => (congrArg (padRead · core a m) honly.frame :)
    rw [hpad] at hbody
    refine ⟨fun j hj => ?_, fun k hk => ?_⟩
    · rw [htx, SMap.get?_set_ne _ _ (by omega)]
      exact hfree j (by omega)
    · rcases Nat.lt_succ_iff_lt_or_eq.mp hk with hk | rfl
      · obtain ⟨tag', x', hget, hx'⟩ := hsent k hk
        refine ⟨tag', x', ?_, hx'⟩
        rw [htx, SMap.get?_set_ne _ _ fun heq => ?_]
        · exact hget
        · rw [heq, hopen] at hget
          cases hget
      · exact ⟨_, x, by rw [htx, SMap.get?_set_self], howner, htype, hdst, haddr, hbody⟩

end Parts

/-- The words with which a stream records a class for a chunk of it, and stops (R409). -/
def dsFailed (s : State) (i c cls : Nat) : State :=
  (s.setReg .dsFail i (BitVec.ofNat 32 (c + 2 ^ 24 * cls))).setFlag .dsCfg i 31 true

theorem dsFailed_spec (s : State) (i c cls : Nat) :
    (dsFailed s i c cls).reg .dsFail i = BitVec.ofNat 32 (c + 2 ^ 24 * cls) ∧ (dsFailed s i c cls).flag .dsCfg i 31 = true :=
  ⟨(reg_setReg_other _ (by decide) i _).trans (reg_setReg_self ..), flag_setFlag_self _ _ _ (by decide)⟩

/-- A RESEND performed: the chunk's bytes leave, the new digest `d` is kept and sent, and one that is not the old one stops the
stream (R408). -/
def resendChunk (s : State) (p : Packet) (i d : Nat) : State :=
  let c := (p.addr - (s.dsRange i).1) / 65536
  let t := (List.range 32).foldl (resendPart p.src ((s.dsRange i).1 + 65536 * c) (s.dsCore i) ((s.fld .dsGeom i 8 5 + c) * 65536)) s
  let u := t.setDsChunk i c { s.dsChunk i c with settling := some t.ticks, resent := some d }
  (if (s.dsChunk i c).digest = some d then u else dsFailed u i c 2).sendCtl (digestPkt p.src ((s.dsRange i).1 + 65536 * c) d true)

section Resend

variable {s : State} {p : Packet} {link : Fin 36} {i : Nat}

theorem exec_resend (hme : s.forMe p 0x22 = true) (hds : s.chunkDs p.addr p.src = some i) (htxns : s.txns = []) :
    let u := s.consume p
    exec (.resend link p) s = .next (resendChunk u p i (digestWords (u.dsKey i) 0
      (u.padRead (u.dsCore i) ((u.fld .dsGeom i 8 5 + (p.addr - (u.dsRange i).1) / 65536) * 65536) 65536).1)) := by
  change execResend link p s = _
  have hroom : ∀ die, ¬8160 < (s.txns.filter fun kv => kv.1 / 8192 == die).length := fun die => by simp [htxns]
  simp only [execResend, hme, hds, if_neg (hroom _), Bool.not_true, Bool.false_eq_true, if_false]
  rfl

theorem chunkDs_spec (h : s.chunkDs p.addr p.src = some i) : i < 256 ∧ p.src < 4096 := by
  have hmem := List.mem_range.mp (List.mem_of_find?_eq_some h)
  have hsrc := List.find?_some h
  simp only [Bool.and_eq_true, beq_iff_eq] at hsrc
  exact ⟨hmem, hsrc.1.2 ▸ fld_lt ..⟩

/-- What a RESEND that is performed leaves. -/
theorem resendChunk_spec (hds : s.chunkDs p.addr p.src = some i) (htxns : s.txns = []) (d : Nat) :
    let c := (p.addr - (s.dsRange i).1) / 65536
    let t := resendChunk s p i d
    (t.cis = s.cis ∧ t.pads = s.pads ∧ t.cores = s.cores) ∧
    t.dsChunk i c = { s.dsChunk i c with settling := some s.ticks, resent := some d } ∧
    ((s.dsChunk i c).digest ≠ some d → t.reg .dsFail i = BitVec.ofNat 32 (c + 2 ^ 25) ∧ t.flag .dsCfg i 31 = true) ∧
    ∀ l, s.route p.src 0 = some l → ∀ k, k < 32 →
      PartSent s p.src ((s.dsRange i).1 + 65536 * c) (s.dsCore i) ((s.fld .dsGeom i 8 5 + c) * 65536) t k := by
  obtain ⟨hi, hsrc⟩ := chunkDs_spec hds
  intro c t
  have honly := requestsOnly_parts (node := p.src) (at_ := (s.dsRange i).1 + 65536 * c) (core := s.dsCore i)
    (pad := (s.fld .dsGeom i 8 5 + c) * 65536) s 32
  have hparts : ∀ l, s.route p.src 0 = some l → ∀ k, k < 32 → PartSent s p.src ((s.dsRange i).1 + 65536 * c) (s.dsCore i)
      ((s.fld .dsGeom i 8 5 + c) * 65536) ((List.range 32).foldl (resendPart p.src ((s.dsRange i).1 + 65536 * c) (s.dsCore i)
        ((s.fld .dsGeom i 8 5 + c) * 65536)) s) k :=
    fun l hl => (parts_sent hl (by omega) htxns (by decide)).2
  generalize hr : (List.range 32).foldl (resendPart p.src ((s.dsRange i).1 + 65536 * c) (s.dsCore i)
    ((s.fld .dsGeom i 8 5 + c) * 65536)) s = r at honly hparts
  obtain ⟨v, hv⟩ : ∃ v : State, v = if (s.dsChunk i c).digest = some d then r.setDsChunk i c { s.dsChunk i c with settling := some r.ticks, resent := some d }
    else dsFailed (r.setDsChunk i c { s.dsChunk i c with settling := some r.ticks, resent := some d }) i c 2 := ⟨_, rfl⟩
  have ht : t = v.sendCtl (digestPkt p.src ((s.dsRange i).1 + 65536 * c) d true) := by
    rw [hv, ← hr]
    rfl
  have hticks : r.ticks = s.ticks := (congrArg State.ticks honly.frame :)
  have hvr : { v with regs := r.regs } = r.setDsChunk i c { s.dsChunk i c with settling := some s.ticks, resent := some d } := by
    rw [hv, hticks]
    split <;> rfl
  have hsend := SendsOnly.sendCtl v (digestPkt p.src ((s.dsRange i).1 + 65536 * c) d true)
  rw [ht]
  refine ⟨⟨?_, ?_, ?_⟩, ?_, fun hne => ?_, fun l hl k hk => ?_⟩
  · exact hsend.cis.trans ((congrArg State.cis hvr :).trans (congrArg State.cis honly.frame :))
  · exact hsend.pads.trans ((congrArg State.pads hvr :).trans (congrArg State.pads honly.frame :))
  · exact hsend.cores.trans ((congrArg State.cores hvr :).trans (congrArg State.cores honly.frame :))
  · exact (congrArg (State.dsChunk · i c) hsend.frame :).trans ((congrArg (State.dsChunk · i c) hvr :).trans (dsChunk_setDsChunk_self ..))
  · obtain ⟨hfail, hstop⟩ := dsFailed_spec (r.setDsChunk i c { s.dsChunk i c with settling := some r.ticks, resent := some d }) i c 2
    rw [if_neg hne] at hv
    rw [← hv] at hfail hstop
    exact ⟨(hsend.kept _ i (by decide) (by omega)).trans hfail, (hsend.kept.flag (by decide) (by omega) _).trans hstop⟩
  · obtain ⟨tag, x, hget, hx⟩ := hparts l hl k hk
    have htx : v.txns = r.txns := (congrArg State.txns hvr :)
    exact ⟨tag, x, by rw [hsend.txns, htx, hget], hx⟩

end Resend

/-! ### VERDICT (R408, R409) -/

/-- A stream records the class of a settled chunk, and stops for one that is not zero (R409). -/
def recordVerdict (s : State) (i c cls : Nat) : State :=
  if cls = 0 then s.setReg .dsFail i (BitVec.ofNat 32 (c + 2 ^ 24 * cls)) else dsFailed s i c cls

section Verdict

variable {s : State} {p : Packet} {link : Fin 36} {i : Nat}

theorem recordVerdict_spec (s : State) (hi : i < 256) (c cls : Nat) : RegsOnly [.dsFail, .dsCfg] s (recordVerdict s i c cls) ∧
    (recordVerdict s i c cls).reg .dsFail i = BitVec.ofNat 32 (c + 2 ^ 24 * cls) ∧
    (cls ≠ 0 → (recordVerdict s i c cls).flag .dsCfg i 31 = true) := by
  have hkept : ∀ v, RegsKept [.dsFail, .dsCfg] s (s.setReg .dsFail i v) := fun v =>
    (RegsKept.refl _ s).setReg (by decide) (by omega) v
  unfold recordVerdict
  split
  · next hcls => exact ⟨⟨rfl, hkept _⟩, reg_setReg_self .., absurd hcls⟩
  · obtain ⟨hfail, hstop⟩ := dsFailed_spec s i c cls
    exact ⟨⟨rfl, (hkept _).setFlag (by decide) (by omega) _ _⟩, hfail, fun _ => hstop⟩

theorem exec_verdict (hme : s.forMe p 0x23 = true) (hds : s.chunkDs p.addr p.src = some i) :
    let u := s.consume p
    let c := (p.addr - (u.dsRange i).1) / 65536
    exec (.verdict link p) s = .next (((recordVerdict u i c p.arg).setDsChunk i c
      { u.dsChunk i c with settling := none, resent := none }).chunkSump p.src p.addr p.arg) := by
  change execVerdict link p s = _
  simp only [execVerdict, hme, chunkDs_consume, hds, Bool.not_true, Bool.false_eq_true, if_false]
  unfold recordVerdict
  split <;> rfl

/-- What a VERDICT leaves once its sump entry is raised. -/
theorem verdict_raised {t : State} {c : Nat} {x : Chunk} (cls : Nat) (hi : i < 256)
    (h : SumpRaised ((recordVerdict s i c cls).setDsChunk i c x) t) :
    t.reg .dsFail i = BitVec.ofNat 32 (c + 2 ^ 24 * cls) ∧ (cls ≠ 0 → t.flag .dsCfg i 31 = true) ∧ t.dsChunk i c = x ∧
      t.reg .sumpTail 0 = BitVec.ofNat 32 (nextSeq (s.reg .sumpTail 0).toNat) ∧ t.cis = s.cis ∧ t.cores = s.cores := by
  obtain ⟨honly, hfail, hstop⟩ := recordVerdict_spec s hi c cls
  generalize recordVerdict s i c cls = r at h honly hfail hstop
  obtain ⟨hkept, htail, hframe⟩ := h
  have htail' : (r.setDsChunk i c x).reg .sumpTail 0 = s.reg .sumpTail 0 := honly.kept .sumpTail 0 (by decide) (by decide)
  refine ⟨(hkept _ i (by decide) (by omega)).trans hfail, fun hcls => (hkept.flag (by decide) (by omega) _).trans (hstop hcls),
    (congrArg (State.dsChunk · i c) hframe :).trans (dsChunk_setDsChunk_self ..), by rw [htail, htail'], ?_, ?_⟩
  · exact (congrArg State.cis hframe :).trans (congrArg State.cis honly.frame :)
  · exact (congrArg State.cores hframe :).trans (congrArg State.cores honly.frame :)

end Verdict

/-! ### TLK_CNT_i_CTRL (R404) -/

/-- CLR of a counter, accepted, clears its counts and its chunks. -/
theorem exec_tlkCntClr {s : State} {src : Src} {i : Fin 256} (h : Accepted s src .cntCtrl i.val 1 (s.cntCtrlCheck i.val 1)) :
    exec (.tlkCntClr src i) s =
      .next (({ (s.setReg64 .cntBytesLo .cntBytesHi i.val 0).setReg .cntPackets i.val 0 with
        cntChunks := s.cntChunks.erase i.val } : State).noted src .cntCtrl i.val 1) := by
  have hname : s.nameQueue .cntCtrl i.val = s := if_neg (by decide)
  refine congrArg Host.Outcome.next ((busWrite_accepted h).trans ?_)
  rw [hname]
  rfl

/-! ### Answers (R170, R397, R427) -/

/-- Packets of lookups that wait for a tag are looked for in vain. -/
theorem drainLk_idle {s : State} (h : ∀ kv ∈ s.cores, kv.2.lkWaits = []) : drainLk s = s := by
  unfold drainLk
  refine List.foldlRecOn (motive := fun t => t = s) _ _ rfl fun t ht kv hkv => ?_
  rw [h kv hkv, List.foldl_nil, ht]

theorem SMap.mem_set {α : Type} {m : SMap α} {i : Nat} {a : α} {kv : Nat × α} (h : kv ∈ SMap.set m i a) :
    kv = (i, a) ∨ kv ∈ m := by
  induction m with
  | nil => exact .inl (List.mem_singleton.mp h)
  | cons kx m ih =>
    obtain ⟨k, x⟩ := kx
    unfold SMap.set at h
    split at h
    · exact List.mem_cons.mp h
    · split at h
      · exact (List.mem_cons.mp h).imp_right (List.mem_cons_of_mem _)
      · rcases List.mem_cons.mp h with rfl | h
        · exact .inr List.mem_cons_self
        · exact (ih h).imp_right (List.mem_cons_of_mem _)

/-- A change of a core that leaves its waiting packets leaves every core without them as it found it. -/
theorem idle_modCore {s : State} (h : ∀ kv ∈ s.cores, kv.2.lkWaits = []) (c : Nat) {f : Core → Core}
    (hf : ∀ k, (f k).lkWaits = k.lkWaits) : ∀ kv ∈ (s.modCore c f).cores, kv.2.lkWaits = [] := by
  intro kv hkv
  rcases SMap.mem_set hkv with rfl | hkv
  · rw [hf, State.core, SMap.getD]
    cases hget : s.cores.get? c with
    | none => rfl
    | some k => exact h _ (SMap.mem_of_get? hget)
  · exact h kv hkv

section Answers

variable {s : State} {p : Packet} {link : Fin 36}

/-- The state in which an answer has ended its transaction. -/
def State.answered (s : State) (p : Packet) : State := { s.consume p with txns := s.txns.erase (p.tag % 16384) }

section Fresh

variable (hgen : p.tag / 16384 = s.genOf 8 (4 + p.tag % 16384 / 8192))

include hgen

theorem takeTxn_open {x : Txn} (hx : s.txns.get? (p.tag % 16384) = some x) (howner : x.owner ≠ .gone) :
    s.takeTxn p = (some x, s.answered p) := by
  unfold takeTxn
  simp only [genOf_consume, txns_consume, hgen, hx, ne_eq, not_true, if_false, if_neg howner]
  rfl

theorem takeTxn_late (hx : s.txns.get? (p.tag % 16384) = none) : s.takeTxn p = (none, (s.consume p).bump .tlkLate 0 1) := by
  unfold takeTxn
  simp only [genOf_consume, txns_consume, hgen, hx, ne_eq, not_true, if_false]

end Fresh

theorem takeTxn_old (hgen : p.tag / 16384 ≠ s.genOf 8 (4 + p.tag % 16384 / 8192)) :
    s.takeTxn p = (none, (s.consume p).bump .rasLate 0 1) := by
  unfold takeTxn
  simp only [genOf_consume]
  exact if_pos hgen

theorem exec_wack (hme : s.forMe p 0x10 = true) : exec (.wack link p) s = .next (drainLk (s.takeTxn p).2) := by
  change execWack link p s = _
  simp only [execWack, hme, Bool.not_true, Bool.false_eq_true, if_false]

section Taken

variable {x : Txn} {t : State}

theorem exec_rdata_open (hme : s.forMe p 0x11 = true) (htake : s.takeTxn p = (some x, t)) :
    exec (.rdata link p) s = .next (drainLk (readDone t (p.tag % 16384) x p)) := by
  change execRdata link p s = _
  simp only [execRdata, hme, htake, Bool.not_true, Bool.false_eq_true, if_false]

theorem exec_rdata_dropped (hme : s.forMe p 0x11 = true) (htake : s.takeTxn p = (none, t)) : exec (.rdata link p) s = .next t := by
  change execRdata link p s = _
  simp only [execRdata, hme, htake, Bool.not_true, Bool.false_eq_true, if_false]

theorem exec_nak_dropped (hme : s.forMe p 0x14 = true) (htake : s.takeTxn p = (none, t)) : exec (.nak link p) s = .next t := by
  change execNak link p s = _
  simp only [execNak, hme, htake, Bool.not_true, Bool.false_eq_true, if_false]

/-- A refusal ends its transaction, but for BUSY of a write (R170). -/
theorem exec_nak_fails {code : Code} (hme : s.forMe p 0x14 = true) (htake : s.takeTxn p = (some x, t))
    (hcode : Code.ofByte p.arg = some code) (hends : code ≠ .busy ∨ x.pkt.type ≠ 1) :
    exec (.nak link p) s = .next (t.failTxn (p.tag % 16384) x code) := by
  change execNak link p s = _
  simp only [execNak, hme, htake, hcode, Option.getD_some, Bool.not_true, Bool.false_eq_true, if_false,
    if_neg (not_and_or.mpr hends)]

/-- A write that BUSY refuses is kept to be sent again (R170). -/
theorem exec_nak_busy (hme : s.forMe p 0x14 = true) (htake : s.takeTxn p = (some x, t)) (hcode : p.arg = Code.busy.toNat)
    (htype : x.pkt.type = 1) : exec (.nak link p) s = .next { t with
      txns := t.txns.set (p.tag % 16384) { x with refused := some (x.refused.getD t.ticks), retry := true } } := by
  have hbusy : Code.ofByte p.arg = some .busy := by rw [hcode]; rfl
  change execNak link p s = _
  simp only [execNak, hme, htake, hbusy, Option.getD_some, Bool.not_true, Bool.false_eq_true, if_false, htype, and_self, if_true]

end Taken

end Answers

/-! ### The clauses on WRITE (R403, R404, R407) -/

section WriteClauses

variable {s : State} {p : Packet} {link : Fin 36} (hme : s.forMe p 1 = true) (hin : p.addr + p.body.length ≤ s.workSize)

include hme hin

section Admitted

variable (hw : s.cis.wf = true) (hkey : ∀ x, x < p.body.length → s.keyAt (p.addr + x) = s.keyAt p.addr)
  (hadmit : ∀ i ∈ s.cntsMet p.addr p.body.length, s.cntAdmits i p.src = true)

include hw hkey hadmit

theorem exec_write_admitted : exec (.write link p) s = .next (((s.cntsMet p.addr p.body.length).foldl (arriveBytes p.addr p.body)
    (cisPacket (s.consume p) p)).reply p 0x10 0) := by
  obtain ⟨L, hL⟩ := s.consume_eq p
  rw [exec_write_cis hme hin, hL]
  exact congrArg Host.Outcome.next (cisArrive_admitted (s := s.withLinks L) hw hkey hadmit)

/-- A WRITE to counters without DIGEST is stored and counted. -/
theorem exec_write_counted (hplain : ∀ i ∈ s.cntsMet p.addr p.body.length, s.flag .cntCfg i 7 = false) :
    ∃ t : State, exec (.write link p) s = .next (t.reply p 0x10 0) ∧ PacketStored s t p ∧
      (∀ i, i < 256 → t.reg64 .cntBytesLo .cntBytesHi i = if i ∈ s.cntsMet p.addr p.body.length then
          (s.reg64 .cntBytesLo .cntBytesHi i + arrived s p.addr p.body.length i) % 2 ^ 64
        else s.reg64 .cntBytesLo .cntBytesHi i) ∧
      (∀ i, i < 256 → t.reg .cntPackets i = if i ∈ s.cntsMet p.addr 1 then s.reg .cntPackets i + 1 else s.reg .cntPackets i) ∧
      { t with cis := s.cis, cisKey := s.cisKey, cisPoison := s.cisPoison, regs := s.regs, links := s.links } = s := by
  have hexec := exec_write_admitted (link := link) hme hin hw hkey hadmit
  obtain ⟨L, hL⟩ := s.consume_eq p
  rw [hL] at hexec
  obtain ⟨⟨hstored, hmarks, hclears⟩, hbytes, hpackets, hframe⟩ := write_counted (s := s.withLinks L) hw hkey hplain
  exact ⟨_, hexec, ⟨hstored, hmarks, hclears⟩, hbytes, hpackets, (congrArg (fun t : State => { t with links := s.links }) hframe :)⟩

/-- A WRITE to one counter with DIGEST is stored and enters its chunk. -/
theorem exec_write_digested {i : Nat} (hmet : s.cntsMet p.addr p.body.length = [i]) (hdigest : s.flag .cntCfg i 7 = true)
    (hlo : (s.cntRange i).1 ≤ p.addr) :
    let o := p.addr - (s.cntRange i).1
    let x := s.cntChunk i (o / 65536)
    o % 65536 + p.body.length ≤ 65536 → x.settling = none → x.digest = none →
    ∃ t : State, exec (.write link p) s = .next (t.reply p 0x10 0) ∧ PacketStored s t p ∧
      t.cntChunk i (o / 65536) = Chunk.take x (s.cntKey i) (o % 65536 / 8) p.body := by
  intro o x hfit hset hdig
  have hexec := exec_write_admitted (link := link) hme hin hw hkey hadmit
  obtain ⟨L, hL⟩ := s.consume_eq p
  rw [hL] at hexec
  obtain ⟨⟨hstored, hmarks, hclears⟩, hchunk⟩ := write_digested (s := s.withLinks L) hw hkey hmet hdigest hlo hfit hset hdig
  exact ⟨_, hexec, ⟨hstored, hmarks, hclears⟩, hchunk⟩

end Admitted

theorem exec_write_refused (hrefuse : ∃ i ∈ s.cntsMet p.addr p.body.length, s.cntAdmits i p.src = false) :
    exec (.write link p) s = .next ((s.consume p).reply p 0x14 Code.protection.toNat) := by
  rw [exec_write_cis hme hin, cisArrive_refused (by simpa using hrefuse)]

end WriteClauses

section ApertureClauses

variable {s : State} {p : Packet} {link : Fin 36} (hme : s.forMe p 1 = true) (hout : s.workSize < p.addr + p.body.length)
  (hin : apertureBase ≤ p.addr ∧ p.addr + p.body.length ≤ apertureBase + apertureSize)

include hme hout hin

/-- A WRITE that a window admits lands in its scratchpad (R169, R170). -/
theorem exec_write_windowed (hmem : s.memWf = true) {w : Nat}
    (hwin : s.windowFor (apertureCore s p.addr) (apertureOff p.addr) p.body.length p.src = some w) :
    let c := apertureCore s p.addr
    ∃ t : State, exec (.write link p) s = .next (t.reply p 0x10 0) ∧
      (∀ i, (h : i < p.body.length) → (t.pad c).read (apertureOff p.addr + i) = p.body[i]) ∧
      (∀ y, y < apertureOff p.addr ∨ apertureOff p.addr + p.body.length ≤ y → (t.pad c).read y = (s.pad c).read y) ∧
      (∀ q, q ≠ c → t.pad q = s.pad q) ∧
      t.reg64 .dmaWinLo .dmaWinHi (4 * c + w) = (s.reg64 .dmaWinLo .dmaWinHi (4 * c + w) + p.body.length) % 2 ^ 64 ∧
      { t with pads := s.pads, padPoison := s.padPoison, regs := s.regs, links := s.links } = s := by
  intro c
  have hexec := exec_write_pad (link := link) hme hout hin
  obtain ⟨L, hL⟩ := s.consume_eq p
  rw [hL, padArrive_open (s := s.withLinks L) hwin] at hexec
  obtain ⟨⟨honly, -, hbytes, hrest⟩, -, hcount, hframe⟩ := write_windowed (s := s.withLinks L) (p := p) hmem w
  exact ⟨_, hexec, hbytes, hrest, honly.others, hcount, (congrArg (fun t : State => { t with links := s.links }) hframe :)⟩

theorem exec_write_unwindowed (hwin : s.windowFor (apertureCore s p.addr) (apertureOff p.addr) p.body.length p.src = none) :
    exec (.write link p) s = .next ((s.consume p).reply p 0x14 Code.busy.toNat) := by
  have hcore : apertureCore (s.consume p) p.addr = apertureCore s p.addr := physCore_consume ..
  rw [exec_write_pad hme hout hin, padArrive_closed (by rw [hcore, windowFor_consume]; exact hwin)]

end ApertureClauses

/-! ### The clauses on DIGEST and RESEND (R407, R408) -/

theorem Chunk.digested_first {x : Chunk} {p : Packet} (h : p.addr.testBit 44 = false) :
    x.digested p = { x with digest := some p.arg, peer := p.src } := if_neg (Bool.eq_false_iff.mp h)

theorem Chunk.digested_resent {x : Chunk} {p : Packet} (h : p.addr.testBit 44 = true) (hset : x.settling.isSome = true) :
    x.digested p = { x with resent := some p.arg } := by rw [digested, if_pos h, if_pos hset]

/-- Bytes that count change the registers of their counter alone. -/
theorem addBytes_spec (s : State) (i n : Nat) : (s.addBytes i n).reg64 .cntBytesLo .cntBytesHi i =
    (s.reg64 .cntBytesLo .cntBytesHi i + n) % 2 ^ 64 ∧ { s.addBytes i n with regs := s.regs } = s :=
  ⟨reg64_bump64_self s (by decide) i n, rfl⟩

/-- A chunk that starts afresh changes the chunks alone. -/
theorem dropChunk_frame (s : State) (i c : Nat) (x : Chunk) :
    { (s.setCntChunk i c x).dropChunk i c with cntChunks := s.cntChunks } = s := rfl

/-- A chunk that is done is counted whole (R407). -/
theorem addBytes_dropChunk_spec (s : State) (i c : Nat) (x : Chunk) :
    let t := ((s.setCntChunk i c x).dropChunk i c).addBytes i 65536
    t.reg64 .cntBytesLo .cntBytesHi i = (s.reg64 .cntBytesLo .cntBytesHi i + 65536) % 2 ^ 64 ∧
    t.cntChunk i c = noChunk ∧ { t with regs := s.regs, cntChunks := s.cntChunks } = s := by
  have hdrop := dropChunk_frame s i c x
  have hchunk := cntChunk_dropChunk_self (s.setCntChunk i c x) i c
  generalize (s.setCntChunk i c x).dropChunk i c = u at hdrop hchunk
  obtain ⟨hcount, hframe⟩ := addBytes_spec u i 65536
  dsimp only
  generalize u.addBytes i 65536 = t at hcount hframe ⊢
  have hreg : u.reg64 .cntBytesLo .cntBytesHi i = s.reg64 .cntBytesLo .cntBytesHi i :=
    (congrArg (State.reg64 · .cntBytesLo .cntBytesHi i) hdrop :)
  have hregs : u.regs = s.regs := (congrArg State.regs hdrop :)
  refine ⟨hreg ▸ hcount, ?_, ?_⟩
  · exact (congrArg (State.cntChunk · i c) hframe :).trans hchunk
  · exact (congrArg (fun v : State => { v with regs := s.regs, cntChunks := s.cntChunks }) hframe :).trans
      ((congrArg (fun v : State => { v with regs := s.regs }) hdrop :) : _ = s)

section DigestClauses

variable {s : State} {p : Packet} {link : Fin 36} {i c : Nat} (hme : s.forMe p 0x21 = true)
  (hcnt : s.chunkCnt (p.addr % 2 ^ 44) p.src = some i) (hc : c = (p.addr % 2 ^ 44 - (s.cntRange i).1) / 65536)

include hme hcnt hc

section First

variable (hfirst : p.addr.testBit 44 = false) (hset : (s.cntChunk i c).settling = none) (hfull : 65536 ≤ (s.cntChunk i c).bytes)

include hfirst hset hfull

/-- The digest of a full chunk that agrees raises the count by the chunk. -/
theorem exec_digest_agrees (hsum : (s.cntChunk i c).sum = p.arg) : ∃ t, exec (.digest link p) s = .next t ∧
    t.reg64 .cntBytesLo .cntBytesHi i = (s.reg64 .cntBytesLo .cntBytesHi i + 65536) % 2 ^ 64 ∧
    t.cntChunk i c = State.noChunk ∧ { t with regs := s.regs, cntChunks := s.cntChunks, links := s.links } = s := by
  have hexec := exec_digest (link := link) hme hcnt
  dsimp only at hexec
  rw [← hc, Chunk.digested_first hfirst, checkChunk_agrees (d := p.arg) (by simpa using hset) (by simp) (by simpa using hfull)
    (by simpa using hsum)] at hexec
  obtain ⟨hcount, hchunk, hframe⟩ := addBytes_dropChunk_spec (s.consume p) i c { s.cntChunk i c with
    digest := some p.arg, peer := p.src }
  generalize State.addBytes _ i 65536 = t at hexec hcount hchunk hframe
  obtain ⟨L, hL⟩ := s.consume_eq p
  rw [hL] at hcount hframe
  exact ⟨t, hexec, hcount, hchunk, (congrArg (fun u : State => { u with links := s.links }) hframe :)⟩

/-- One that disagrees has the chunk sent again. -/
theorem exec_digest_disagrees (hsum : (s.cntChunk i c).sum ≠ p.arg) : ∃ t, exec (.digest link p) s = .next t ∧
    (t.cntChunk i c).settling = some s.ticks ∧ (t.cntChunk i c).bytes = 0 ∧ (t.cntChunk i c).digest = some p.arg ∧
    (t.cntChunk i c).peer = p.src ∧ t.cis = s.cis := by
  have hexec := exec_digest (link := link) hme hcnt
  dsimp only at hexec
  rw [← hc, Chunk.digested_first hfirst] at hexec
  obtain ⟨hchunk, hcis⟩ := checkChunk_disagrees (d := p.arg) (s := (s.consume p).setCntChunk i c { s.cntChunk i c with
    digest := some p.arg, peer := p.src }) (i := i) (c := c) (by simpa using hset) (by simp) (by simpa using hfull) (by simpa using hsum)
  rw [cntChunk_setCntChunk_self] at hchunk
  refine ⟨_, hexec, ?_⟩
  rw [hchunk, hcis]
  exact ⟨congrArg some (ticks_consume s p), rfl, rfl, rfl, cis_consume s p⟩

end First

/-- The digest of a chunk that was sent again settles it. -/
theorem exec_digest_resent (hres : p.addr.testBit 44 = true) (hset : (s.cntChunk i c).settling.isSome = true) {d : Nat}
    (hdig : (s.cntChunk i c).digest = some d) :
    let u := (s.consume p).setCntChunk i c { s.cntChunk i c with resent := some p.arg }
    let kept := digestWords (s.cntKey i) 0 (s.cisRead (s.chunkAt i c) 65536).1
    (p.arg ≠ d → exec (.digest link p) s = .next (u.settle i c 2)) ∧
    (p.arg = d → 65536 ≤ (s.cntChunk i c).bytes → exec (.digest link p) s =
      .next (u.settle i c (if (s.cntChunk i c).sum ≠ d then 1 else if kept ≠ d then 3 else 0))) := by
  intro u kept
  have hexec := exec_digest (link := link) hme hcnt
  dsimp only at hexec
  rw [← hc, Chunk.digested_resent hres hset] at hexec
  have hchunk : u.cntChunk i c = { s.cntChunk i c with resent := some p.arg } := cntChunk_setCntChunk_self ..
  have hkept : digestWords (u.cntKey i) 0 (u.cisRead (u.chunkAt i c) 65536).1 = kept := by
    have hread : ∀ a n, u.cisRead a n = s.cisRead a n := cisRead_consume s p
    have hkey : u.cntKey i = s.cntKey i := cntKey_consume s p i
    have hat : u.chunkAt i c = s.chunkAt i c := chunkAt_consume s p i c
    rw [hread, hkey, hat]
  refine ⟨fun hne => hexec.trans (congrArg Host.Outcome.next ?_), fun heq hfull => hexec.trans (congrArg Host.Outcome.next ?_)⟩
  · exact checkChunk_resent_differs (by rw [hchunk]; exact hset) (by rw [hchunk]; exact hdig) (by rw [hchunk]) hne
  · have hsettled := checkChunk_resent_same (s := u) (by rw [hchunk]; exact hset) (by rw [hchunk]; exact hdig) (by rw [hchunk]) heq
      (by rw [hchunk]; exact hfull)
    rw [hkept, hchunk] at hsettled
    exact hsettled

end DigestClauses

section ResendClauses

variable {s : State} {p : Packet} {link : Fin 36} {i : Nat}

/-- The digest of a stream's chunk as its scratchpad holds it (R405). -/
def chunkDigest (s : State) (i a : Nat) : Nat :=
  digestWords (s.dsKey i) 0 (s.padRead (s.dsCore i) ((s.fld .dsGeom i 8 5 + (a - (s.dsRange i).1) / 65536) * 65536) 65536).1

theorem chunkDigest_consume (s : State) (p : Packet) (i a : Nat) : chunkDigest (s.consume p) i a = chunkDigest s i a :=
  at_consume (chunkDigest · i a) (fun _ _ => rfl) s p

theorem exec_resend_performed (hme : s.forMe p 0x22 = true) (hds : s.chunkDs p.addr p.src = some i) (htxns : s.txns = []) :
    let c := (p.addr - (s.dsRange i).1) / 65536
    let d := chunkDigest s i p.addr
    ∃ t, exec (.resend link p) s = .next t ∧ (t.cis = s.cis ∧ t.pads = s.pads ∧ t.cores = s.cores) ∧
      t.dsChunk i c = { s.dsChunk i c with settling := some s.ticks, resent := some d } ∧
      ((s.dsChunk i c).digest ≠ some d → t.reg .dsFail i = BitVec.ofNat 32 (c + 2 ^ 25) ∧ t.flag .dsCfg i 31 = true) ∧
      ∀ l, s.route p.src 0 = some l → ∀ k, k < 32 →
        PartSent s p.src ((s.dsRange i).1 + 65536 * c) (s.dsCore i) ((s.fld .dsGeom i 8 5 + c) * 65536) t k := by
  intro c d
  have hexec : exec (.resend link p) s = .next (resendChunk (s.consume p) p i (chunkDigest (s.consume p) i p.addr)) :=
    exec_resend hme hds htxns
  rw [chunkDigest_consume] at hexec
  obtain ⟨L, hL⟩ := s.consume_eq p
  rw [hL] at hexec
  have hspec := resendChunk_spec (s := s.withLinks L) (p := p) hds htxns (chunkDigest s i p.addr)
  unfold d
  generalize chunkDigest s i p.addr = d at hexec hspec ⊢
  obtain ⟨hkept, hchunk, hfail, hparts⟩ := hspec
  exact ⟨_, hexec, hkept, hchunk, hfail, hparts⟩

theorem exec_verdict_performed (hme : s.forMe p 0x23 = true) (hds : s.chunkDs p.addr p.src = some i) :
    let c := (p.addr - (s.dsRange i).1) / 65536
    ∃ t, exec (.verdict link p) s = .next t ∧ t.reg .dsFail i = BitVec.ofNat 32 (c + 2 ^ 24 * p.arg) ∧
      (p.arg ≠ 0 → t.flag .dsCfg i 31 = true) ∧ t.dsChunk i c = { s.dsChunk i c with settling := none, resent := none } ∧
      t.reg .sumpTail 0 = BitVec.ofNat 32 (nextSeq (s.reg .sumpTail 0).toNat) ∧ t.cis = s.cis ∧ t.cores = s.cores := by
  intro c
  have hexec := exec_verdict (link := link) hme hds
  dsimp only at hexec
  rw [dsRange_consume, dsChunk_consume] at hexec
  have hspec := verdict_raised p.arg (chunkDs_spec hds).1 (sumpRaised_chunkSump
    ((recordVerdict (s.consume p) i c p.arg).setDsChunk i c { s.dsChunk i c with settling := none, resent := none }) p.src p.addr p.arg)
  rw [reg_consume, cis_consume, cores_consume] at hspec
  exact ⟨_, hexec, hspec⟩

theorem exec_resendTimeout {i : Fin 256} {chunk : Nat} (hset : (s.cntChunk i.val chunk).settling.isSome = true)
    (hres : (s.cntChunk i.val chunk).resent = none) : exec (.resendTimeout i chunk) s = .next (s.settle i.val chunk 1) := by
  change execResendTimeout i chunk s = _
  simp only [execResendTimeout, hset, hres, Option.isNone_none, Bool.and_self, if_true]

end ResendClauses

/-! ### The clauses on answers (R170, R397, R427) -/

/-- A state none of whose cores has packets of lookups that wait. -/
def State.Idle (s : State) : Prop := ∀ kv ∈ s.cores, kv.2.lkWaits = []

theorem idle_of_cores {s t : State} (h : t.cores = s.cores) (hidle : s.Idle) : t.Idle := by
  unfold State.Idle
  rwa [h]

section ReadDone

variable {s : State} {p : Packet} {x : Txn} {t c : Nat}

/-- A load as the data of a transaction finds it. -/
def PendLoad.got (t : Nat) (p : Packet) (l : PendLoad) : PendLoad :=
  if l.tag = some t then { l with data := some p.body, poison := p.pmask != 0, tag := none } else l

/-- Data of a load goes to the load that waits for it. -/
theorem readDone_load (howner : x.owner = .load c) :
    readDone s t x p = s.modCore c fun k => { k with loads := k.loads.map (PendLoad.got t p) } := by
  unfold readDone
  rw [howner]
  rfl

/-- The word that an ACQ reads goes to its wait. -/
theorem readDone_acq {va dst epoch : Nat} {old : Option (DWord × Bool)} {dci host : Bool} (howner : x.owner = .acq c)
    (hwait : (s.core c).wait = some (.acq va old dci dst (some t) epoch host)) :
    readDone s t x p = s.modCore c fun k => { k with
      wait := some (.acq va (some (BitVec.ofNat 64 (leNat p.body), p.pmask != 0)) dci dst none epoch host) } := by
  unfold readDone
  rw [howner]
  simp only [modCore, hwait, if_true]

/-- Data of a DMA without marks is written where its read began. -/
theorem readDone_dma {id pad : Nat} (howner : x.owner = .dma c id pad) (hmask : p.pmask = 0) :
    readDone s t x p = s.padWrite c pad p.body := by
  unfold readDone
  rw [howner, hmask]
  exact maskedWrite_zero ..

end ReadDone

section AnswerClauses

variable {s : State} {p : Packet} {link : Fin 36} {x : Txn}

theorem answered_idle (h : s.Idle) : (s.answered p).Idle := idle_of_cores (cores_consume s p) h

theorem core_answered (s : State) (p : Packet) (c : Nat) : (s.answered p).core c = s.core c :=
  at_consume (State.core · c) (fun _ _ => rfl) s p

section Open

variable (hgen : p.tag / 16384 = s.genOf 8 (4 + p.tag % 16384 / 8192)) (hx : s.txns.get? (p.tag % 16384) = some x)
  (howner : x.owner ≠ .gone)

include hgen hx howner

/-- An acknowledgement ends its write. -/
theorem exec_wack_open (hme : s.forMe p 0x10 = true) : exec (.wack link p) s = .next (drainLk (s.answered p)) := by
  rw [exec_wack hme, takeTxn_open hgen hx howner]

/-- Data that arrives for no packet that waits is all that changes. -/
theorem exec_rdata_idle (hme : s.forMe p 0x11 = true) {t : State} (hdone : readDone (s.answered p) (p.tag % 16384) x p = t)
    (hidle : t.Idle) : exec (.rdata link p) s = .next t := by
  rw [exec_rdata_open hme (takeTxn_open hgen hx howner), hdone, drainLk_idle hidle]

/-- A write that BUSY refuses stays, to be sent again (R170). -/
theorem exec_nak_kept (hme : s.forMe p 0x14 = true) (hbusy : p.arg = Code.busy.toNat) (htype : x.pkt.type = 1) :
    ∃ v, exec (.nak link p) s = .next v ∧
      v.txns.get? (p.tag % 16384) = some { x with refused := some (x.refused.getD s.ticks), retry := true } ∧
      { v with txns := s.txns, links := s.links } = s := by
  refine ⟨_, exec_nak_busy hme (takeTxn_open hgen hx howner) hbusy htype, ?_,
    (congrArg (fun v : State => { v with txns := s.txns }) (consume_frame s p) :)⟩
  have hticks : (s.answered p).ticks = s.ticks := ticks_consume s p
  rw [hticks]
  exact SMap.get?_set_self ..

end Open

/-- An acknowledgement that no write waits for is counted. -/
theorem exec_wack_late (hgen : p.tag / 16384 = s.genOf 8 (4 + p.tag % 16384 / 8192)) (hx : s.txns.get? (p.tag % 16384) = none)
    (hme : s.forMe p 0x10 = true) (hidle : s.Idle) : exec (.wack link p) s = .next ((s.consume p).bump .tlkLate 0 1) := by
  have hidle' : ((s.consume p).bump .tlkLate 0 1).Idle := idle_of_cores (cores_consume s p) hidle
  rw [exec_wack hme, takeTxn_late hgen hx]
  exact congrArg Host.Outcome.next (drainLk_idle hidle')

/-! Refused writes that are sent again, and ends of transactions by time. -/

section Timers

variable {tag : Nat} (hx : s.txns.get? tag = some x)

include hx

theorem exec_remoteWriteRetry_routed (hretry : x.retry = true) {l : Nat} (hroute : s.route x.pkt.dst 0 = some l) :
    exec (.remoteWriteRetry tag) s =
      .next (({ s with txns := s.txns.set tag { x with retry := false, since := s.ticks } } : State).sendOn l x.pkt) := by
  change execRemoteWriteRetry tag s = _
  simp only [execRemoteWriteRetry, hx, hretry, hroute, Bool.not_true, Bool.false_eq_true, if_false]

theorem exec_remoteWriteRetry_unrouted (hretry : x.retry = true) (hroute : s.route x.pkt.dst 0 = none) :
    exec (.remoteWriteRetry tag) s =
      .next ((({ s with txns := s.txns.erase tag } : State).bump .tlkNoroute 0 1).failTxn tag x .link) := by
  change execRemoteWriteRetry tag s = _
  simp only [execRemoteWriteRetry, hx, hretry, hroute, Bool.not_true, Bool.false_eq_true, if_false]

theorem exec_remoteWriteRetryLimit (hrefused : x.refused.isSome = true) : exec (.remoteWriteRetryLimit tag) s =
    .next (({ s with txns := s.txns.erase tag } : State).failTxn tag x .protection) := by
  obtain ⟨tick, htick⟩ := Option.isSome_iff_exists.mp hrefused
  change execRemoteWriteRetryLimit tag s = _
  simp only [execRemoteWriteRetryLimit, hx, htick, Option.isNone_some, Bool.false_eq_true, if_false]

theorem exec_transactionTimeout (hretry : x.retry = false) : exec (.transactionTimeout tag) s =
    .next (({ s with txns := s.txns.erase tag } : State).failTxn tag x .timeout) := by
  change execTransactionTimeout tag s = _
  simp only [execTransactionTimeout, hx, hretry, Bool.false_eq_true, if_false]

end Timers

end AnswerClauses

/-- Settles O47: each request is read off its action, and each answer off the transaction that it ends. -/
theorem remoteRequestsAndAnswers : Obligations.RemoteRequestsAndAnswers := by
  unfold Obligations.RemoteRequestsAndAnswers
  refine ⟨fun link p s => ?_, fun link p x s => ?_⟩
  · intro n met stores
    refine ⟨?stored, ?refused, ?aperture, ?read, ?digest, ?resend, ?verdict, ?settles, ?clears⟩
    case stored =>
      intro hme hin hw hkey hadmit
      refine ⟨fun hplain => ?_, ?_⟩
      · obtain ⟨t, hexec, ⟨hstored, hmarks, hclean⟩, hrest⟩ := exec_write_counted (link := link) hme hin hw hkey hadmit hplain
        exact ⟨t, hexec, ⟨hstored, hmarks, hclean⟩, hrest⟩
      · intro i hmet hdigest hlo o x hfit hset hdig
        obtain ⟨t, hexec, ⟨hstored, hmarks, hclean⟩, hchunk⟩ :=
          exec_write_digested (link := link) hme hin hw hkey hadmit hmet hdigest hlo hfit hset hdig
        exact ⟨t, hexec, ⟨hstored, hmarks, hclean⟩, hchunk⟩
    case refused => exact exec_write_refused
    case aperture =>
      intro o c inside hme hout
      exact ⟨fun w hin hmem hwin => exec_write_windowed hme hout hin hmem hwin,
        fun hin hwin => exec_write_unwindowed hme hout hin hwin, fun hin => exec_write_range hme hout hin⟩
    case read =>
      refine fun hme => ⟨exec_read_range hme, fun hin => ⟨fun hopen => ?_, fun hsealed => ?_⟩⟩
      · rw [exec_read_in hme hin, if_neg (Bool.eq_false_iff.mp hopen)]
      · rw [exec_read_in hme hin, if_pos hsealed]
    case digest =>
      intro i hme hcnt c x
      exact ⟨fun hfirst hset hfull => ⟨exec_digest_agrees hme hcnt rfl hfirst hset hfull,
          exec_digest_disagrees hme hcnt rfl hfirst hset hfull⟩,
        fun hres hset d hdig => exec_digest_resent hme hcnt rfl hres hset hdig⟩
    case resend =>
      intro i hme hds htxns c pad d
      obtain ⟨t, hexec, ⟨hcis, hpads, hcores⟩, hrest⟩ := exec_resend_performed (link := link) hme hds htxns
      exact ⟨t, hexec, hcis, hpads, hcores, hrest⟩
    case verdict => exact fun i hme hds => exec_verdict_performed hme hds
    case settles => exact fun i chunk hset hres => exec_resendTimeout hset hres
    case clears => exact fun src i hacc => exec_tlkCntClr hacc
  · intro t u s1 idle
    refine ⟨fun hgen => ⟨fun hx howner => ⟨?acked, ?data, ?busy, ?fails⟩, fun hx => ⟨?lateAck, ?lateData, ?lateNak⟩⟩, ?old, ?timers⟩
    case acked => exact fun hme => ⟨exec_wack_open hgen hx howner hme, fun h => drainLk_idle (answered_idle h)⟩
    case data =>
      intro hme hidle
      have hidle' : (s.answered p).Idle := answered_idle hidle
      refine ⟨?_, fun c va dci dst epoch host hacq hwait => ?_, fun c id pad hdma hmask => ?_⟩
      · intro c hload got
        exact exec_rdata_idle hgen hx howner hme (readDone_load hload) (idle_modCore hidle' c fun _ => rfl)
      · exact exec_rdata_idle hgen hx howner hme (readDone_acq hacq ((congrArg Core.wait (core_answered s p c)).trans hwait))
          (idle_modCore hidle' c fun _ => rfl)
      · exact exec_rdata_idle hgen hx howner hme (readDone_dma hdma hmask)
          (idle_of_cores ((PadOnly.refl _ c).padWrite ..).cores hidle')
    case busy => exact exec_nak_kept hgen hx howner
    case fails => exact fun code hme hcode hends => exec_nak_fails hme (takeTxn_open hgen hx howner) hcode hends
    case lateAck => exact fun hme hidle => exec_wack_late hgen hx hme hidle
    case lateData => exact fun hme => exec_rdata_dropped hme (takeTxn_late hgen hx)
    case lateNak => exact fun hme => exec_nak_dropped hme (takeTxn_late hgen hx)
    case old => exact fun hgen hme => exec_rdata_dropped hme (takeTxn_old hgen)
    case timers =>
      exact fun tag hx => ⟨fun hretry => ⟨fun l hl => exec_remoteWriteRetry_routed hx hretry hl, exec_remoteWriteRetry_unrouted hx hretry⟩,
        exec_remoteWriteRetryLimit hx, exec_transactionTimeout hx⟩

end Sys2Proof.Machine

/-!
PROOFS. The lookup engines, shared: writes of their registers, and what work on row pages changes.
-/

namespace Sys2Proof.Machine

open State

/-! ### Registers of the lookup engines (R7, R467) -/

/-- An accepted write to a register outside the front end has its effect and is recorded. -/
theorem accepted_write {s t : State} {src : Src} {r : Reg} {i : Nat} {v : Word} {check : Code} {eff : State → State}
    (hr : Block.at r.row.base ≠ some .fe) (h : Accepted s src r i v check) (heff : eff s = t) :
    (.next (s.busWrite src r i v check eff) : Outcome) = .next (t.noted src r i v) := by
  have hname : s.nameQueue r i = s := if_neg fun hq => hr hq.1
  rw [busWrite_accepted h, hname, heff]

/-- The record of a write changes registers and the digest's queue alone. -/
theorem noted_frame (s : State) (src : Src) (r : Reg) (i : Nat) (v : Word) :
    { s.noted src r i v with regs := s.regs, digQ := s.digQ } = s := by
  obtain ⟨w, hw, -⟩ := recordLast_spec s r i .ok
  unfold State.noted State.fold
  rw [hw]
  split <;> rfl

section Noted

variable (s : State) (src : Src) (r : Reg) (i : Nat) (v : Word)

@[simp] theorem tables_noted : (s.noted src r i v).tables = s.tables := (congrArg State.tables (noted_frame s src r i v) :)
@[simp] theorem dir_noted : (s.noted src r i v).dir = s.dir := (congrArg State.dir (noted_frame s src r i v) :)
@[simp] theorem shadows_noted : (s.noted src r i v).shadows = s.shadows := (congrArg State.shadows (noted_frame s src r i v) :)
@[simp] theorem cis_noted : (s.noted src r i v).cis = s.cis := (congrArg State.cis (noted_frame s src r i v) :)
@[simp] theorem cores_noted : (s.noted src r i v).cores = s.cores := (congrArg State.cores (noted_frame s src r i v) :)

end Noted

/-! ### What work on row pages changes (R210 to R218, R233) -/

namespace State

/-- `t` is `s` but for the row-page cache with the requests to the wells, the delta maps of migrations and the write budget, the
sketches, the registers and the free values drawn. -/
structure CacheOnly (s t : State) : Prop where
  frame : { t with
    pages := s.pages, nextPage := s.nextPage, order := s.order, wells := s.wells, migs := s.migs, tokens := s.tokens
    overBytes := s.overBytes, sketches := s.sketches, snapWait := s.snapWait, regs := s.regs, free := s.free } = s

namespace CacheOnly

variable {s t u : State}

theorem refl (s : State) : s.CacheOnly s := ⟨rfl⟩

theorem trans (h : s.CacheOnly t) (h' : t.CacheOnly u) : s.CacheOnly u :=
  ⟨(congrArg (fun x : State => { x with
    pages := s.pages, nextPage := s.nextPage, order := s.order, wells := s.wells, migs := s.migs, tokens := s.tokens
    overBytes := s.overBytes, sketches := s.sketches, snapWait := s.snapWait, regs := s.regs, free := s.free }) h'.frame).trans
    h.frame⟩

theorem foldl {α : Type} {f : State → α → State} (hf : ∀ (t : State) x, t.CacheOnly (f t x)) (l : List α) (s : State) :
    s.CacheOnly (l.foldl f s) :=
  List.foldlRecOn l f (.refl s) fun t ht x _ => ht.trans (hf t x)

/-- A run of such updates that may come to an end. -/
theorem foldl_bind {α : Type} {f : State → α → Option State} (hf : ∀ (t u : State) x, f t x = some u → t.CacheOnly u)
    (l : List α) {s u : State} (h : l.foldl (fun o x => o.bind fun s => f s x) (some s) = some u) : s.CacheOnly u := by
  have hall : ∀ v ∈ l.foldl (fun o x => o.bind fun s => f s x) (some s), s.CacheOnly v := by
    refine List.foldlRecOn (motive := fun o : Option State => ∀ v ∈ o, s.CacheOnly v) l _ ?_ fun o ho x _ v hv => ?_
    · rintro v ⟨⟩
      exact .refl s
    · obtain ⟨w, hw, hstep⟩ := Option.bind_eq_some_iff.mp hv
      exact (ho w hw).trans (hf w v x hstep)
  exact hall u h

section Fields

variable (h : s.CacheOnly t)

include h

theorem cis : t.cis = s.cis := (congrArg State.cis h.frame :)
theorem host : t.host = s.host := (congrArg State.host h.frame :)
theorem cores : t.cores = s.cores := (congrArg State.cores h.frame :)
theorem tables : t.tables = s.tables := (congrArg State.tables h.frame :)
theorem dir : t.dir = s.dir := (congrArg State.dir h.frame :)
theorem shadows : t.shadows = s.shadows := (congrArg State.shadows h.frame :)
theorem parts : t.parts = s.parts := (congrArg State.parts h.frame :)
theorem adds : t.adds = s.adds := (congrArg State.adds h.frame :)
theorem psums : t.psums = s.psums := (congrArg State.psums h.frame :)
theorem cmdJobs : t.cmdJobs = s.cmdJobs := (congrArg State.cmdJobs h.frame :)

end Fields

/-! #### Registers, free values and sketches (R200, R202) -/

theorem setReg (s : State) (r : Reg) (i : Nat) (v : Word) : s.CacheOnly (s.setReg r i v) := ⟨rfl⟩
theorem bump (s : State) (r : Reg) (i n : Nat) : s.CacheOnly (s.bump r i n) := ⟨rfl⟩
theorem draw (s : State) : s.CacheOnly s.draw.2 := ⟨rfl⟩

theorem cmsCount (s : State) (e tid row : Nat) : s.CacheOnly (s.cmsCount e tid row) := by
  unfold State.cmsCount
  split
  · exact .refl s
  · split
    · dsimp only
      split <;> exact ⟨rfl⟩
    · exact ⟨rfl⟩

/-! #### Pages and wells (R211 to R214, R217, R228, R233) -/

theorem setPages (s : State) (x : SMap Page) : s.CacheOnly { s with pages := x } := ⟨rfl⟩
theorem modWell (s : State) (h : Nat) (f : Well → Well) : s.CacheOnly (s.modWell h f) := ⟨rfl⟩

theorem touch (s : State) (id : Nat) : s.CacheOnly (s.touch id) := by
  unfold State.touch
  split <;> exact ⟨rfl⟩

theorem hitPage (s : State) (id : Nat) : s.CacheOnly (s.hitPage id) := by
  unfold State.hitPage
  dsimp only
  split
  · exact trans ((draw s).trans ((bump ..).trans (bump ..))) (touch ..)
  · exact trans ((draw s).trans (bump ..)) (touch ..)

theorem useRow (s : State) (tid : Nat) (t : Table) (inst row id : Nat) : s.CacheOnly (s.useRow tid t inst row id) := by
  unfold State.useRow
  split
  · exact (hitPage ..).trans (hitPage ..)
  · exact hitPage ..

theorem evict (s : State) (id : Nat) : s.CacheOnly (s.evict id) := by
  unfold State.evict
  split
  · exact .refl s
  · split <;> exact ⟨rfl⟩

theorem makeRoom {p : Page} (h : s.makeRoom p = some t) : s.CacheOnly t := by
  unfold State.makeRoom at h
  dsimp only at h
  split at h
  · cases h
    exact .refl s
  · split at h
    · cases h
      exact evict ..
    · cases h

theorem newPage {p : Page} {id : Nat} (h : s.newPage p = some (id, t)) : s.CacheOnly t := by
  obtain ⟨u, hu, heq⟩ := Option.map_eq_some_iff.mp h
  cases heq
  exact (makeRoom hu).trans ⟨rfl⟩

theorem dirtyPage (s : State) (id : Nat) : s.CacheOnly (s.dirtyPage id) := by
  unfold State.dirtyPage
  split <;> exact ⟨rfl⟩

theorem dropPage (s : State) (id : Nat) : s.CacheOnly (s.dropPage id) := by
  unfold State.dropPage
  split
  · exact .refl s
  · dsimp only
    split <;> exact ⟨rfl⟩

theorem leavePages (s : State) (tid inst : Nat) : s.CacheOnly (s.leavePages tid inst) := by
  refine foldl (fun t kv => ?_) _ s
  dsimp only
  split
  · exact dropPage ..
  · exact setPages ..

theorem spend (s : State) (n : Nat) (above : Bool) : s.CacheOnly (s.spend n above) := by
  unfold State.spend
  dsimp only
  split <;> exact ⟨rfl⟩

theorem sendPage (s : State) (id : Nat) (p : Page) (bs : List Byte) : s.CacheOnly (s.sendPage id p bs) := by
  unfold State.sendPage
  dsimp only
  refine trans ?_ (spend _ _ _)
  exact ⟨rfl⟩

/-! #### Pages on the move (R217, R218) -/

/-- A page that comes under another engine. -/
theorem movePage {e id : Nat} (h : movePage e s id = some t) : s.CacheOnly t := by
  unfold State.movePage at h
  split at h
  · cases h
    exact .refl s
  · next p hp =>
    extract_lets old trim same p' at h
    have htrim (u : State) : u.CacheOnly (trim u) := by
      unfold trim
      split
      · exact modWell ..
      · exact .refl u
    split at h
    · obtain ⟨u, hu, heq⟩ := Option.map_eq_some_iff.mp h
      rw [← heq]
      refine (makeRoom hu).trans ((setPages u (u.pages.set id p')).trans ?_)
      dsimp only
      split
      · exact .refl _
      · exact (htrim _).trans (dirtyPage ..)
    · split at h
      · cases h
        exact setPages ..
      · cases h
        exact (htrim s).trans (sendPage ..)

theorem movePages {e : Nat} {ids : List Nat} (h : movePages e ids s = some t) : s.CacheOnly t :=
  foldl_bind (fun _ _ _ => movePage) ids h

/-- A page that a migration brings in. -/
theorem bringPage {tid group e : Nat} {m : MovedPage} (h : bringPage tid group e s m = some t) : s.CacheOnly t := by
  unfold Machine.bringPage at h
  extract_lets data fill new at h
  split at h
  · split at h
    · extract_lets room at h
      obtain ⟨u, hu, heq⟩ := Option.map_eq_some_iff.mp h
      have hroom : s.CacheOnly u := by
        unfold room at hu
        split at hu
        · cases hu
          exact .refl s
        · exact makeRoom hu
      rw [← heq]
      exact hroom.trans ((setPages u _).trans (dirtyPage ..))
    · cases h
      exact .refl s
  · split at h
    · next hnew =>
      rw [← Option.some.inj h]
      exact (newPage hnew).trans (dirtyPage ..)
    · split at h
      · rw [← Option.some.inj h]
        exact trans (t := { s with nextPage := s.nextPage + 1 }) ⟨rfl⟩ (sendPage ..)
      · cases h

end CacheOnly

end State

end Sys2Proof.Machine

/-!
PROOFS. The statements of the lookup: tables, sketches and hot stores take their commands (O29).
-/

namespace Sys2Proof.Machine

open State

/-! ### The registry (R177, R180, R181) -/

section Registry

variable {s : State} {tid inst : Nat} {v : Word}

/-- LKE_TCMD as a command with an OP writes it. -/
def tcmdWord (v : Word) (op : Nat) : Word := BitVec.ofNat 32 (setBits v.toNat 1 0 op)

theorem tcmdWord_op (v : Word) {op : Nat} (hop : op < 4) : (tcmdWord v op).toNat % 4 = op := by
  rw [tcmdWord, BitVec.toNat_ofNat, Nat.mod_eq_of_lt (setBits_lt (by decide) v.isLt (by decide))]
  exact (bitsOf_setBits_self _ _ (hi := 1) (lo := 0) (by decide)).trans (Nat.mod_eq_of_lt hop)

theorem tcmd_register (hop : v.toNat % 4 = 1) : s.tcmdCheck v = s.registerCheck (bitsOf v.toNat 11 2) ∧
    tcmdEff v s = s.setTable (bitsOf v.toNat 11 2) (s.tableOf s.tstage) := by
  rw [tcmdCheck, tcmdEff, hop, if_pos rfl]
  exact ⟨rfl, rfl⟩

theorem tcmd_retire (hop : v.toNat % 4 = 2) : s.tcmdCheck v = s.retireCheck (bitsOf v.toNat 11 2) ∧
    tcmdEff v s = s.retireEff (bitsOf v.toNat 11 2) := by
  rw [tcmdCheck, tcmdEff, hop, if_neg (by decide)]
  exact ⟨rfl, rfl⟩

/-- No shadow of a table is one of an instar. -/
def State.NoShadow (s : State) (tid inst : Nat) : Prop := ∀ x ∈ s.shadows, x.tid = tid → inst ∉ x.insts

/-- What the end of an instar changes: its shadows are gone, and no instar gains one (R181, R228). -/
structure State.InstarDropped (s t : State) (tid : Nat) : Prop where
  cis : t.cis = s.cis
  cores : t.cores = s.cores
  tables : t.tables = s.tables
  shadows : ∀ i, s.NoShadow tid i → t.NoShadow tid i

theorem mem_shadows_dropInstar {x : Shadow} (h : x ∈ (s.dropInstar tid inst).shadows) :
    (x.tid = tid → inst ∉ x.insts) ∧ ∃ y ∈ s.shadows, y.tid = x.tid ∧ x.insts ⊆ y.insts := by
  obtain ⟨y, hy, hyx⟩ := List.mem_filterMap.mp h
  have hmem : y ∈ s.shadows := (CacheOnly.leavePages s tid inst).shadows ▸ hy
  dsimp only at hyx
  split at hyx
  · split at hyx
    · cases hyx
    · cases hyx
      exact ⟨fun _ hi => by simp at hi, y, hmem, rfl, List.filter_subset_self _⟩
  · next hnot =>
    cases hyx
    exact ⟨fun htid hi => hnot ⟨htid, List.contains_iff_mem.mpr hi⟩, x, hmem, rfl, List.Subset.refl _⟩

theorem noShadow_dropInstar_self (s : State) (tid inst : Nat) : (s.dropInstar tid inst).NoShadow tid inst :=
  fun _ hx => (mem_shadows_dropInstar hx).1

theorem instarDropped (s : State) (tid inst : Nat) : s.InstarDropped (s.dropInstar tid inst) tid :=
  have h := CacheOnly.leavePages s tid inst
  ⟨h.cis, h.cores, h.tables, fun i hs x hx htid hi => by
    obtain ⟨-, y, hy, hyx, hsub⟩ := mem_shadows_dropInstar hx
    exact hs y hy (hyx.trans htid) (hsub hi)⟩

/-- The instars of a list end one after the other. -/
theorem instarsDropped (tid : Nat) (l : List Nat) (s : State) :
    s.InstarDropped (l.foldl (fun s i => s.dropInstar tid i) s) tid ∧
      ∀ i ∈ l, (l.foldl (fun s i => s.dropInstar tid i) s).NoShadow tid i := by
  induction l generalizing s with
  | nil => exact ⟨⟨rfl, rfl, rfl, fun _ h => h⟩, fun _ hi => absurd hi List.not_mem_nil⟩
  | cons i l ih =>
    obtain ⟨hrest, hgone⟩ := ih (s.dropInstar tid i)
    have hone := instarDropped s tid i
    refine ⟨⟨hrest.cis.trans hone.cis, hrest.cores.trans hone.cores, hrest.tables.trans hone.tables,
      fun k hk => hrest.shadows k (hone.shadows k hk)⟩, fun k hk => ?_⟩
    rcases List.mem_cons.mp hk with rfl | hk
    · exact hrest.shadows k (noShadow_dropInstar_self s tid k)
    · exact hgone k hk

/-- A retired table is gone, with its directory entries and the shadows of its instars (R181). -/
theorem retireEff_spec {t : Table} (ht : s.table tid = some t) :
    (s.retireEff tid).table tid = none ∧ (∀ kv ∈ (s.retireEff tid).dir, kv.1 / 2 ^ 42 ≠ tid) ∧
      (∀ i ∈ t.live, (s.retireEff tid).NoShadow tid i) ∧ (s.retireEff tid).cis = s.cis ∧
      (s.retireEff tid).cores = s.cores := by
  obtain ⟨hdropped, hgone⟩ := instarsDropped tid t.live s
  simp only [retireEff, ht]
  refine ⟨SMap.get?_erase_self .., fun kv hkv => ?_, hgone, hdropped.cis, hdropped.cores⟩
  obtain ⟨-, hkey⟩ := List.mem_filter.mp hkv
  exact bne_iff_ne.mp hkey

end Registry

/-! ### Hash constants, sketches and hot stores (R200 to R205) -/

section Stores

variable {s : State} {n k : Nat} {v : Word}

/-- Bit `b` of a word written with that bit set. -/
theorem getLsbD_or_bit (v : Word) {b : Nat} (hb : b < 32) : (v ||| BitVec.ofNat 32 (2 ^ b)).getLsbD b = true := by
  rw [BitVec.getLsbD_or, BitVec.getLsbD_ofNat, Nat.testBit_two_pow_self, decide_eq_true hb, Bool.true_and, Bool.or_true]

theorem firstCode_ok {l : List (Bool × Code)} (hl : ∀ x ∈ l, x.2 ≠ .ok) (h : firstCode l = .ok) : ∀ x ∈ l, x.1 = false := by
  induction l with
  | nil => exact fun _ hx => absurd hx List.not_mem_nil
  | cons x l ih =>
    obtain ⟨b, c⟩ := x
    have hc : c ≠ .ok := hl _ List.mem_cons_self
    have hrank : ∀ c : Code, ¬ Code.ok.rank < c.rank := by intro c; cases c <;> decide
    cases b with
    | true =>
      rw [firstCode] at h
      split at h
      · next hlt => exact absurd (h ▸ hlt) (hrank c)
      · exact absurd h hc
    | false =>
      intro x hx
      rcases List.mem_cons.mp hx with rfl | hx
      · rfl
      · exact ih (fun y hy => hl y (List.mem_cons_of_mem _ hy)) h x hx

/-- A SWITCH that its checks pass is no LOAD (R204, R205). -/
theorem hotCheck_switch (hswitch : v.getLsbD 30 = true) (h : s.hotCheck n v = .ok) : v.getLsbD 31 = false := by
  have hfirst := firstCode_ok (by simp) h _ List.mem_cons_self
  rwa [hswitch, Bool.and_true] at hfirst

theorem cmsSetEff_enable (hon : s.cmsOn k = false) (hv : v.getLsbD 31 = true) :
    cmsSetEff k v s = { s.store .cmsSet k v with sketches := s.sketches.erase k } := by
  simp only [cmsSetEff, hv, hon, Bool.not_false, Bool.true_or, Bool.and_self, if_true]
  rfl

theorem snapEff_snap (hv : v.getLsbD 0 = true) : snapEff n v s = (s.store .cmsCtrl n v).setFlag .cmsCtrl n 2 true := if_pos hv

theorem hotEff_load (hv : v.getLsbD 31 = true) : hotEff n v s =
    ((s.setHot n { Hot.setInactive (s.flag .lkeState n 0) (s.hot n) [] with
      load := some (s.addr .hotListHi n, bitsOf v.toNat 19 0, 0) }).setFld .lkeState n 2 1 1).setReg .hotStatus n 0 := if_pos hv

theorem hotEff_switch (hload : v.getLsbD 31 = false) (hv : v.getLsbD 30 = true) : hotEff n v s =
    ((s.setHot n (if s.flag .lkeState n 0 then { s.hot n with h1 := [] } else { s.hot n with h0 := [] })).setFlag .lkeState n 0
      (!s.flag .lkeState n 0)).setFld .lkeState n 2 1 0 := by
  unfold hotEff
  rw [hload, hv]
  rfl

end Stores

/-- Settles O29: each command is the accepted write of its register; RETIRE ends the table's instars one after the other, and a
SWITCH that passes its checks is no LOAD. -/
theorem tableAndStoreCommands : Obligations.TableAndStoreCommands := by
  unfold Obligations.TableAndStoreCommands
  refine fun src v s => ⟨?register, ?retire, fun d h => ?hash, fun n i hon h => ?sets, fun n h => ?snap, fun n h => ?load,
    fun n h => ?switch⟩
  case register =>
    intro v1 tid h
    obtain ⟨hcheck, heff⟩ := tcmd_register (s := s) (tcmdWord_op v (op := 1) (by decide))
    exact accepted_write (by decide) (hcheck.symm ▸ h) heff
  case retire =>
    intro v2 tid t ht h
    obtain ⟨hcheck, heff⟩ := tcmd_retire (s := s) (tcmdWord_op v (op := 2) (by decide))
    obtain ⟨htable, hdir, hshadows, hcis, hcores⟩ := retireEff_spec ht
    refine ⟨_, accepted_write (by decide) (hcheck.symm ▸ h) heff, ?_, ?_, ?_, ?_, ?_⟩
    · rwa [table, tables_noted]
    · rwa [dir_noted]
    · rw [shadows_noted]
      exact fun x hx htid i hi => hshadows i hi x hx htid
    · rwa [cis_noted]
    · rwa [cores_noted]
  case hash => exact accepted_write (by decide) h rfl
  case sets => exact accepted_write (by decide) h (cmsSetEff_enable hon (getLsbD_or_bit v (b := 31) (by decide)))
  case snap => exact accepted_write (by decide) h (snapEff_snap (getLsbD_or_bit v (b := 0) (by decide)))
  case load => exact accepted_write (by decide) h (hotEff_load (getLsbD_or_bit v (b := 31) (by decide)))
  case switch =>
    have hv := getLsbD_or_bit v (b := 30) (by decide)
    exact accepted_write (by decide) h (hotEff_switch (hotCheck_switch hv h.code) hv)

end Sys2Proof.Machine

/-!
PROOFS. The statements of the lookup: engines serve parts and adds (O26).
-/

namespace Sys2Proof.Machine

open State

/-! ### A part of one row (R183, R187, R197, R211) -/

theorem anyOrder_single {α : Type} (k base : Nat) (x : α) : anyOrder k base 1 [x] = [x] := by
  simp [anyOrder, pickOut, Nat.mod_one]

@[simp] theorem setParts_self (s : State) (e : Nat) (l : List RowPart) : (s.setParts e l).partsOf e = l := SMap.getD_set_self ..
@[simp] theorem setAdds_self (s : State) (e : Nat) (l : List Add) : (s.setAdds e l).addsOf e = l := SMap.getD_set_self ..

/-- A part as its engine takes it (R205). -/
def RowPart.taken (p : RowPart) (half : Bool) : RowPart := { p with begun := true, half := half, all := p.items.map (·.1) }

/-- A part with the values of its first row (R187, R189). -/
def RowPart.gains (p : RowPart) (k : Nat) (vals : List FVal × Bool) : RowPart :=
  { p with
    vec := vals.1.zipIdx.map fun (v, i) => f32Word (Config.freeAt k i) v
    count := p.count + 1
    flags := setBit p.flags 5 (vals.1.any FVal.isNan || vals.1.any FVal.isNan)
    bad := p.bad || vals.2 }

/-- An engine has read a row from the row-page cache and counted the access (R200, R210, R211). -/
def State.rowServed (s : State) (e tid : Nat) (t : Table) (inst row id : Nat) : State :=
  ((s.draw.2.useRow tid t inst row id).bump .rowsCis e 1).cmsCount e tid row

theorem cacheOnly_rowServed (s : State) (e tid : Nat) (t : Table) (inst row id : Nat) :
    s.CacheOnly (s.rowServed e tid t inst row id) :=
  (CacheOnly.draw s).trans ((CacheOnly.useRow ..).trans ((CacheOnly.bump ..).trans (CacheOnly.cmsCount ..)))

section Part

variable {s : State} {e row id off c job bag : Nat} {p : RowPart} {t : Table} {w : Word}

/-- The value of a row depends on nothing of the state but its shadow (R183). -/
theorem rowVals_of_shadows {u : State} (h : u.shadows = s.shadows) (tid inst : Nat) (bs : List Byte) (bad : Bool) :
    u.rowVals tid t inst row bs bad = s.rowVals tid t inst row bs bad := by
  simp only [rowVals, shadowOf, h]

/-- The first row of a sum is the sum, whatever is pooled without weights (R187). -/
theorem poolRow_first {op : Nat} (acc : List FVal) (hacc : acc = []) (w : Word) (vs : List FVal) :
    poolRow op acc w false vs = vs := by
  simp [poolRow, hacc]

/-- A row without a hot copy is read from its cached page (R211). -/
theorem readRow_cached {half : Bool} {tid inst : Nat} (hhot : s.hotCopy e half tid row inst = none)
    (hat : s.rowAt tid t inst row = .at_ id off) (lost : Lost) : s.readRow e half tid t inst row lost =
      .got (s.useRow tid t inst row id) (s.rowBytes t (.at_ id off)).1 (s.rowBytes t (.at_ id off)).2 false := by
  simp only [readRow, hhot, hat]

/-- The first row of a part that pools without weights, read from the row-page cache at once. -/
theorem serveRow_cached {r : PartRun} {u : State} {bs : List Byte} {bad : Bool} {old : List Nat} {lost : Lost} (k : Nat)
    (hcode : r.code = .ok) (hop : r.p.op ≠ 3) (hvec : r.p.vec = [])
    (hread : r.s.readRow e r.p.half r.p.tid t r.p.inst row lost = .got u bs bad false) :
    let u1 := (u.bump .rowsCis e 1).cmsCount e r.p.tid row
    serveRow e t false false old lost k r ((row, w), 0) =
      { r with s := u1, p := r.p.gains k (u1.rowVals r.p.tid t r.p.inst row bs bad) } := by
  simp only [serveRow, hcode, hread, hop, hvec, ne_eq, not_true, if_false, List.map_nil, poolRow_first, Nat.mul_zero, Nat.zero_add,
    RowPart.gains, Bool.false_eq_true]

/-- The one row of a part is served from the row-page cache. -/
theorem serve_cached (hitems : p.items = [(row, w)]) (hop : p.op < 2) (hvec : p.vec = []) (ht : s.table p.tid = some t)
    (hrow : row < t.rows) (hserves : t.serves p.inst = true) (hhot : s.hotCopy e p.half p.tid row p.inst = none)
    (hat : s.rowAt p.tid t p.inst row = .at_ id off) :
    s.serve e p false none = ⟨s.rowServed e p.tid t p.inst row id, { p with items := [], waits := [] }.gains s.free
      (s.rowVals p.tid t p.inst row (s.rowBytes t (.at_ id off)).1 (s.rowBytes t (.at_ id off)).2), .ok⟩ := by
  have hread : s.draw.2.readRow e p.half p.tid t p.inst row none = .got (s.draw.2.useRow p.tid t p.inst row id)
      (s.rowBytes t (.at_ id off)).1 (s.rowBytes t (.at_ id off)).2 false := readRow_cached (s := s.draw.2) hhot hat none
  have hweighted : (p.op == 4) = false := beq_false_of_ne (by omega)
  have hserve : s.serve e p false none =
      serveRow e t false false p.waits none s.free ⟨s.draw.2, { p with items := [], waits := [] }, .ok⟩ ((row, w), 0) := by
    simp [serve, ht, hserves, hitems, anyOrder_single, hweighted, Nat.not_le.mpr hrow, draw]
  rw [hserve, serveRow_cached s.free rfl (Nat.ne_of_lt (Nat.lt_succ_of_lt hop)) hvec hread, rowVals_of_shadows]
  · rfl
  · exact (cacheOnly_rowServed s e p.tid t p.inst row id).shadows

theorem getLsbD_four_setBit_five {f : BitVec 8} (hf : f = 0) {x : Bool} : (setBit f 5 x).getLsbD 4 = false := by
  subst hf
  cases x <;> decide

/-- A part that has not read the well is no sample of repacking (R215). -/
theorem sample_of_cached (ht : s.table p.tid = some t) (hflags : p.flags.getLsbD 4 = false) : s.sample e p = s.draw.2 := by
  simp only [sample, ht, hflags, Bool.not_false, Bool.or_true, Bool.true_or, if_true]

/-- A part whose rows the engine homes is begun (R197, R216). -/
theorem beginPart_mine (ht : s.table p.tid = some t) (hitems : p.items = [(row, w)])
    (hduty : s.duty e p.tid t (t.groupOf row) = .mine) :
    s.beginPart e p = some (s.runPart e (p.taken (s.hotHalf e)) false none) := by
  simp [beginPart, ht, hitems, hduty, RowPart.taken]

/-- The engine takes the one part that waits, and answers it (R197). -/
theorem takePart_answered {u : State} (hbegun : p.begun = false) (hreset : s.inReset 3 e = false)
    (hbegin : s.beginPart e p = some (u, none)) : takePart e s [p] = u.setParts e ((u.partsOf e).erase p) := by
  simp [takePart, hbegun, hreset, hbegin]

/-- A part whose rows are all pooled is answered (R197). -/
theorem runPart_answered {u : State} {q : RowPart} (hserve : s.serve e p false none = ⟨u, q, .ok⟩) (hitems : q.items = [])
    (hsubs : q.subs = 0) (ht : u.table q.tid = some t) (hflags : q.flags.getLsbD 4 = false) :
    s.runPart e p false none = (u.draw.2.answerPart q .ok, none) := by
  simp [runPart, hserve, hitems, hsubs, sample_of_cached ht hflags]

/-- A part of a core's bag is answered with a partial sum on its way to the bag (R197). -/
theorem answerPart_core (h : p.sender = .core c job bag) : s.answerPart p .ok =
    { s with psums := s.psums ++ [⟨c, job, bag, p.vec, p.count, p.flags, p.bad, p.raw, .ok⟩] } := by
  simp only [answerPart, h, answerTo]

end Part

/-! ### An add of a shadowed row (R191, R196, R230, R231) -/

section Adds

variable {s : State} {e tid row inst : Nat} {a : Add} {t : Table}

/-- The shadow that the first add of a row makes (R191, R229). -/
def Add.shadow (a : Add) (e ticks : Nat) : Shadow :=
  ⟨a.tid, a.row, [a.inst], e, a.vec.map fun w => toF32 (FVal.zero.add (ofF32 w)), ticks, a.bad, false, none⟩

/-- A row without a shadow gains one while the pool has room (R191). -/
theorem addShadow_new (hnone : s.shadowOf a.tid a.row a.inst = none) (hroom : s.poolUsed (e / 32) + 4 * t.elems ≤ s.poolBytes)
    (n : Nat) : s.addShadow e a.tid t a.row a.vec a.bad (n + 1) [a.inst] =
      some { s with shadows := s.shadows ++ [a.shadow e s.ticks] } := by
  cases n <;> simp [addShadow, hnone, hroom, Add.shadow]

/-- The state in which an add has gone into a new shadow (R191, R209). -/
def State.addApplied (s : State) (e : Nat) (a : Add) (t : Table) : State :=
  ({ s.setTable a.tid { t with touched := true } with shadows := s.shadows ++ [a.shadow e s.ticks] } : State).bump .rowsAdds e 1

/-- An add of a shadowed table is applied to the row's shadow (R191, R222). -/
theorem applyAdd_shadowed (ht : s.table a.tid = some t) (hserves : t.serves a.inst = true) (hupd : t.upd = true)
    (hrow : a.row < t.rows) (hshadowed : t.shadowed = true) (hmirror : t.mirror = false ∨ t.ostate = 0)
    (hnone : s.shadowOf a.tid a.row a.inst = none) (hroom : s.poolUsed (e / 32) + 4 * t.elems ≤ s.poolBytes) (lost : Lost) :
    s.applyAdd e a lost = .done (s.addApplied e a t) := by
  have hone : ¬ (t.mirror = true ∧ t.ostate ≠ 0) := fun h => by rcases hmirror with hm | ho <;> simp_all
  have hnew : (s.setTable a.tid { t with touched := true }).addShadow e a.tid t a.row a.vec a.bad 2 [a.inst] =
      some { s.setTable a.tid { t with touched := true } with shadows := s.shadows ++ [a.shadow e s.ticks] } :=
    addShadow_new (s := s.setTable a.tid { t with touched := true }) hnone hroom 1
  simp only [applyAdd, ht]
  rw [if_neg (by rw [hserves]; decide), if_neg (by rw [hupd]; decide), if_neg (Nat.not_le.mpr hrow), if_neg hone,
    if_pos hshadowed, hnew]
  rfl

theorem poolUsed_append (s : State) (x : Shadow) : ({ s with shadows := s.shadows ++ [x] } : State).poolUsed (x.engine / 32) =
    s.poolUsed (x.engine / 32) + 4 * x.vec.length := by
  simp [poolUsed]

theorem poolBytes_addApplied (he : e < 64) : (s.addApplied e a t).poolBytes = s.poolBytes := by
  have hreg : (s.addApplied e a t).reg .cisPart 0 = s.reg .cisPart 0 :=
    reg_setReg_apart _ _ (.inl (by decide)) (by omega) (by omega)
  simp only [poolBytes, fld, hreg]

/-- A pool that is at most nine tenths full asks for no fold (R230). -/
theorem poolPressure_of_room {die : Nat} (h : s.poolUsed die * 10 ≤ s.poolBytes * 9) : s.poolPressure die = s := by
  refine List.foldlRecOn (motive := fun u => u = s) _ _ rfl fun u hu x _ => ?_
  rw [hu, if_pos h]

/-- An LKU's add that is applied changes its core alone (R196). -/
theorem coreRegsOnly_addDone (s : State) (c job : Nat) : s.CoreRegsOnly (s.addDone c job .ok) c := by
  unfold addDone
  split
  · exact .refl s c
  · rw [if_neg (by decide)]
    split
    · exact (CoreRegsOnly.refl s c).dropJob _
    · exact (CoreRegsOnly.refl s c).modJob ..

/-- The LKU completes with its last add (R196). -/
theorem addDone_last {c job : Nat} {j : Job} (hjob : s.job c job = some j) (hdone : j.done ≤ 1) :
    s.addDone c job .ok = s.dropJob c job := by
  simp [addDone, hjob, hdone]

theorem regs_addDone (s : State) (c job : Nat) : (s.addDone c job .ok).regs = s.regs := by
  unfold addDone
  split
  · rfl
  · rw [if_neg (by decide)]
    split <;> rfl

/-- An add that is applied, with room left in the pool, ends its sender's wait (R191, R196, R230). -/
theorem stepAdd_done {u : State} {lost : Lost} {c job bag : Nat} (happly : s.applyAdd e a lost = .done u)
    (hsender : a.sender = .core c job bag) (hroom : u.poolUsed (e / 32) * 10 ≤ u.poolBytes * 9) :
    s.stepAdd e a lost = (u.addDone c job .ok, none) := by
  have hshadows : (u.addDone c job .ok).shadows = u.shadows := (congrArg State.shadows (coreRegsOnly_addDone u c job).frame :)
  have hpressure : (u.addDone c job .ok).poolPressure (e / 32) = u.addDone c job .ok :=
    poolPressure_of_room (by simpa only [poolUsed, poolBytes, fld, reg, hshadows, regs_addDone] using hroom)
  simp only [stepAdd, runAdd, happly, answerAdd, hsender, hpressure]

/-- An engine begins the one add that waits for a row that it homes (R197, R216). -/
theorem takeAdd_done {u : State} (hbegun : a.begun = false) (hreset : s.inReset 3 e = false) (ht : s.table a.tid = some t)
    (hduty : s.duty e a.tid t (t.groupOf a.row) = .mine) (hstep : s.stepAdd e { a with begun := true } none = (u, none)) :
    takeAdd e s [a] = u.setAdds e ((u.addsOf e).erase a) := by
  simp [takeAdd, beginAdd, hbegun, hreset, ht, hduty, hstep]

end Adds

/-! ### An add that another module has applied (R231, R397) -/

theorem takeTxn_frame (s : State) (p : Packet) :
    { (s.takeTxn p).2 with links := s.links, txns := s.txns, regs := s.regs } = s := by
  obtain ⟨L, hL⟩ := s.consume_eq p
  unfold takeTxn
  rw [hL]
  dsimp only
  split
  · rfl
  · split
    · split <;> rfl
    · rfl

/-- The acknowledgement of an LKU's last add completes it (R196, R231). -/
theorem exec_uack_last {s s1 : State} {l : Fin 36} {p : Packet} {x : Txn} {c job : Nat} {j : Job} (htype : p.type = 0x13)
    (hdst : p.dst = s.node) (htake : s.takeTxn p = (some x, s1)) (howner : x.owner = .update c job)
    (hjob : s1.job c job = some j) (hdone : j.done ≤ 1) (hidle : s1.Idle) :
    exec (.uack l p) s = .next (s1.dropJob c job) := by
  have hdrop : lkAnswer s1 x.owner ⟨0, 0, 0, [], 0, 0, false, [], .ok⟩ = s1.dropJob c job := by
    rw [howner]
    exact addDone_last hjob hdone
  have hquiet : drainLk (s1.dropJob c job) = s1.dropJob c job := drainLk_idle (idle_modCore hidle c fun _ => rfl)
  change execUack l p s = _
  simp only [execUack, htype, hdst, htake, hdrop, hquiet, ne_eq, not_true, or_self, if_false]

theorem exec_part_none (e : Fin 64) (s : State) : exec (.part e none) s = .next (takePart e.val s (s.partsOf e.val)) := rfl

theorem exec_update_none (e : Fin 64) (s : State) : exec (.update e none) s = .next (takeAdd e.val s (s.addsOf e.val)) := rfl

/-- Settles O26: the one row of the part is read from its cached page, the add makes a new shadow and leaves the pool with room,
and the acknowledged add is the last of its LKU. -/
theorem enginesServePartsAndAdds : Obligations.EnginesServePartsAndAdds := by
  unfold Obligations.EnginesServePartsAndAdds
  refine ⟨?part, ?add, ?acknowledged⟩
  case part =>
    intro e s p t row w c job bag id off hparts hbegun hitems hop hvec hcount hsubs hflags hsender hreset ht hrow hserves hduty
      hhot hat v
    let q : RowPart := { p.taken (s.hotHalf e.val) with items := [], waits := [] }.gains s.free v
    let u : State := s.rowServed e.val p.tid t p.inst row id
    have hserve : s.serve e.val (p.taken (s.hotHalf e.val)) false none = ⟨u, q, .ok⟩ :=
      serve_cached (p := p.taken (s.hotHalf e.val)) hitems hop hvec ht hrow hserves hhot hat
    have hu : s.CacheOnly u.draw.2 := (cacheOnly_rowServed ..).trans (.draw u)
    have htable : u.table q.tid = some t := by
      rw [table, (cacheOnly_rowServed s e.val p.tid t p.inst row id).tables]
      exact ht
    have hwell : q.flags.getLsbD 4 = false := getLsbD_four_setBit_five hflags
    have hanswer := runPart_answered hserve rfl hsubs htable hwell
    rw [answerPart_core (p := q) (c := c) (job := job) (bag := bag) hsender, hu.psums] at hanswer
    have hbegin := beginPart_mine (e := e.val) ht hitems hduty
    rw [hanswer] at hbegin
    have herase : (u.draw.2.partsOf e.val).erase p = [] := by
      have hkept : u.draw.2.partsOf e.val = s.partsOf e.val := by rw [partsOf, hu.parts, partsOf]
      rw [hkept, hparts, List.erase_cons_head]
    have hexec := exec_part_none e s
    rw [hparts, takePart_answered hbegun hreset hbegin] at hexec
    exact ⟨_, _, hexec, rfl, (setParts_self ..).trans herase, rfl, rfl, rfl, rfl, congrArg (· + 1) hcount, rfl, rfl, hu.cis,
      hu.host, hu.cores, hu.tables⟩
  case add =>
    intro e s a t c job bag j hadds hbegun hsender hjob hreset ht hserves hupd hrow hshadowed hmirror hduty hnone hlen hroom
    have hused : (s.addApplied e.val a t).poolUsed (e.val / 32) = s.poolUsed (e.val / 32) + 4 * t.elems := by
      rw [← hlen]
      exact (poolUsed_append s (a.shadow e.val s.ticks)).trans (by simp [Add.shadow])
    have happly := applyAdd_shadowed (a := { a with begun := true }) (e := e.val) ht hserves hupd hrow hshadowed hmirror hnone
      (by omega) none
    have hstep := stepAdd_done happly hsender (by rw [poolBytes_addApplied e.isLt]; exact hused ▸ hroom)
    have hexec := exec_update_none e s
    rw [hadds, takeAdd_done hbegun hreset ht hduty hstep] at hexec
    let u : State := (s.addApplied e.val a t).addDone c job .ok
    have hframe : (s.addApplied e.val a t).CoreRegsOnly u c := coreRegsOnly_addDone ..
    have herase : (u.addsOf e.val).erase a = [] := by
      have hkept : u.addsOf e.val = s.addsOf e.val := congrArg (SMap.getD · e.val []) (congrArg State.adds hframe.frame :)
      rw [hkept, hadds, List.erase_cons_head]
    refine ⟨_, hexec, (setAdds_self ..).trans herase, (congrArg State.shadows hframe.frame :), fun hdone => ?_,
      hframe.cis, hframe.pads, (congrArg State.pages hframe.frame :)⟩
    have hlast : u = (s.addApplied e.val a t).dropJob c job := addDone_last hjob hdone
    exact (congrArg (State.job · c job) hlast).trans (job_dropJob_self ..)
  case acknowledged =>
    intro l p s s1 x c job j htype hdst htake howner hjob hdone hidle _
    have hframe := takeTxn_frame s p
    rw [htake] at hframe
    exact ⟨_, exec_uack_last htype hdst htake howner hjob hdone hidle, job_dropJob_self .., (congrArg State.cis hframe :),
      (congrArg State.pads hframe :), rfl⟩

end Sys2Proof.Machine

/-!
PROOFS. The statements of the lookup: partial sums fill their bags (O27).
-/

namespace Sys2Proof.Machine

open State

/-! ### A partial sum that reaches its bag (R187 to R189, R196, R197) -/

section Bags

variable {s : State} {p : Nat} {x : Psum} {j : Job} {b : Bag}

/-- A bag with one more partial sum (R197). -/
def Bag.gains (b : Bag) (k : Nat) (x : Psum) : Bag :=
  { b with
    left := b.left - 1
    vec := State.addSums k b.vec x.vec
    count := b.count + x.count
    flags := b.flags ||| x.flags
    bad := b.bad || x.bad
    raw := if x.raw.isEmpty then b.raw else x.raw }

/-- The combiner gives up the space of a bag whose last partial sum has come (R198). -/
def State.closeBag (s : State) (p : Nat) (b : Bag) : State := s.draw.2.modCore p fun c => { c with bags := c.bags.erase b }

theorem core_closeBag (s : State) (p : Nat) (b : Bag) :
    (s.closeBag p b).core p = { s.core p with bags := (s.core p).bags.erase b } := core_modCore_self ..

section Take

variable (hjob : s.job x.core x.job = some j) (hcode : x.code = .ok)
  (hbag : (s.core x.core).bags.find? (fun b => b.job == x.job && b.bag == x.bag) = some b)

include hjob hcode hbag

/-- A partial sum that is not its bag's last is added to it. -/
theorem takePsum_more (hleft : b.left - 1 ≠ 0) : takePsum s x =
    s.draw.2.modCore x.core fun c => { c with bags := c.bags.map fun y => if y = b then b.gains s.free x else y } := by
  simp only [takePsum, hjob, hcode, hbag, hleft, ne_eq, not_true, not_false_eq_true, if_false, if_true]
  rfl

/-- The last partial sum of a bag writes it, and bags that wait are sent. -/
theorem takePsum_last {t : State} (hleft : b.left - 1 = 0)
    (hwrite : writeBag (s.closeBag x.core b) x.core j (b.gains s.free x) = t) :
    takePsum s x = nextBags x.core (t.core x.core).bagWaits.length t := by
  simp only [takePsum, hjob, hcode, hbag, hleft, ← hwrite, ne_eq, not_true, if_false]
  rfl

end Take

/-- The bytes of a bag in the output format, without weights or counts to divide by (R187). -/
def bagBytes (j : Job) (k : Nat) (vec : List Word) : List Byte :=
  let d := j.desc j.w.dst.toNat
  pack d.ebits (outCodes (d.fmt.getD .fp32) k (vec.map ofF32)).1

theorem padStored_padWrite (hw : (s.pad p).wf = true) (a : Nat) (bs : List Byte) (bad : Bool) :
    s.PadStored (s.padWrite p a bs bad) p a bs := by
  refine ⟨(PadOnly.refl s p).padWrite .., ?_, fun i hi => ?_, fun x hx => ?_⟩ <;> rw [pad_padWrite_self]
  · exact Mem.wf_writeL _ _ hw
  · exact Mem.read_writeL_in _ hw i hi
  · exact Mem.read_writeL_out _ hw hx

/-- A bag without a flags byte is written as one row of its output tensor, and its LKP has one bag fewer. -/
theorem writeBag_plain (hw : (s.pad p).wf = true) (hflg : (lkExt j).flg = none) (hraw : (lkExt j).raw = false)
    (hop : lkOp j.w ≠ 2) (hvec : b.vec ≠ []) : ∃ u, writeBag s p j b = bagDone u p j ∧
      s.draw.2.PadStored u p ((j.desc j.w.dst.toNat).rowAddr b.bag) (bagBytes j s.free b.vec) := by
  have hsome : b.vec.isEmpty = false := List.isEmpty_eq_false_iff.mpr hvec
  refine ⟨_, ?_, padStored_padWrite (s := s.draw.2) hw _ _ b.bad⟩
  simp only [writeBag, hraw, hsome, hop, writeFlags, hflg, false_and, Bool.false_eq_true, if_false]
  rfl

/-- The LKP goes on with one bag fewer, or is complete with its last (R196). -/
theorem bagDone_spec (hjob : s.job p j.id = some j) : (bagDone s p j).pads = s.pads ∧ (bagDone s p j).cis = s.cis ∧
    (bagDone s p j).psums = s.psums ∧ ((bagDone s p j).core p).bags = (s.core p).bags ∧
    ((bagDone s p j).core p).bagWaits = (s.core p).bagWaits ∧ (j.done ≤ 1 → (bagDone s p j).job p j.id = none) ∧
    (2 ≤ j.done → (bagDone s p j).job p j.id = some { j with done := j.done - 1 }) := by
  simp only [bagDone, hjob]
  split
  · next hlast =>
    refine ⟨rfl, rfl, rfl, ?_, ?_, fun _ => job_dropJob_self .., fun h => by omega⟩
    · rw [dropJob, core_modCore_self]
    · rw [dropJob, core_modCore_self]
  · next hlast =>
    refine ⟨rfl, rfl, rfl, ?_, ?_, fun h => absurd h hlast, fun _ => job_modJob_self (fun _ => rfl) hjob⟩
    · rw [modJob, core_modCore_self]
    · rw [modJob, core_modCore_self]

end Bags

/-- Settles O27: the first clause is the bag in the combiner, the second the row that the last sum writes and the job that has
one bag fewer. -/
theorem partialSumsFillTheirBags : Obligations.PartialSumsFillTheirBags := by
  unfold Obligations.PartialSumsFillTheirBags
  intro c s x j b hmem hfind hjob hcode hbag
  have hcore : x.core = c.val := beq_iff_eq.mp (List.find?_some hfind :)
  have hid : j.id = x.job := beq_iff_eq.mp (List.find?_some hjob :)
  have hexec : exec (.psum c none) s = .next (takePsum { s with psums := s.psums.erase x } x) := by
    change execPsum c none s = _
    simp only [execPsum, hfind]
  rw [← hcore] at hjob hbag ⊢
  refine ⟨fun n hleft hbags => ?more, fun hleft hvec hxvec hflg hraw hop hbags hwaits => ?last⟩
  case more =>
    rw [takePsum_more (s := { s with psums := s.psums.erase x }) hjob hcode hbag (by omega)] at hexec
    refine ⟨_, hexec, rfl, ?_, rfl, rfl⟩
    rw [core_modCore_self]
    change (s.core x.core).bags.map _ = _
    simp [hbags, Bag.gains, hleft]
  case last =>
    let s1 : State := { s with psums := s.psums.erase x }
    have hgains : (b.gains s.free x).vec = x.vec := by simp [Bag.gains, addSums, hvec]
    obtain ⟨u, hwrite, hstored⟩ := writeBag_plain (s := s1.closeBag x.core b) (b := b.gains s.free x) (wf_pad hmem x.core) hflg hraw
      hop (hgains ▸ hxvec)
    rw [hgains] at hstored
    have hcore : u.core x.core = { s.core x.core with bags := (s.core x.core).bags.erase b } :=
      (hstored.only.core x.core).trans (core_closeBag ..)
    have hkept : u.job x.core j.id = some j := by
      rw [hid, job, hcore]
      exact hjob
    obtain ⟨hpads, hcis, hpsums, hbags', hwaits', hnone, hsome⟩ := bagDone_spec hkept
    rw [takePsum_last (s := s1) hjob hcode hbag (by omega) hwrite, hwaits', hcore, hwaits] at hexec
    have hpad (q : Nat) : (bagDone u x.core j).pad q = u.pad q := by rw [pad, hpads, pad]
    refine ⟨_, hexec, hpsums.trans (congrArg State.psums hstored.only.frame :), ?_, fun i hi => ?_, fun a ha => ?_, fun q hq => ?_,
      hcis.trans hstored.only.cis, hid ▸ hnone, hid ▸ hsome⟩
    · refine hbags'.trans ?_
      rw [hcore, hbags, List.erase_cons_head]
    · exact (congrArg (Mem.read · _) (hpad x.core)).trans (hstored.bytes i hi)
    · exact (congrArg (Mem.read · _) (hpad x.core)).trans (hstored.rest a ha)
    · exact (hpad q).trans (hstored.only.others q hq)

end Sys2Proof.Machine

/-!
PROOFS. The statements of the lookup: what lifecycle commands began ends (O31).
-/

namespace Sys2Proof.Machine

open State

/-! ### Commands that end with no command entry behind them (R336) -/

namespace State

/-- A command that no command entry waits for ends without a record. -/
theorem cmdEnd_idle {s : State} (kind unit : Nat) (code : Code) (h : s.cmdJobs = []) : s.cmdEnd kind unit code = s := by
  have hsame : ({ s with cmdJobs := [] } : State) = s := by rw [← h]
  simp only [cmdEnd, h, List.filter_nil, List.foldl_nil, hsame]

/-- LKE_LC_STATE as the command that runs leaves it with a code (R223, R230, R236). -/
def lcEnded (s : State) (code : Code) : State := ({ s with lcRun := none } : State).setReg .lcState 0
  (BitVec.ofNat 32 (setBits (s.reg .lcState 0).toNat 9 0 (2 + 4 * code.toNat)))

theorem lcEnd_idle {s : State} (h : s.cmdJobs = []) (code : Code) : s.lcEnd code = s.lcEnded code :=
  cmdEnd_idle _ _ _ h

theorem fld_setFld_self (s : State) (r : Reg) (i x : Nat) {hi lo : Nat} (h : lo ≤ hi) (hhi : hi < 32) :
    (s.setFld r i hi lo x).fld r i hi lo = x % 2 ^ (hi - lo + 1) := by
  rw [fld, setFld, reg_setReg_self, BitVec.toNat_ofNat, Nat.mod_eq_of_lt (setBits_lt h (s.reg r i).isLt hhi),
    bitsOf_setBits_self _ _ h]

theorem flag_setFlag_false (s : State) (r : Reg) (i b : Nat) : (s.setFlag r i b false).flag r i b = false := by
  rw [flag, setFlag, setFld, reg_setReg_self, BitVec.getLsbD_ofNat, testBit_setBits _ _ _ le_rfl]
  simp [bit]

end State

/-! ### Batches, folds and flushes (R223, R230, R236) -/

section LcRun

variable {s : State} (hjobs : s.cmdJobs = [])

include hjobs

/-- A batch without an entry left is done. -/
theorem exec_writeRowsDone_end {tid a : Nat} {o : Bool} (hrun : s.lcRun = some (.write tid o a 0)) :
    exec .writeRowsDone s = .next (s.lcEnded .ok) := by
  have hstay : lcAdvance none s = s := by simp only [lcAdvance, hrun, writeAdvance]
  change execWriteRowsDone s = _
  simp only [execWriteRowsDone, hrun, hstay, lcEnd_idle hjobs]

/-- A fold without a row left is done. -/
theorem exec_foldDone_end {tid : Nat} {code : Code} (hrun : s.lcRun = some (.fold tid [] code)) :
    exec .foldDone s = .next (s.lcEnded code) := by
  have hstay : lcAdvance none s = s := by
    have hsame : ({ s with lcRun := some (.fold tid [] code) } : State) = s := by rw [← hrun]
    simp only [lcAdvance, hrun, lcFolds, foldRows, List.length_nil, Nat.lt_irrefl, if_false, hsame]
  change execFoldDone s = _
  simp only [execFoldDone, hrun, hstay, lcEnd_idle hjobs]

/-- A flush is done when no page is left that was dirty before its mark. -/
theorem exec_flushDone_end {m : Nat} {code : Code} (hrun : s.lcRun = some (.flush [] (some m) code))
    (hclean : s.dirtyBefore m = []) : exec .flushDone s = .next (s.lcEnded code) := by
  have hstay : lcAdvance none s = s := by simp [lcAdvance, hrun, flushPages, hclean]
  change execFlushDone s = _
  simp only [execFlushDone, hrun, hstay, hclean, List.isEmpty_nil, if_true, lcEnd_idle hjobs]

end LcRun

/-! ### Snapshots and hot loads (R202, R204) -/

theorem exec_cmsSnapDone {s : State} {n : Fin 64} (hsnap : s.flag .cmsCtrl n.val 2 = true) :
    exec (.cmsSnapDone n) s = .next (s.endSnap n.val) := congrArg Host.Outcome.next (if_pos hsnap)

section Engines

variable {s : State} {n : Nat} (hjobs : s.cmdJobs = [])

include hjobs

/-- A snapshot of an engine without enabled sets or accesses that wait. -/
theorem endSnap_idle (hsets : s.cmsSets n = []) (hwait : s.snapWait.getD n [] = []) : s.endSnap n =
    ({ s with snapWait := s.snapWait.erase n, snapSeq := s.snapSeq.set n (s.snapSeq.getD n 0 + 1) } : State).setFlag .cmsCtrl n 2
      false := by
  simp only [endSnap, hsets, hwait, List.zipIdx_nil, List.map_nil, List.foldl_nil]
  exact cmdEnd_idle _ _ _ hjobs

/-- A load whose list is done ends READY. -/
theorem hotAdvance_end {a pos : Nat} (hload : (s.hot n).load = some (a, 0, pos)) (lost : Lost) : hotAdvance n lost 1 s =
    ((s.setHot n { s.hot n with load := none }).setFld .lkeState n 2 1 2).setFlag .hotStatus n 31 false := by
  simp only [hotAdvance, hload, if_true]
  exact cmdEnd_idle _ _ _ hjobs

theorem exec_hotLoadDone_end {n : Fin 64} {a pos : Nat} (hload : (s.hot n.val).load = some (a, 0, pos)) : exec (.hotLoadDone n) s =
    .next (((s.setHot n.val { s.hot n.val with load := none }).setFld .lkeState n.val 2 1 2).setFlag .hotStatus n.val 31
      false) := by
  change execHotLoadDone n s = _
  simp only [execHotLoadDone, hload, Nat.zero_add, hotAdvance_end hjobs hload]

end Engines

theorem exec_instarRetire {s : State} {tid : Fin 1024} {t : Table} (ht : s.table tid.val = some t) : exec (.instarRetire tid) s =
    .next (if t.ostate = 3 ∧ s.pinCount tid.val t.other = 0 then s.endOther tid.val t else s) := by
  change execInstarRetire tid s = _
  simp only [execInstarRetire, ht]

/-! ### Migrations (R217, R218) -/

section Migrations

variable {s : State} {m : Nat} {x : Mig} {t : Table}

/-- A pass that copied every page ends, and the cut-over begins when the delta is small. -/
def State.passEnded (s : State) (m : Nat) (x : Mig) : State :=
  let s1 := (s.setReg .migPages m (BitVec.ofNat 32 ((s.reg .migPages m).toNat + x.copying.length))).setReg
    .migPasses m (BitVec.ofNat 32 (s.fld .migPasses m 6 0 + 1))
  { s1 with migs := s1.migs.set m { x with copying := x.delta, delta := [], cutting := true } }

theorem exec_migrationPassEnd_cuts {m : Fin 8} (hx : s.migs.get? m.val = some x) (hcut : x.cutting = false)
    (hdelta : x.delta.length ≤ 128) (hlost : s.lostCopy x = false) (hshut : s.wellShut = false) :
    exec (.migrationPassEnd m .ok) s = .next (s.passEnded m.val x) := by
  change execMigrationPassEnd m .ok s = _
  simp only [execMigrationPassEnd, hx, hcut, hlost, hshut, hdelta, ne_eq, not_true, Bool.false_and, Bool.false_eq_true, if_false,
    if_true]
  rfl

theorem exec_migrationPassEnd_fails {m : Fin 8} {code : Code} (hx : s.migs.get? m.val = some x) (hcut : x.cutting = false)
    (hcode : code ≠ .ok) : exec (.migrationPassEnd m code) s = .next (s.migFail m.val x code) := by
  change execMigrationPassEnd m code s = _
  simp only [execMigrationPassEnd, hx, hcut, hcode, ne_eq, not_false_eq_true, Bool.false_eq_true, if_false, if_true]

/-- A migration that ends frees its slot. -/
theorem migEnd_idle (hjobs : s.cmdJobs = []) (m state : Nat) (code : Code) : s.migEnd m state code =
    ({ s with migs := s.migs.erase m } : State).setReg .migState m
      (BitVec.ofNat 32 (setBits (s.reg .migState m).toNat 9 0 (state + 4 * code.toNat) ||| 0x80000000)) :=
  cmdEnd_idle _ _ _ hjobs

theorem migFail_idle (hjobs : s.cmdJobs = []) (m : Nat) (x : Mig) (code : Code) : ∃ (dir : SMap DirEntry) (v : Word),
    s.migFail m x code = ({ s with dir := dir, migs := s.migs.erase m } : State).setReg .migState m v := by
  unfold migFail
  extract_lets key dir
  exact ⟨dir, _, migEnd_idle (s := { s with dir := dir }) hjobs m 3 code⟩

/-- An engine without parts or adds holds none. -/
theorem sendHeld_none {e : Nat} (hparts : s.partsOf e = []) (hadds : s.addsOf e = []) (tid : Nat) (t : Table) (g : Nat) :
    s.sendHeld e tid t g = s := by
  simp only [sendHeld, hparts, hadds, List.foldl_nil]

/-- A cut-over that comes about frees the slot and leaves a FORWARD entry. -/
theorem cutOver_spec {home : Nat} {u : State} (hjobs : s.cmdJobs = []) (hparts : s.partsOf home = []) (hadds : s.addsOf home = [])
    (h : s.cutOver m x t home = some u) :
    u.migs.get? m = none ∧ u.dir.get? (dirKey x.tid x.group) = some ⟨3, x.node, x.engine, 0, none⟩ ∧ u.cis = s.cis := by
  unfold cutOver at h
  extract_lets ids mine s1 dropped moved at h
  obtain ⟨v, hv, hu⟩ := Option.map_eq_some_iff.mp h
  have hkeeps : ∃ w, s.CacheOnly w ∧ v.cmdJobs = w.cmdJobs ∧ v.parts = w.parts ∧ v.adds = w.adds ∧ v.cis = w.cis := by
    unfold moved at hv
    split at hv
    · obtain ⟨w, hw, heq⟩ := Option.map_eq_some_iff.mp hv
      rw [← heq]
      exact ⟨w, (CacheOnly.setReg ..).trans (CacheOnly.movePages hw), rfl, rfl, rfl, rfl⟩
    · rw [← Option.some.inj hv]
      exact ⟨_, (CacheOnly.setReg ..).trans (CacheOnly.foldl CacheOnly.dropPage ids s1), rfl, rfl, rfl, rfl⟩
  obtain ⟨w, hw, hvjobs, hvparts, hvadds, hvcis⟩ := hkeeps
  have hjobs' : v.cmdJobs = [] := hvjobs.trans (hw.cmdJobs.trans hjobs)
  have hparts' : v.partsOf home = [] := by rw [partsOf, hvparts, hw.parts]; exact hparts
  have hadds' : v.addsOf home = [] := by rw [addsOf, hvadds, hw.adds]; exact hadds
  extract_lets v1 v2 v3 at hu
  have hend : v2 = _ := migEnd_idle (s := v1) hjobs' m 2 .ok
  have hheld : v3 = v2 := sendHeld_none (hend ▸ hparts') (hend ▸ hadds') x.tid t x.group
  rw [← hu, hheld, hend]
  exact ⟨SMap.get?_erase_self .., SMap.get?_set_self .., hvcis.trans hw.cis⟩

theorem exec_migrationCutoverDone {m : Fin 8} (hx : s.migs.get? m.val = some x) (hcut : x.cutting = true)
    (ht : s.table x.tid = some t) (hready : s.cutReady x t (s.homeOf x.tid t x.group).2 = true) {u : State}
    (hu : s.cutOver m.val x t (s.homeOf x.tid t x.group).2 = some u) : exec (.migrationCutoverDone m) s = .next u := by
  change execMigrationCutoverDone m s = _
  simp only [execMigrationCutoverDone, hx, ht, hcut, hready, Bool.and_self, if_true, hu, Option.getD_some]

theorem migAckEff_ack {v : Word} (hv : v.getLsbD 31 = true) (hack : s.flag .migState m 31 = true) :
    migAckEff m v s = (s.setFld .migState m 1 0 0).setFlag .migState m 31 false :=
  if_pos (by rw [hv, hack, Bool.and_self])

/-- A destination makes a HOME entry, and the group's pages and shadows come in. -/
theorem exec_destinationReserve {tid : Fin 1024} {group : Nat} {e : Fin 64} {pages : List MovedPage} (shadows : List MovedShadow)
    {u : State} (ht : s.table tid.val = some t) (hroom : s.dir.length < 65536)
    (hu : pages.foldl (fun o m => o.bind fun s => bringPage tid.val group e.val s m)
      (some { s with dir := s.dir.set (dirKey tid.val group) ⟨0, s.node, e.val, 0, none⟩ }) = some u) :
    exec (.destinationReserve tid group e pages shadows) s = .next { u with
      shadows := u.shadows ++ shadows.map fun x => ⟨tid.val, x.row, [x.inst], e.val, x.vec, s.ticks, false, false, none⟩ } := by
  change execDestinationReserve tid group e pages shadows s = _
  simp only [execDestinationReserve, ht, hu, not_le.mpr hroom, false_and, if_false]

end Migrations

/-! ### A page comes from the well (R212, R213) -/

section Install

variable {s : State}

theorem pumpRepacks_quiet (hrepacks : s.repacks = []) (hswept : ∀ kv ∈ s.pages, kv.2.swept = false) (die : Nat) :
    s.pumpRepacks die none = s := by
  have hreturn : (s.pages.filter fun kv => kv.2.swept && kv.2.engine / 32 == die) = [] :=
    List.filter_eq_nil_iff.mpr fun kv hkv => by rw [hswept kv hkv, Bool.false_and]; exact Bool.false_ne_true
  have hsame : ({ s with repacks := [] } : State) = s := by rw [← hrepacks]
  simp only [pumpRepacks, hrepacks, List.filter_nil, List.map_nil, List.eraseDups_nil, List.foldl_nil, Option.isSome_none,
    Bool.false_eq_true, if_false, hreturn, hsame]

/-- What may wait for a page of a die stays as it is when nothing waits. -/
theorem pumpDie_quiet (h : Quiet s) (die : Nat) : s.pumpDie die none = s := by
  obtain ⟨hparts, hadds, hdue, hrepacks, hswept, -, -⟩ := h
  have hfolds : (s.shadows.filter fun x => x.due && x.engine / 32 == die) = [] :=
    List.filter_eq_nil_iff.mpr fun x hx => by
      rw [Bool.eq_false_iff.mpr (List.filter_eq_nil_iff.mp hdue x hx), Bool.false_and]
      exact Bool.false_ne_true
  have hidle : s.busyEngines die = [] :=
    List.filter_eq_nil_iff.mpr fun e _ => by
      rw [partsOf, addsOf, hparts, hadds]
      exact Bool.false_ne_true
  have hdone : s.dueFolds die none = s := by rw [dueFolds, hfolds, List.foldl_nil]
  simp only [State.pumpDie, hdone, hidle, List.foldl_nil]
  exact pumpRepacks_quiet hrepacks hswept die

/-- With nothing that waits, an installed page moves nothing on. -/
theorem advance_quiet (h : Quiet s) (die : Nat) : lcAdvance none (hotPump die none (s.pumpDie die none)) = s := by
  rw [pumpDie_quiet h]
  obtain ⟨-, -, -, -, -, hhots, hrun⟩ := h
  have hpump : hotPump die none s = s := by rw [hotPump, hhots, List.foldl_nil]
  rw [hpump, lcAdvance, hrun]

/-- The state with a page that the well's answer filled. -/
def State.installed (s : State) (h : Nat) (rest : List (Nat × Code × List Byte)) (id : Nat) (p : Page) (data : List Byte) :
    State :=
  { s with
    wells := s.wells.set h { s.well h with arrived := rest }
    pages := (s.pages.set id { p with miss := false, data := some data, fresh := [] }).set id
      { p with miss := false, data := some data, fresh := [], used := s.order }
    order := s.order + 1 }

variable {h id lpn : Nat} {p : Page} {data : List Byte} {rest : List (Nat × Code × List Byte)}

/-- Pages of the installed state are those before or the filled page, returned to no one. -/
theorem installed_quiet (hq : Quiet s) (hp : (id, p) ∈ s.pages) : Quiet (s.installed h rest id p data) := by
  obtain ⟨hparts, hadds, hdue, hrepacks, hswept, hhots, hrun⟩ := hq
  have hpswept : p.swept = false := hswept _ hp
  refine ⟨hparts, hadds, hdue, hrepacks, fun kv hkv => ?_, hhots, hrun⟩
  rcases SMap.mem_set hkv with rfl | hkv
  · exact hpswept
  rcases SMap.mem_set hkv with rfl | hkv
  · exact hpswept
  · exact hswept kv hkv

theorem installAnswer_hit (hq : Quiet s) (harrived : (s.well h).arrived = (lpn, .ok, data) :: rest)
    (hfind : s.pages.find? (fun kv => kv.2.lpn == some lpn && kv.2.engine / 32 == h && kv.2.miss) = some (id, p))
    (hroom : (s.setPages p).length < 16) :
    installAnswer s h (lpn, .ok, data) = some (s.installed h rest id p data) := by
  let s1 : State := { s with wells := s.wells.set h { s.well h with arrived := rest } }
  let s2 : State := { s1 with pages := s1.pages.set id { p with miss := false, data := some data, fresh := [] } }
  have hmod : (s.modWell h fun w => { w with arrived := w.arrived.erase (lpn, .ok, data) }) = s1 := by
    rw [modWell, harrived, List.erase_cons_head]
    rfl
  have hmake : s1.makeRoom p = some s1 := if_pos hroom
  have htouch : s2.touch id = s.installed h rest id p data := by
    have hpage : s2.page id = some { p with miss := false, data := some data, fresh := [] } := SMap.get?_set_self ..
    rw [touch, hpage]
    rfl
  simp only [installAnswer, hmod]
  change (match s.pages.find? _ with | none => _ | some (id, p) => _) = _
  simp only [hfind, ne_eq, not_true, if_false, hmake, Option.map_some]
  change some (lcAdvance none (hotPump h none (State.pumpDie h none (s2.touch id)))) = _
  rw [htouch, advance_quiet (installed_quiet hq (List.mem_of_find?_eq_some hfind))]

theorem exec_rowPageInstall_hit {h : Fin 2} (hq : Quiet s) (harrived : (s.well h.val).arrived = (lpn, .ok, data) :: rest)
    (hfind : s.pages.find? (fun kv => kv.2.lpn == some lpn && kv.2.engine / 32 == h.val && kv.2.miss) = some (id, p))
    (hroom : (s.setPages p).length < 16) : exec (.rowPageInstall h) s = .next (s.installed h.val rest id p data) := by
  change execRowPageInstall h s = _
  simp only [execRowPageInstall, harrived, List.findSome?_cons, installAnswer_hit hq harrived hfind hroom]

end Install


/-- Settles O31: what ends has no command entry behind it, so its record alone changes; a cut-over and a destination's pages change
the row-page cache but for the entries they name, and an installed page moves nothing on when nothing waits. -/
theorem lifecycleEvents : Obligations.LifecycleEvents := by
  unfold Obligations.LifecycleEvents
  intro s hjobs ended
  refine ⟨fun _ _ _ hrun => exec_writeRowsDone_end hjobs hrun, fun _ _ hrun => exec_foldDone_end hjobs hrun,
    fun _ _ hrun hclean => exec_flushDone_end hjobs hrun hclean, fun n hsnap hsets hwait => ?snapshot,
    fun n a pos hload => ?hotLoad,
    fun tid t ht hretiring => ⟨fun hpins => ?retired, fun hpins => ?pinned⟩,
    fun m x hx hcut => ⟨fun hdelta hlost hshut => ?passes, fun code hcode => ?fails⟩,
    fun m x t hx hcut ht hparts hadds hready hmoves => ?cutover, fun src m v => ?ack,
    fun tid group e pages shadows t u ht hroom => ?reserve,
    fun h lpn data rest id p harrived hfind hroom hparts hadds hdue hrepacks hswept hhots hrun => ?install⟩
  case snapshot =>
    refine ⟨_, exec_cmsSnapDone hsnap, ?_⟩
    rw [endSnap_idle hjobs hsets hwait]
    exact ⟨flag_setFlag_false .., rfl, SMap.getD_set_self ..⟩
  case hotLoad =>
    refine ⟨_, exec_hotLoadDone_end hjobs hload, ?_, SMap.getD_set_self .., rfl⟩
    rw [fld, setFlag, setFld, reg_setReg_other _ (by decide)]
    exact fld_setFld_self _ _ _ _ (by decide) (by decide)
  case retired =>
    exact ⟨_, (exec_instarRetire ht).trans (congrArg _ (if_pos ⟨hretiring, hpins⟩)), SMap.get?_set_self ..,
      (instarDropped s tid.val t.other).cis⟩
  case pinned => exact (exec_instarRetire ht).trans (congrArg _ (if_neg fun hends => hpins hends.2))
  case passes =>
    exact ⟨_, exec_migrationPassEnd_cuts hx hcut hdelta hlost hshut, SMap.get?_set_self .., reg_setReg_self .., rfl⟩
  case fails =>
    obtain ⟨dir, v, hfail⟩ := migFail_idle hjobs m.val x code
    refine ⟨_, exec_migrationPassEnd_fails hx hcut hcode, ?_⟩
    rw [hfail]
    exact ⟨SMap.get?_erase_self .., rfl, rfl⟩
  case cutover =>
    obtain ⟨u, hu⟩ := Option.isSome_iff_exists.mp hmoves
    exact ⟨u, exec_migrationCutoverDone hx hcut ht hready hu, cutOver_spec hjobs hparts hadds hu⟩
  case ack =>
    intro v1 h hack
    exact accepted_write (by decide) h (migAckEff_ack (getLsbD_or_bit v (b := 31) (by decide)) hack)
  case reserve =>
    intro key hu
    have hkeeps := CacheOnly.foldl_bind (fun _ _ _ => CacheOnly.bringPage) pages hu
    refine ⟨exec_destinationReserve shadows ht hroom hu, ?_, hkeeps.shadows, hkeeps.cis, hkeeps.tables⟩
    rw [hkeeps.dir]
    exact SMap.get?_set_self ..
  case install =>
    have hquiet : Quiet s := ⟨hparts, hadds, hdue, hrepacks, hswept, hhots, hrun⟩
    refine ⟨_, exec_rowPageInstall_hit hquiet harrived hfind hroom, SMap.get?_set_self .., ?_, fun q hq => ?_, rfl⟩
    · exact congrArg Well.arrived (SMap.getD_set_self s.wells h.val _ Well.reset)
    · exact (SMap.get?_set_ne _ _ hq).trans (SMap.get?_set_ne _ _ hq)

end Sys2Proof.Machine

/-!
PROOFS. The statements of the lookup: lifecycle commands take effect (O30).
-/

namespace Sys2Proof.Machine

open State

/-! ### LKE_LC_CMD (R209, R216, R217, R223 to R230, R236) -/

/-- LKE_LC_CMD as a command with an OP writes it. -/
def lcWord (v : Word) (op : Nat) : Word := BitVec.ofNat 32 (setBits v.toNat 3 0 op)

theorem toNat_lcWord (v : Word) (op : Nat) : (lcWord v op).toNat = setBits v.toNat 3 0 op := by
  rw [lcWord, BitVec.toNat_ofNat, Nat.mod_eq_of_lt (setBits_lt (by decide) v.isLt (by decide))]

/-- OP is the one given. -/
theorem lcWord_op (v : Word) (op : Nat) : (lcWord v op).toNat % 16 = op % 16 := by
  rw [toNat_lcWord]
  exact bitsOf_setBits_self v.toNat op (hi := 3) (lo := 0) (by decide)

/-- TID is that of the word written. -/
theorem lcWord_tid (v : Word) (op : Nat) : bitsOf (lcWord v op).toNat 13 4 = bitsOf v.toNat 13 4 := by
  rw [toNat_lcWord, bitsOf_setBits_apart _ _ (by decide) (by decide) (by decide)]

section Effects

variable {s : State} {v : Word} {t : Table}

/-- FLUSH begins with the shadows of every table (R236). -/
theorem lcEff_flush : lcEff (lcWord v 12) s = s.lcStart (.flush (s.shadowRows fun _ => true) none .ok) := by
  rw [lcEff, lcWord_op]
  rfl

variable (ht : s.table (bitsOf v.toNat 13 4) = some t)

include ht

/-- PLACE sets the placement of the current instar (R209). -/
theorem lcEff_place : lcEff (lcWord v 1) s = s.setTable (bitsOf v.toNat 13 4) { t with packCur := (s.lcA 0).testBit 0 } := by
  simp only [lcEff, lcWord_op, lcWord_tid, ht]
  rfl

/-- WRITE_ROWS begins a batch, with no row skipped yet (R223). -/
theorem lcEff_writeRows : lcEff (lcWord v 2) s =
    (s.lcStart (.write (bitsOf v.toNat 13 4) ((s.lcA 0).testBit 0) s.batchAt (s.lcA 3))).setFld .lcState 0 31 10 0 := by
  simp only [lcEff, lcWord_op, lcWord_tid, ht]
  rfl

/-- BEGIN without CLONE makes an empty instar under construction (R224). -/
theorem lcEff_begin (hclone : (s.lcA 0).testBit 0 = false) : lcEff (lcWord v 3) s = s.setTable (bitsOf v.toNat 13 4) { t with
    other := (t.cur + 1) % 65536, ostate := 1, clone := false, mirror := (s.lcA 0).testBit 1
    packOther := (s.lcA 0).testBit 2, touched := true } := by
  have hbegin : lcEff (lcWord v 3) s = s.beginEff (bitsOf v.toNat 13 4) t := by
    simp only [lcEff, lcWord_op, lcWord_tid, ht]
    rfl
  rw [hbegin, beginEff, hclone]
  rfl

/-- SEAL ends the construction of the other instar (R225). -/
theorem lcEff_seal : lcEff (lcWord v 4) s = s.setTable (bitsOf v.toNat 13 4) { t with ostate := 2 } := by
  simp only [lcEff, lcWord_op, lcWord_tid, ht]
  rfl

/-- ADVANCE exchanges the instars with their placements (R227). -/
theorem lcEff_advance : lcEff (lcWord v 5) s = s.setTable (bitsOf v.toNat 13 4) { t with
    cur := t.other, other := t.cur, packCur := t.packOther, packOther := t.packCur
    ostate := if (s.lcA 0).testBit 3 then 4 else 3 } := by
  simp only [lcEff, lcWord_op, lcWord_tid, ht]
  rfl

/-- RELEASE lets a held instar retire (R228). -/
theorem lcEff_release : lcEff (lcWord v 6) s = s.setTable (bitsOf v.toNat 13 4) { t with ostate := 3 } := by
  simp only [lcEff, lcWord_op, lcWord_tid, ht]
  rfl

/-- ABANDON ends the other instar (R225). -/
theorem lcEff_abandon : lcEff (lcWord v 7) s = s.endOther (bitsOf v.toNat 13 4) t := by
  simp only [lcEff, lcWord_op, lcWord_tid, ht]
  rfl

/-- MIGRATE makes a MOVING entry and takes a slot (R217). -/
theorem lcEff_migrate : lcEff (lcWord v 8) s = s.migrateEff (bitsOf v.toNat 13 4) t := by
  simp only [lcEff, lcWord_op, lcWord_tid, ht]
  rfl

/-- DIRSET makes a HOME or REMOTE entry (R216). -/
theorem lcEff_dirset : lcEff (lcWord v 9) s =
    let e := s.lcA 3
    let node := if bitsOf e 19 18 = 0 then s.node else bitsOf e 11 0
    { s with dir := s.dir.set (dirKey (bitsOf v.toNat 13 4) s.lcGroup) ⟨bitsOf e 19 18, node, bitsOf e 17 12, 0, none⟩ } := by
  simp only [lcEff, lcWord_op, lcWord_tid, ht]
  rfl

/-- DIRCLR removes an entry (R216). -/
theorem lcEff_dirclr : lcEff (lcWord v 10) s = { s with dir := s.dir.erase (dirKey (bitsOf v.toNat 13 4) s.lcGroup) } := by
  simp only [lcEff, lcWord_op, lcWord_tid, ht]
  rfl

/-- FOLD begins with the shadows of its table (R230). -/
theorem lcEff_fold : lcEff (lcWord v 11) s =
    s.lcStart (.fold (bitsOf v.toNat 13 4) (s.shadowRows (· == bitsOf v.toNat 13 4)) .ok) := by
  simp only [lcEff, lcWord_op, lcWord_tid, ht]
  rfl

end Effects

/-- Settles O30: each command is the accepted write of LKE_LC_CMD with its OP, and has the effect of that OP. -/
theorem lifecycleCommands : Obligations.LifecycleCommands := by
  unfold Obligations.LifecycleCommands
  intro src v full s word tid key a0 e acc
  have hbase : Block.at Reg.lcCmd.row.base ≠ some .fe := by decide
  exact ⟨fun h => accepted_write hbase h lcEff_flush, fun t ht =>
    ⟨fun h => accepted_write hbase h (lcEff_place ht),
    fun h => accepted_write hbase h (lcEff_writeRows ht),
    fun hclone h => accepted_write hbase h (lcEff_begin ht hclone),
    fun h => accepted_write hbase h (lcEff_seal ht),
    fun h => accepted_write hbase h (lcEff_advance ht),
    fun h => accepted_write hbase h (lcEff_release ht),
    fun h => accepted_write hbase h (lcEff_abandon ht),
    fun h => accepted_write hbase h (lcEff_migrate ht),
    fun h => accepted_write hbase h (lcEff_dirset ht),
    fun h => accepted_write hbase h (lcEff_dirclr ht),
    fun h => accepted_write hbase h (lcEff_fold ht)⟩⟩

end Sys2Proof.Machine

/-!
PROOFS. The statements of the lookup: what the write-back of a page and the fold of a shadow change (R229, R230, R233 to R235), and
what O28 claims beyond that.
-/

namespace Sys2Proof.Machine

open State

/-! ### The write-back of a page (R233 to R235) -/

namespace State

/-- `t` is `s` after a page's WRITE has gone to the well half of its engine: under the page's LPN or a new one, at the cost of its
bytes. -/
def Wrote (s t : State) (id : Nat) (p : Page) (above : Bool) : Prop :=
  ∃ l, (t.well (p.engine / 32)).reqs = (s.well (p.engine / 32)).reqs ++ [.write l id (p.data.getD [])] ∧
    (∀ l', p.lpn = some l' → l = l') ∧ t.page id = some { p with lpn := some l, writing := true, above := above } ∧
    t.tokens = max (-s.tokenCap) (s.tokens - 4320 * 2048) ∧ t.overBytes = s.overBytes + (if above then 2048 else 0) ∧
    { t with pages := s.pages, wells := s.wells, tokens := s.tokens, overBytes := s.overBytes } = s

section WriteBack

variable {s : State} {id : Nat} {p : Page}

@[simp] theorem reqs_newLpn (w : Well) : (newLpn w).2.reqs = w.reqs := by
  unfold newLpn
  split <;> rfl

theorem spend_frame (s : State) (n : Nat) (above : Bool) : s.spend n above = { s with
    tokens := max (-s.tokenCap) (s.tokens - 4320 * n), overBytes := s.overBytes + if above then n else 0 } := by
  cases above <;> rfl

/-- A WRITE under an LPN, with the well half as the choice of the LPN leaves it. -/
theorem wrote_write {l : Nat} {w : Well} (hreqs : w.reqs = (s.well (p.engine / 32)).reqs) (hl : ∀ l', p.lpn = some l' → l = l')
    (above : Bool) : s.Wrote (({ s.setWell (p.engine / 32) { w with reqs := w.reqs ++ [.write l id (p.data.getD [])] } with
      pages := s.pages.set id { p with lpn := some l, writing := true, above := above } } : State).spend 2048 above) id p above := by
  refine ⟨l, ?wells, hl, ?page, ?rest⟩
  case wells => cases above <;> simp [spend, State.well, setWell, hreqs]
  case page => cases above <;> exact SMap.get?_set_self ..
  case rest =>
    rw [spend_frame]
    exact ⟨rfl, rfl, rfl⟩

theorem writeBack_wrote (hp : s.page id = some p) (above : Bool) :
    s.Wrote (s.writeBack id above) id p (s.aboveBudget above) := by
  simp only [writeBack, hp]
  cases hlpn : p.lpn with
  | some l => exact wrote_write rfl (fun l' h => Option.some.inj (hlpn.symm.trans h)) _
  | none => exact wrote_write (reqs_newLpn _) (fun l' h => by cases hlpn.symm.trans h) _

end WriteBack

end State

section Governor

variable {s : State} {id : Nat} {p : Page}

/-- The first page in log order is written back once it has reached GOV_LAG and the tokens allow it (R233, R234). -/
theorem exec_pageWriteBack_writes (hshut : s.wellShut = false) (hfirst : s.dirtyFirst = some (id, p)) (hp : s.page id = some p)
    (hlag : s.lagged p = true) (htokens : s.flag .govCfg 0 0 = true ∨ 0 < s.tokens) :
    ∃ t, exec .pageWriteBack s = .next t ∧ s.Wrote t id p (s.flag .govCfg 0 0 && decide (s.tokens ≤ 0)) := by
  have hgo : (s.wellShut || (!s.flag .govCfg 0 0 && decide (s.tokens ≤ 0))) = false := by
    rcases htokens with h | h <;> simp [hshut, h]
  refine ⟨s.writeBack id false, ?_, writeBack_wrote hp false⟩
  change execPageWriteBack s = _
  simp only [execPageWriteBack, hgo, hfirst, hlag, Bool.false_eq_true, if_false, if_true]

/-- A page that is too young stays, and so does every page under ENDURANCE without tokens (R234). -/
theorem exec_pageWriteBack_stays (hfirst : s.dirtyFirst = some (id, p))
    (h : s.lagged p = false ∨ (s.flag .govCfg 0 0 = false ∧ s.tokens ≤ 0)) : exec .pageWriteBack s = .next s := by
  change execPageWriteBack s = _
  rcases h with hyoung | ⟨hflag, htokens⟩
  · simp only [execPageWriteBack, hfirst, hyoung, Bool.false_eq_true, if_false, ite_self]
  · simp only [execPageWriteBack, hflag, htokens, Bool.not_false, decide_true, Bool.and_self, Bool.or_true, if_true]

/-- The governor writes above its pace when an add has waited for the dirty limit (R235). -/
theorem exec_governorOverpace_writes (hshut : s.wellShut = false) (hfirst : s.dirtyFirst = some (id, p))
    (hp : s.page id = some p) (hfull : s.dirtyFull = true) (hlong : heldLong s = true) :
    ∃ t, exec .governorOverpace s = .next t ∧ s.Wrote t id p true := by
  refine ⟨s.writeBack id true, ?_, writeBack_wrote hp true⟩
  change execGovernorOverpace s = _
  simp only [execGovernorOverpace, hshut, hfull, hlong, hfirst, Bool.not_true, Bool.or_self, Bool.false_eq_true, if_false]

theorem exec_governorOverpace_stays (h : s.dirtyFull = false ∨ heldLong s = false) : exec .governorOverpace s = .next s := by
  change execGovernorOverpace s = _
  rcases h with h | h <;> simp [execGovernorOverpace, h]

end Governor

/-! ### Pages under use and writes (R210, R213, R233) -/

namespace State

/-- No page waits to be returned (R215). -/
def NoneSwept (s : State) : Prop := ∀ kv ∈ s.pages, kv.2.swept = false

section SetPage

variable {s : State} {id : Nat} {p q : Page}

theorem noneSwept_setPage (hp : s.page id = some p) (hq : q.swept = p.swept) (h : s.NoneSwept) :
    ({ s with pages := s.pages.set id q } : State).NoneSwept := fun kv hkv => by
  rcases SMap.mem_set hkv with rfl | hkv
  · exact hq.trans (h (id, p) (SMap.mem_of_get? hp))
  · exact h kv hkv

theorem pageData_setPage_self : ({ s with pages := s.pages.set id q } : State).pageData id = q.data :=
  congrArg (Option.bind · Page.data) (SMap.get?_set_self s.pages id q)

theorem pageData_setPage_ne {i : Nat} (hi : i ≠ id) : ({ s with pages := s.pages.set id q } : State).pageData i = s.pageData i :=
  congrArg (Option.bind · Page.data) (SMap.get?_set_ne s.pages q hi)

/-- A page that keeps its bytes. -/
theorem pageData_setPage_same (hp : s.page id = some p) (hq : q.data = p.data) (i : Nat) :
    ({ s with pages := s.pages.set id q } : State).pageData i = s.pageData i := by
  by_cases hi : i = id
  · subst hi
    rw [pageData_setPage_self, hq, pageData, hp]
    rfl
  · exact pageData_setPage_ne hi

end SetPage

/-- Between `s` and `t` pages have been used, and nothing else has become of them. -/
structure PagesUsed (s t : State) : Prop where
  page : ∀ i, ∃ n, t.page i = (s.page i).map fun p => { p with used := n }
  swept : s.NoneSwept → t.NoneSwept
  foldPos : t.foldPos = s.foldPos

namespace PagesUsed

variable {s t u : State}

theorem of_pages (hpages : t.pages = s.pages) (hpos : t.foldPos = s.foldPos) : s.PagesUsed t where
  page i := by
    have hpage : t.page i = s.page i := congrArg (SMap.get? · i) hpages
    cases hp : s.page i with
    | none => exact ⟨0, hpage.trans hp⟩
    | some p => exact ⟨p.used, hpage.trans hp⟩
  swept h := by rwa [NoneSwept, hpages]
  foldPos := hpos

theorem trans (h : s.PagesUsed t) (h' : t.PagesUsed u) : s.PagesUsed u where
  page i := by
    obtain ⟨n, hn⟩ := h.page i
    obtain ⟨m, hm⟩ := h'.page i
    exact ⟨m, by rw [hm, hn, Option.map_map]; rfl⟩
  swept hs := h'.swept (h.swept hs)
  foldPos := h'.foldPos.trans h.foldPos

theorem touch (s : State) (id : Nat) : s.PagesUsed (s.touch id) := by
  unfold State.touch
  split
  · next p hp =>
    refine ⟨fun i => ?_, noneSwept_setPage hp rfl, rfl⟩
    by_cases hi : i = id
    · subst hi
      exact ⟨s.order, by rw [hp]; exact SMap.get?_set_self ..⟩
    · obtain ⟨n, hn⟩ := (of_pages (s := s) rfl rfl).page i
      exact ⟨n, (SMap.get?_set_ne _ _ hi).trans hn⟩
  · exact of_pages rfl rfl

theorem hitPage (s : State) (id : Nat) : s.PagesUsed (s.hitPage id) := by
  unfold State.hitPage
  dsimp only
  refine trans ?_ (touch _ id)
  split <;> exact of_pages rfl rfl

theorem useRow (s : State) (tid : Nat) (t : Table) (inst row id : Nat) : s.PagesUsed (s.useRow tid t inst row id) := by
  unfold State.useRow
  split
  · exact (hitPage ..).trans (hitPage ..)
  · exact hitPage ..

theorem pageData (h : s.PagesUsed t) (i : Nat) : t.pageData i = s.pageData i := by
  obtain ⟨n, hn⟩ := h.page i
  rw [State.pageData, State.pageData, hn]
  cases s.page i <;> rfl

theorem rowBytes (h : s.PagesUsed t) (tab : Table) (id off : Nat) : t.rowBytes tab (.at_ id off) = s.rowBytes tab (.at_ id off) := by
  obtain ⟨n, hn⟩ := h.page id
  rw [State.rowBytes, State.rowBytes, hn]
  cases s.page id <;> rfl

end PagesUsed

section WritePage

variable {s : State} {id off : Nat} {p : Page} {d bs : List Byte}

theorem pageData_dirtyPage (s : State) (id i : Nat) : (s.dirtyPage id).pageData i = s.pageData i := by
  unfold State.dirtyPage
  split
  · rfl
  · next p hp =>
    refine pageData_setPage_same hp ?_ i
    split
    · rfl
    · split <;> rfl

theorem noneSwept_dirtyPage (h : s.NoneSwept) : (s.dirtyPage id).NoneSwept := by
  unfold State.dirtyPage
  split
  · exact h
  · next p hp =>
    refine noneSwept_setPage hp ?_ h
    split
    · rfl
    · split <;> rfl

theorem pageData_writePage_self (hp : s.page id = some p) (hd : p.data = some d) :
    (s.writePage id off bs).pageData id = some (d.take off ++ bs ++ d.drop (off + bs.length)) := by
  simp only [State.writePage, hp, hd, Option.getD_some]
  rw [pageData_dirtyPage, pageData_setPage_self]

theorem pageData_writePage_ne {i : Nat} (hi : i ≠ id) : (s.writePage id off bs).pageData i = s.pageData i := by
  unfold State.writePage
  split
  · rfl
  · rw [pageData_dirtyPage, pageData_setPage_ne hi]

theorem noneSwept_writePage (h : s.NoneSwept) : (s.writePage id off bs).NoneSwept := by
  unfold State.writePage
  split
  · exact h
  · next p hp => exact noneSwept_dirtyPage (noneSwept_setPage hp rfl h)

theorem CacheOnly.writePage (s : State) (id off : Nat) (bs : List Byte) : s.CacheOnly (s.writePage id off bs) := by
  unfold State.writePage
  split
  · exact .refl s
  · exact (CacheOnly.setPages ..).trans (CacheOnly.dirtyPage ..)

end WritePage

end State

/-! ### The fold of a shadow (R229, R230) -/

/-- A shadow of one instar, whose fold finds the row in a cached page of that instar alone, whole and with a scale (R229, R416). -/
structure State.Foldable (s : State) (x : Shadow) (t : Table) (inst id off : Nat) (p : Page) : Prop where
  insts : x.insts = [inst]
  whole : x.bad = false
  table : s.table x.tid = some t
  unheld : s.foldHeld x.tid t x = false
  row : s.rowAt x.tid t inst x.row = .at_ id off
  page : s.page id = some p
  own : p.insts = [inst]
  clean : State.rowPoison p off t.rowSize = false
  scale : (t.scaleOf (s.rowBytes t (.at_ id off)).1).isZero = false

/-- The stored bytes of a row with its shadow, under a number of the free values drawn (R229). -/
def State.foldedRow (s : State) (x : Shadow) (t : Table) (id off k : Nat) : List Byte :=
  let bs := (s.rowBytes t (.at_ id off)).1
  State.foldBytes t x.engine (s.foldPos.getD x.engine 0) k bs
    (((t.values bs).zip x.vec).map fun (v, w) => rnd32 (v.add (ofF32 w)))

/-- The state of a fold between the use of its row and the write: it has drawn, and the engine's generator has moved on. -/
def State.foldDrawn (s : State) (x : Shadow) (t : Table) (inst id : Nat) : State :=
  let s1 := s.useRow x.tid t inst x.row id
  { s1.draw.2 with foldPos := s1.foldPos.set x.engine (s1.foldPos.getD x.engine 0 + t.stored) }

/-- The state after a fold. -/
def State.folded (s : State) (x : Shadow) (t : Table) (inst id off : Nat) : State :=
  let new := s.foldedRow x t id off (s.useRow x.tid t inst x.row id).free
  ((s.foldDrawn x t inst id).putRow x.tid x.row id off [inst] new false).dropShadow x.tid x.row [inst]

section Fold

variable {s : State} {x : Shadow} {t : Table} {inst id off : Nat} {p : Page} {d : List Byte}

/-- The page of a row of its one instar is written as it is. -/
theorem prepare_own {e tid row : Nat} (hrow : s.rowAt tid t inst row = .at_ id off) (hp : s.page id = some p)
    (hown : p.insts = [inst]) : s.prepare e tid t [inst] row = .ready s id off := by
  simp [prepare, ownPage, hrow, hp, hown]

theorem foldPages_ready (h : s.Foldable x t inst id off p) :
    s.foldPages x.tid t x none 2 [inst] = .done (s.folded x t inst id off) := by
  obtain ⟨-, hwhole, -, -, hrow, hp, hown, hclean, hscale⟩ := h
  have hused := PagesUsed.useRow s x.tid t inst x.row id
  have hshare : s.sharers x.tid t x.row [inst] = .ok [inst] := by simp [sharers, hrow]
  have hpoison : (s.rowBytes t (.at_ id off)).2 = false := by simp only [State.rowBytes, hp, hclean]
  simp [foldPages, hshare, hrow, prepare_own hrow hp hown, hused.rowBytes, hpoison, hwhole, hscale, hused.foldPos, State.folded,
    State.foldDrawn, State.foldedRow, State.draw]

theorem tryFold_ready (h : s.Foldable x t inst id off p) : s.tryFold x none = s.folded x t inst id off := by
  have hdone : s.fold1 x none = .done (s.folded x t inst id off) := by
    simp only [fold1, h.table, h.insts, foldPages_ready h]
  simp only [tryFold, h.table, h.unheld, hdone, Bool.false_eq_true, if_false]

/-- With no shadow, part, add or candidate left, nothing waits for a page. -/
theorem pumpDie_idle (hshadows : s.shadows = []) (hparts : s.parts = []) (hadds : s.adds = []) (hrepacks : s.repacks = [])
    (hswept : s.NoneSwept) (die : Nat) : s.pumpDie die none = s := by
  have hidle : s.busyEngines die = [] := List.filter_eq_nil_iff.mpr fun e _ => by
    rw [partsOf, addsOf, hparts, hadds]
    exact Bool.false_ne_true
  simp only [State.pumpDie, dueFolds, hshadows, List.filter_nil, hidle, List.foldl_nil]
  exact pumpRepacks_quiet hrepacks hswept die

/-- The write of a row that loses its shadow is that of its page but for hot copies. -/
theorem putRow_dropShadow (s : State) (tid row id off : Nat) (insts : List Nat) (bs : List Byte) : ∃ hots,
    (s.putRow tid row id off insts bs false).dropShadow tid row insts =
      { (s.writePage id off bs).dropShadow tid row insts with hots := hots } := by
  unfold State.putRow
  generalize s.writePage id off bs = w
  exact ⟨_, rfl⟩

theorem shadows_dropShadow_single (hshadows : s.shadows = [x]) (hinsts : x.insts = [inst]) :
    (s.dropShadow x.tid x.row [inst]).shadows = [] := by
  simp [dropShadow, hshadows, hinsts]

/-- A fold writes its row's page, takes its shadow away, and leaves nothing that waits. -/
theorem folded_spec (h : s.Foldable x t inst id off p) (hshadows : s.shadows = [x]) (hd : p.data = some d) :
    let u := s.folded x t inst id off
    let new := s.foldedRow x t id off (s.useRow x.tid t inst x.row id).free
    u.shadows = [] ∧ u.pageData id = some (d.take off ++ new ++ d.drop (off + new.length)) ∧
      (∀ i, i ≠ id → u.pageData i = s.pageData i) ∧ u.cis = s.cis ∧ u.tables = s.tables ∧ u.parts = s.parts ∧ u.adds = s.adds ∧
      u.repacks = s.repacks ∧ (s.NoneSwept → u.NoneSwept) := by
  intro u new
  have hused := PagesUsed.useRow s x.tid t inst x.row id
  have hcache := CacheOnly.useRow s x.tid t inst x.row id
  obtain ⟨n, hpage⟩ := hused.page id
  rw [h.page] at hpage
  obtain ⟨hots, hu⟩ := putRow_dropShadow (s.foldDrawn x t inst id) x.tid x.row id off [inst] new
  change u = _ at hu
  rw [hu]
  have hself := pageData_writePage_self (s := s.foldDrawn x t inst id) (off := off) (bs := new) hpage hd
  have hother (i : Nat) (hi : i ≠ id) := pageData_writePage_ne (s := s.foldDrawn x t inst id) (off := off) (bs := new) hi
  have hswept := noneSwept_writePage (s := s.foldDrawn x t inst id) (id := id) (off := off) (bs := new)
  have hwrite := CacheOnly.writePage (s.foldDrawn x t inst id) id off new
  generalize (s.foldDrawn x t inst id).writePage id off new = w at *
  refine ⟨shadows_dropShadow_single (hwrite.shadows.trans (hcache.shadows.trans hshadows)) h.insts, hself,
    fun i hi => (hother i hi).trans (hused.pageData i), hwrite.cis.trans hcache.cis, hwrite.tables.trans hcache.tables,
    hwrite.parts.trans hcache.parts, hwrite.adds.trans hcache.adds, ?_, fun hs => hswept (hused.swept hs)⟩
  exact (congrArg State.repacks hwrite.frame :).trans (congrArg State.repacks hcache.frame :)

/-- When its time has come, the only shadow is folded into its row's page, with the free value drawn after those of the pages
that the row's use counts (R229, R230). -/
theorem exec_shadowFoldTimer_folds (h : s.Foldable x t inst id off p) (hshadows : s.shadows = [x]) (hdue : x.due = false)
    (hparts : s.parts = []) (hadds : s.adds = []) (hrepacks : s.repacks = []) (hswept : s.NoneSwept) (hd : p.data = some d) :
    exec .shadowFoldTimer s = .next (s.folded x t inst id off) := by
  obtain ⟨hnone, -, -, -, -, hparts', hadds', hrepacks', hswept'⟩ := folded_spec h hshadows hd
  change execShadowFoldTimer s = _
  simp only [execShadowFoldTimer, hshadows, List.find?_cons, hdue, Bool.not_false, tryFold_ready h]
  exact congrArg _ (pumpDie_idle hnone (hparts'.trans hparts) (hadds'.trans hadds) (hrepacks'.trans hrepacks) (hswept' hswept) _)

end Fold

/-! ### The free value of a fold, and O28 -/

@[simp] theorem free_hitPage (s : State) (id : Nat) : (s.hitPage id).free = s.free + 1 := by
  have htouch : ∀ t : State, (t.touch id).free = t.free := fun t => by unfold touch; split <;> rfl
  unfold hitPage
  dsimp only
  rw [htouch]
  split <;> rfl

/-- A row that no locator leads to draws one value as it is used. -/
theorem free_useRow_direct {s : State} {tid : Nat} {t : Table} {inst row : Nat} (h : s.locAt tid t inst row = .zero) (id : Nat) :
    (s.useRow tid t inst row id).free = s.free + 1 := by
  simp only [useRow, h, free_hitPage]

/-- A table of one E5M2 element a row, its one page, and a shadow that takes its row 0 beyond every finite value. -/
def e5m2Table : Table :=
  ⟨1, 1, 4, 0, false, false, true, false, 0, 0, [(0, 0)], 0, 1, 0, false, false, false, false, true⟩
def e5m2Page : Page :=
  ⟨0, 0, 0, false, false, [0], 0, some [0], [], some (0, 0), false, none, false, false, none, 0, 0, none, false, []⟩
def overflow : Shadow := ⟨0, 0, [0], 0, [0x7F800000], 0, false, false, none⟩

/-- The state in which that shadow is the oldest, after `k` free values. -/
def overflowing (k : Nat) : State :=
  { State.reset with free := k, tables := [(0, e5m2Table)], pages := [(0, e5m2Page)], shadows := [overflow] }

theorem overflowing_foldable (k : Nat) : (overflowing k).Foldable overflow e5m2Table 0 0 0 e5m2Page where
  insts := rfl
  whole := rfl
  table := rfl
  unheld := (by decide +kernel : (overflowing 0).foldHeld 0 e5m2Table overflow = false)
  row := rfl
  page := rfl
  own := rfl
  clean := rfl
  scale := rfl

/-- An infinite element of E5M2 is written as the largest finite one or as infinity (R59). -/
theorem codes_outBlock_inf {o : OutCfg} (hf : o.f = .e5m2) (hscaling : o.scaling = 0) (hblock : o.block = 0) (pos : Nat) :
    (outBlock o pos [.inf false]).codes = [if o.satf then 0x7B else 0x7C] := by
  have hfin : largestCode .e5m2 false = 0x7B := by decide +kernel
  have hinf : encodeF .e5m2 0 (.inf false) = 0x7C := by decide +kernel
  have hfmt : Fmt.hasInf .e5m2 = true := rfl
  cases hsat : o.satf <;> simp [outBlock, putElem, hf, hscaling, hblock, hsat, hfin, hinf, hfmt]

/-- A fold of an infinite element takes its free value (R229). -/
theorem foldBytes_overflow (e pos k : Nat) : foldBytes e5m2Table e pos k [0] [.inf false] =
    [if (Config.freeAt k 0).getLsbD 0 then 0x7B else 0x7C] := by
  have hscale : e5m2Table.scaleOf [0] = .one := by decide +kernel
  have hbias : e5m2Table.biasOf [0] = .zero := by decide +kernel
  have hsame : rnd32 ((FVal.sub (.inf false) .zero).div .one) = .inf false := by decide +kernel
  have hblock : e5m2Table.block = 0 := rfl
  have helems : e5m2Table.elems = 1 := rfl
  have hscaling : e5m2Table.scaling = 0 := rfl
  have hrange : List.range ((1 + 1 - 1) / 1) = [0] := rfl
  have hbytes : e5m2Table.elemBytes = 1 := rfl
  have hpack : ∀ b : Bool, pack e5m2Table.f.bits [if b then 0x7B else 0x7C] = [if b then 0x7B else 0x7C] := by decide +kernel
  unfold foldBytes
  simp only [hscale, hbias, List.map_cons, List.map_nil, hsame, hblock, helems, hscaling, if_true, hrange, Nat.mul_zero,
    List.drop_zero, List.take_succ_cons, List.take_nil, List.flatMap_singleton]
  rw [codes_outBlock_inf rfl rfl rfl, hpack, hbytes]
  rfl

theorem foldedRow_overflowing (k j : Nat) : (overflowing k).foldedRow overflow e5m2Table 0 0 j =
    [if (Config.freeAt j 0).getLsbD 0 then 0x7B else 0x7C] := by
  have hrow : ((overflowing k).rowBytes e5m2Table (.at_ 0 0)).1 = [0] := rfl
  have hvals : ((e5m2Table.values [0]).zip overflow.vec).map (fun (v, w) => rnd32 (v.add (ofF32 w))) = [.inf false] := by
    decide +kernel
  rw [foldedRow, hrow, hvals, foldBytes_overflow]

theorem overflowByte_inj : ∀ a b : Bool, (if a then 0x7B else 0x7C : Byte) = (if b then 0x7B else 0x7C) → a = b := by decide

/-- O28 holds if every draw gives the same values, so nothing but a difference between draws can refute it: it says that a fold takes
the value drawn first, where the use of the fold's row draws before. -/
theorem governorWritesAndFolds_of_freeAt_eq (hfree : ∀ j k, Config.freeAt j = Config.freeAt k) :
    Obligations.GovernorWritesAndFolds := by
  unfold Obligations.GovernorWritesAndFolds
  refine ⟨fun s id p hshut hfirst hp => ⟨exec_pageWriteBack_writes hshut hfirst hp, exec_pageWriteBack_stays hfirst,
    exec_governorOverpace_writes hshut hfirst hp, exec_governorOverpace_stays⟩, ?_⟩
  intro s x t inst id off p d hshadows hdue hinsts hparts hadds hrepacks hswept ht hunheld hrow hp hown hd hclean hwhole bs hscale new
  have hready : s.Foldable x t inst id off p := ⟨hinsts, hwhole, ht, hunheld, hrow, hp, hown, hclean, hscale⟩
  have hnew : s.foldedRow x t id off (s.useRow x.tid t inst x.row id).free = new := by
    simp only [foldedRow, foldBytes, hfree _ s.free]
    rfl
  obtain ⟨hnone, hself, hother, hcis, htables, -⟩ := folded_spec hready hshadows hd
  exact ⟨_, exec_shadowFoldTimer_folds hready hshadows hdue hparts hadds hrepacks hswept hd, hnone, hnew ▸ hself, hother, hcis,
    htables⟩

/-- O28 claims that the bit which decides an overflow of E5M2 is the same in every draw. The model says nothing of what is drawn
(log entry 1), so it proves neither this nor its negation, and neither O28 nor the negation of O28. -/
theorem freeBit_eq_of_governorWritesAndFolds (h : Obligations.GovernorWritesAndFolds) (k : Nat) :
    (Config.freeAt (k + 1) 0).getLsbD 0 = (Config.freeAt k 0).getLsbD 0 := by
  have hready := overflowing_foldable k
  have hswept : (overflowing k).NoneSwept := by simp [NoneSwept, overflowing, e5m2Page]
  have hdrawn : ((overflowing k).useRow 0 e5m2Table 0 0 0).free = k + 1 := free_useRow_direct rfl 0
  obtain ⟨u, hu, -, hsays, -⟩ := h.2 (overflowing k) overflow e5m2Table 0 0 0 e5m2Page [0] rfl rfl rfl rfl rfl rfl hswept hready.table
    hready.unheld hready.row hready.page hready.own rfl hready.clean hready.whole hready.scale
  obtain ⟨-, hdoes, -⟩ := folded_spec hready rfl (d := [0]) rfl
  cases hu.symm.trans (exec_shadowFoldTimer_folds hready rfl rfl rfl rfl rfl hswept (d := [0]) rfl)
  change _ = some ((overflowing k).foldedRow overflow e5m2Table 0 0 k ++ _) at hsays
  change _ = some ((overflowing k).foldedRow overflow e5m2Table 0 0 ((overflowing k).useRow 0 e5m2Table 0 0 0).free ++ _) at hdoes
  rw [hdrawn, foldedRow_overflowing] at hdoes
  rw [foldedRow_overflowing] at hsays
  exact overflowByte_inj _ _ (List.cons.inj (Option.some.inj (hdoes.symm.trans hsays))).1

end Sys2Proof.Machine

/-!
PROOFS. The statements of the cistern: requests of a channel, the drain of writes and the patrol scrub (O32).
-/

namespace Sys2Proof.Machine

open State

namespace State

/-! ### Sub-channels (R243, R250, R251) -/

section Serve

variable {s : State} {k : Nat}

theorem subOf_div (ch off : Nat) : subOf ch off / 2 = ch := by unfold subOf; omega

/-- A write of a sub-channel changes the table of the sub-channels alone. -/
theorem setSub_eq (s : State) (k : Nat) (x : SubChan) : ∃ m, s.setSub k x = { s with subs := m } := ⟨_, rfl⟩

theorem setSub_frame {s t : State} (h : { t with subs := s.subs } = s) (k : Nat) (x : SubChan) :
    { t.setSub k x with subs := s.subs } = s := h

@[simp] theorem sub_setSub_self (s : State) (k : Nat) (x : SubChan) : (s.setSub k x).sub k = x := by
  unfold sub setSub
  dsimp only
  split
  · next hx => rw [SMap.getD_erase_self, hx]
  · rw [SMap.getD_set_self]

theorem sub_setSub_ne (s : State) {j k : Nat} (x : SubChan) (h : j ≠ k) : (s.setSub k x).sub j = s.sub j := by
  unfold sub setSub
  dsimp only
  split
  · exact SMap.getD_erase_ne _ _ h
  · exact SMap.getD_set_ne _ _ _ h

theorem admitReqs_none {ch : Nat} (h : s.cisQ.getD ch [] = []) (n : Nat) : admitReqs ch n s = s := by
  cases n with
  | zero => rfl
  | succ n => simp only [admitReqs, h]

theorem serveSub_write (hq : s.cisQ.getD (k / 2) [] = []) (hw : (s.sub k).writing = true) :
    serveSub k s = s.setSub k { s.sub k with
      writes := (s.sub k).writes.drop 1, writing := !((s.sub k).writes.drop 1).isEmpty } := by
  simp only [serveSub, hw]
  exact admitReqs_none (by exact hq) 1

theorem serveSub_idle (hq : s.cisQ.getD (k / 2) [] = []) (hw : (s.sub k).writing = false) (hr : (s.sub k).reads = []) :
    serveSub k s = s := by
  simp only [serveSub, hw, hr]
  exact admitReqs_none (by exact hq) 1

theorem serveSub_read {r : CisAns} {rest : List CisAns} (hq : s.cisQ.getD (k / 2) [] = []) (hw : (s.sub k).writing = false)
    (hr : (s.sub k).reads = r :: rest) :
    serveSub k s = { s.setSub k { s.sub k with reads := rest } with cisOut := s.cisOut ++ [(k / 2, r)] } := by
  simp only [serveSub, hw, hr]
  exact admitReqs_none (by exact hq) 1

/-- A read that waits alone at a sub-channel that serves reads is answered. -/
theorem serveSub_answers {x : SubChan} {r : CisAns} (hq : s.cisQ.getD (k / 2) [] = []) (hw : x.writing = false)
    (hr : x.reads = [r]) :
    ∃ m, serveSub k (s.setSub k x) = { s with subs := m, cisOut := s.cisOut ++ [(k / 2, r)] } := by
  have hserved := serveSub_read (s := s.setSub k x) hq (by rwa [sub_setSub_self]) (by rwa [sub_setSub_self])
  obtain ⟨l, hl⟩ := setSub_eq s k x
  obtain ⟨m, hm⟩ := setSub_eq (s.setSub k x) k { x with reads := [] }
  rw [sub_setSub_self, hm, hl] at hserved
  rw [hl]
  exact ⟨m, hserved⟩

end Serve

/-! ### The code of an access (R238 to R241) -/

theorem length_dataSyms (bs : List Byte) : (dataSyms bs).length = 32 := by simp [dataSyms]

theorem length_encodeAccess (bs : List Byte) (poison : Bool) : 32 ≤ (encodeAccess bs poison).length := by
  unfold encodeAccess
  split <;> simp [length_dataSyms]

theorem length_misread (err : AccessErr) (c : List Sym) : (misread err c).length = c.length :=
  List.foldlRecOn (motive := fun d : List Sym => d.length = c.length) err _ rfl fun d hd x _ => by
    rw [List.length_modify, hd]

theorem length_symBytes {c : List Sym} (h : 32 ≤ c.length) : (symBytes c).length = 64 := by
  simp [symBytes, List.length_flatMap, h]

/-- Whatever the code makes of an access, it gives 64 bytes. -/
theorem length_decodeAccess {c : List Sym} (h : 32 ≤ c.length) : (decodeAccess c).2.length = 64 := by
  unfold decodeAccess
  dsimp only
  split
  · exact length_symBytes h
  split
  · exact length_symBytes h
  split
  · exact length_symBytes (by rwa [List.length_modify])
  · exact length_symBytes h

/-- What the code makes of the access at a working-memory address, read with errors. -/
def accessRead (s : State) (a : Nat) (err : AccessErr) : Verdict × List Byte :=
  decodeAccess (misread err (encodeAccess (s.cisRead a 64).1 (s.cisRead a 64).2))

theorem length_accessRead (s : State) (a : Nat) (err : AccessErr) : (s.accessRead a err).2.length = 64 :=
  length_decodeAccess (by rw [length_misread]; exact length_encodeAccess ..)

/-! ### Accesses of working memory (R239 to R241, R249) -/

/-- Raising a sump entry sets its number, its place and the request for a message; one overwritten unread is counted (R421). -/
theorem raise_eq (s : State) (kind inst : Nat) (status : Code) (action : Nat) (ctx : Option Nat)
    (launch loc detail count gen : Nat) : ∃ t m, (t = s ∨ t = sumpLoses s) ∧
    s.raise kind inst status action ctx launch loc detail count gen =
      { t.setReg .sumpTail 0 (BitVec.ofNat 32 (nextSeq (s.reg .sumpTail 0).toNat)) with sump := m, sumpIrq := true } := by
  unfold raise
  extract_lets seq slot head unread t u
  exact ⟨t, _, (ite_eq_or_eq _ _ _).symm, rfl⟩

theorem sumpRaised_raise (s : State) (kind inst : Nat) (status : Code) (action : Nat) (ctx : Option Nat)
    (launch loc detail count gen : Nat) :
    SumpRaised s (s.raise kind inst status action ctx launch loc detail count gen) := by
  obtain ⟨t, m, ht, heq⟩ := raise_eq s kind inst status action ctx launch loc detail count gen
  have honly : RegsOnly sumpRegs s t := by
    rcases ht with rfl | rfl
    · exact .refl _ t
    · exact ⟨rfl, (((RegsKept.refl _ s).bump (by decide) (by decide) _).setFlag (by decide) (by decide) _ _).bump (by decide)
        (by decide) _⟩
  rw [heq]
  generalize hv : BitVec.ofNat 32 (nextSeq (s.reg .sumpTail 0).toNat) = v
  exact ⟨honly.kept.setReg (by decide) (by decide) v, hv ▸ reg_setReg_self t .sumpTail 0 v,
    (congrArg (fun x : State => { x with sump := s.sump, sumpIrq := s.sumpIrq }) honly.frame :)⟩

/-- The requests at the channels and the answers given are as they were. -/
structure QueuesKept (s t : State) : Prop where
  subs : t.subs = s.subs
  cisQ : t.cisQ = s.cisQ
  cisOut : t.cisOut = s.cisOut

namespace QueuesKept

variable {s t u : State}

theorem trans (h : s.QueuesKept t) (h' : t.QueuesKept u) : s.QueuesKept u :=
  ⟨h'.subs.trans h.subs, h'.cisQ.trans h.cisQ, h'.cisOut.trans h.cisOut⟩

theorem bump (h : s.QueuesKept t) (r : Reg) (i n : Nat) : s.QueuesKept (t.bump r i n) := ⟨h.subs, h.cisQ, h.cisOut⟩

theorem of_sumpRaised (h : SumpRaised s t) : s.QueuesKept t :=
  ⟨(congrArg State.subs h.frame :), (congrArg State.cisQ h.frame :), (congrArg State.cisOut h.frame :)⟩

theorem sub (h : s.QueuesKept t) (k : Nat) : t.sub k = s.sub k := congrArg (SMap.getD · k _) h.subs

end QueuesKept

theorem queuesKept_cisWrite {s : State} (hwf : s.cis.wf = true) (a : Nat) (bs : List Byte) (bad : Bool) :
    s.QueuesKept (s.cisWrite a bs bad) := by
  have hframe := (cisStored_cisWrite hwf a bs bad).frame
  exact ⟨(congrArg State.subs hframe :), (congrArg State.cisQ hframe :), (congrArg State.cisOut hframe :)⟩

/-- A counter rises beside bytes that were stored. -/
theorem CisStored.frame_bump {s t : State} {a : Nat} {bs : List Byte} (h : s.CisStored t a bs) (r : Reg) (i : Nat) :
    { t.bump r i 1 with cis := s.cis, cisKey := s.cisKey, cisPoison := s.cisPoison } = s.bump r i 1 :=
  (congrArg (State.bump · r i 1) h.frame :)

/-- The state after an access of working memory is read: a corrected one is written back, and one that cannot be corrected is
written back poisoned and reported. -/
def afterRead (s : State) (ch off a : Nat) (got : Verdict × List Byte) : State :=
  match got.1 with
  | .clean | .poison => s
  | .corrected => (s.cisWrite a got.2).bump .chCe ch 1
  | .bad => ((s.cisWrite a got.2 true).bump .chUe ch 1).raise 0x06 ch .poison 0x02 none 0 (off / 64 * 64) (off / 64 % 2)

/-
Whether an access lies in working memory is a condition on numbers of 2^30 and more, which the kernel must not evaluate. The
definitions that match on `workAddr` are therefore unfolded as functions, by `delta`: their equations for arguments would make the
kernel compare two matches, and evaluate what they match on.
-/

section Access

variable {s : State} {ch off a : Nat} {err : AccessErr}

theorem storeAccess_work (ha : s.workAddr ch (off / 64 * 64) = some a) (bs : List Byte) (poison : Bool) :
    s.storeAccess ch off bs poison = s.cisWrite a bs poison := by
  conv in storeAccess => delta storeAccess
  rw [ha]

theorem writeAccess_whole (ha : s.workAddr ch (off / 64 * 64) = some a) {bs : List Byte} (hoff : off % 64 = 0)
    (hlen : bs.length = 64) : s.writeAccess ch off bs err = s.cisWrite a bs false := by
  have htake : bs.take (64 - off % 64) = bs := List.take_of_length_le (by omega)
  conv in writeAccess => delta writeAccess
  extract_lets cut
  rw [if_pos ((congrArg List.length htake).trans hlen), storeAccess_work ha]
  exact congrArg (s.cisWrite a · false) htake

theorem readAccess_work (ha : s.workAddr ch (off / 64 * 64) = some a) : s.readAccess ch off err =
    (s.afterRead ch off a (s.accessRead a err), (s.accessRead a err).2,
      decide ((s.accessRead a err).1 = .poison ∨ (s.accessRead a err).1 = .bad)) := by
  have hstored : s.storedAccess ch off = (s, (s.cisRead a 64).1, (s.cisRead a 64).2) := by
    conv in storedAccess => delta storedAccess
    rw [ha]
  conv in readAccess => delta readAccess
  rw [hstored]
  unfold accessRead
  dsimp only
  generalize decodeAccess _ = got
  obtain ⟨v, d⟩ := got
  cases v <;> simp [afterRead, storeAccess_work ha]

/-- An access that the code finds whole, poisoned or not, is left as it is (R240). -/
theorem afterRead_whole {got : Verdict × List Byte} (h : got.1 = .clean ∨ got.1 = .poison) : s.afterRead ch off a got = s := by
  rcases h with h | h <;> simp only [afterRead, h]

/-- A corrected access is written back and counted (R239). -/
theorem afterRead_corrected (hwf : s.cis.wf = true) {got : Verdict × List Byte} (h : got.1 = .corrected) :
    s.Stored (s.afterRead ch off a got) a got.2 ∧
    { s.afterRead ch off a got with cis := s.cis, cisKey := s.cisKey, cisPoison := s.cisPoison } = s.bump .chCe ch 1 := by
  have hput := cisStored_cisWrite hwf a got.2 false
  have hafter : s.afterRead ch off a got = (s.cisWrite a got.2).bump .chCe ch 1 := by simp only [afterRead, h]
  rw [hafter]
  exact ⟨hput.stored, hput.frame_bump ..⟩

/-- An access that cannot be corrected is written back poisoned, and a sump entry takes the next number (R241). -/
theorem afterRead_bad (hwf : s.cis.wf = true) (hch : ch < 48) {got : Verdict × List Byte} (h : got.1 = .bad)
    (hlen : got.2.length = 64) :
    (s.afterRead ch off a got).cisPoison.contains (a / 64) = true ∧
    (s.afterRead ch off a got).reg .sumpTail 0 = BitVec.ofNat 32 (nextSeq (s.reg .sumpTail 0).toNat) := by
  have hput := cisStored_cisWrite hwf a got.2 true
  have hraised := sumpRaised_raise ((s.cisWrite a got.2 true).bump .chUe ch 1) 0x06 ch .poison 0x02 none 0 (off / 64 * 64)
    (off / 64 % 2) 1 0
  have hafter : s.afterRead ch off a got = ((s.cisWrite a got.2 true).bump .chUe ch 1).raise 0x06 ch .poison 0x02 none 0
    (off / 64 * 64) (off / 64 % 2) := by simp only [afterRead, h]
  rw [← hafter] at hraised
  constructor
  · have hmarked : a / 64 ∈ (s.cisWrite a got.2 true).cisPoison := by
      rw [cisPoison_cisWrite]
      exact mem_clearGranules_marked (.inr (granule_of_byte le_rfl (by omega)))
    have hkept : (s.afterRead ch off a got).cisPoison = (s.cisWrite a got.2 true).cisPoison :=
      (congrArg State.cisPoison hraised.frame :)
    rw [hkept]
    simpa using hmarked
  · have hregs : (s.cisWrite a got.2 true).regs = s.regs := (congrArg State.regs hput.frame :)
    have hkept : RegsKept [.chUe] s ((s.cisWrite a got.2 true).bump .chUe ch 1) :=
      (RegsKept.of_regs hregs).bump (by decide) (by omega) 1
    rw [hraised.tail, hkept .sumpTail 0 (by decide) (by decide)]

theorem queuesKept_afterRead (hwf : s.cis.wf = true) (got : Verdict × List Byte) : s.QueuesKept (s.afterRead ch off a got) := by
  obtain ⟨v, d⟩ := got
  cases v with
  | clean => exact ⟨rfl, rfl, rfl⟩
  | poison => exact ⟨rfl, rfl, rfl⟩
  | corrected => exact (queuesKept_cisWrite hwf a d false).bump ..
  | bad => exact ((queuesKept_cisWrite hwf a d true).bump ..).trans (.of_sumpRaised (sumpRaised_raise ..))

end Access

theorem acceptReq_read {s t : State} {ch : Nat} {r : CisReq} {d : List Byte} {bad : Bool} (hr : r.data = none)
    (h : s.readAccess ch r.off r.err = (t, d, bad)) :
    s.acceptReq ch r = t.setSub (subOf ch r.off) { t.sub (subOf ch r.off) with
      reads := (t.sub (subOf ch r.off)).reads ++ [⟨r.off / 64 * 64, d, bad⟩] } := by
  unfold acceptReq
  rw [hr, h]

theorem acceptReq_write {s t : State} {ch : Nat} {r : CisReq} {bs : List Byte} (hr : r.data = some bs)
    (h : s.writeAccess ch r.off bs r.err = t) :
    s.acceptReq ch r = t.setSub (subOf ch r.off) { t.sub (subOf ch r.off) with
      writes := (t.sub (subOf ch r.off)).writes ++ [r.off]
      writing := (t.sub (subOf ch r.off)).writing || decide (32 ≤ ((t.sub (subOf ch r.off)).writes ++ [r.off]).length) } := by
  subst h
  unfold acceptReq
  rw [hr]

end State

/-! ### Requests (R239 to R241, R243, R250) -/

section Request

variable {s : State} {ch : Fin 48} {off : Nat} {err : AccessErr}
variable (hready : s.cisReady = true) (hreset : s.inReset 6 ch.val = false) (hq : s.cisQ.getD ch.val [] = [])
  (hroom : s.outstanding ch.val < 256)

include hready hreset hq hroom

/-- A channel with room and nothing waiting outside accepts a request, and its sub-channel serves one (R250). -/
theorem exec_cisternRequest_accepted (data : Option (List Byte)) : exec (.cisternRequest ch off data err) s =
    .next (serveSub (subOf ch.val off) (s.acceptReq ch.val ⟨off, data, err⟩)) := by
  have hfull : ¬256 ≤ s.outstanding ch.val := by omega
  change execCisternRequest ch off data err s = _
  unfold execCisternRequest
  rw [hready, hreset, hq, decide_eq_false hfull]
  rfl

variable (hturn : (s.sub (subOf ch.val off)).writing = false) (hreads : (s.sub (subOf ch.val off)).reads = [])
  {a : Nat} (ha : s.workAddr ch.val (off / 64 * 64) = some a) (hwf : s.cis.wf = true)

include hturn hreads ha hwf

/-- A write of a whole access is stored, and waits in a queue that is not yet full (R251). -/
theorem exec_cisternRequest_write {bs : List Byte} (hoff : off % 64 = 0) (hlen : bs.length = 64)
    (hfew : (s.sub (subOf ch.val off)).writes.length < 31) : exec (.cisternRequest ch off (some bs) err) s =
      .next ((s.cisWrite a bs).setSub (subOf ch.val off) { s.sub (subOf ch.val off) with
        writes := (s.sub (subOf ch.val off)).writes ++ [off] }) := by
  have hkept := queuesKept_cisWrite hwf a bs false
  have hstays : ((s.sub (subOf ch.val off)).writing ||
      decide (32 ≤ ((s.sub (subOf ch.val off)).writes ++ [off]).length)) = (s.sub (subOf ch.val off)).writing := by
    rw [hturn, Bool.false_or, decide_eq_false_iff_not, List.length_append, List.length_singleton]
    omega
  rw [exec_cisternRequest_accepted hready hreset hq hroom,
    acceptReq_write (r := ⟨off, some bs, err⟩) rfl (writeAccess_whole ha hoff hlen), hkept.sub, hstays, serveSub_idle]
  · rw [subOf_div]
    exact (congrArg (SMap.getD · ch.val []) hkept.cisQ).trans hq
  · rwa [sub_setSub_self]
  · rwa [sub_setSub_self]

/-- A read is answered at once with what the code makes of the access (R239 to R241). -/
theorem exec_cisternRequest_read : ∃ m, exec (.cisternRequest ch off none err) s =
    .next { s.afterRead ch.val off a (s.accessRead a err) with
      subs := m
      cisOut := s.cisOut ++ [(ch.val, ⟨off / 64 * 64, (s.accessRead a err).2,
        decide ((s.accessRead a err).1 = .poison ∨ (s.accessRead a err).1 = .bad)⟩)] } := by
  have hkept := queuesKept_afterRead (ch := ch.val) (off := off) (a := a) hwf (s.accessRead a err)
  have hread := readAccess_work (err := err) ha
  generalize s.afterRead ch.val off a (s.accessRead a err) = u at hkept hread ⊢
  have hqu : u.cisQ.getD (subOf ch.val off / 2) [] = [] := by rw [subOf_div, hkept.cisQ, hq]
  rw [← hkept.sub] at hturn hreads
  obtain ⟨m, hserved⟩ := serveSub_answers
    (x := { u.sub (subOf ch.val off) with reads := (u.sub (subOf ch.val off)).reads ++ [⟨off / 64 * 64, _, _⟩] })
    hqu hturn (by rw [hreads]; rfl)
  rw [subOf_div, hkept.cisOut] at hserved
  exact ⟨m, by rw [exec_cisternRequest_accepted hready hreset hq hroom,
    acceptReq_read (r := ⟨off, none, err⟩) rfl hread, hserved]⟩

end Request

/-! ### The drain of writes and the patrol scrub (R242, R251) -/

section Drain

variable {s : State} {ch : Fin 48} {sub : Fin 2}

theorem exec_writeTurnTimeout_idle (h : (s.sub (2 * ch.val + sub.val)).writes = []) :
    exec (.writeTurnTimeout ch sub) s = .next s := by
  change execWriteTurnTimeout ch sub s = _
  unfold execWriteTurnTimeout
  extract_lets k x
  rw [show x.writes = [] from h]
  rfl

/-- A sub-channel turned by a write that has waited serves its first write (R251). -/
theorem exec_writeTurnTimeout_serves (hreset : s.inReset 6 ch.val = false) (hq : s.cisQ.getD ch.val [] = []) {w : Nat}
    {ws : List Nat} (h : (s.sub (2 * ch.val + sub.val)).writes = w :: ws) : exec (.writeTurnTimeout ch sub) s =
      .next ((s.setSub (2 * ch.val + sub.val) { s.sub (2 * ch.val + sub.val) with writing := true }).setSub
        (2 * ch.val + sub.val) { s.sub (2 * ch.val + sub.val) with writes := ws, writing := !ws.isEmpty }) := by
  have hdiv : (2 * ch.val + sub.val) / 2 = ch.val := by omega
  change execWriteTurnTimeout ch sub s = _
  unfold execWriteTurnTimeout
  extract_lets k x
  have hx : x.writes = w :: ws := h
  have hserve := serveSub_write (s := s.setSub k { x with writing := true }) (k := k) (by rw [hdiv]; exact hq)
    (by rw [sub_setSub_self])
  rw [sub_setSub_self, hx] at hserve
  rw [hx, hreset]
  exact congrArg Host.Outcome.next hserve

end Drain

theorem exec_patrolScrub_off {s : State} (err : AccessErr) (h : s.flag .cisScrubCfg 0 8 = false) :
    exec (.patrolScrub err) s = .next s := by
  change execPatrolScrub err s = _
  unfold execPatrolScrub
  rw [h]
  rfl

theorem setReg_scrubPos_frame (u : State) (n : Nat) (r : Reg) (i : Nat) (v : Word) :
    { ({ u with scrubPos := n } : State).setReg r i v with scrubPos := u.scrubPos, regs := u.regs } = u := rfl

/-- The scrub reads the next access, handles its error and goes on (R242). -/
theorem exec_patrolScrub_reads {s : State} (err : AccessErr) (hready : s.cisReady = true) (h : s.flag .cisScrubCfg 0 8 = true)
    (hreset : s.inReset 6 (s.scrubPos / 2 ^ 29) = false)
    (hreads : (s.sub (subOf (s.scrubPos / 2 ^ 29) (s.scrubPos % 2 ^ 29 * 64))).reads = []) :
    ∃ v, exec (.patrolScrub err) s = .next (State.setReg
      { (s.readAccess (s.scrubPos / 2 ^ 29) (s.scrubPos % 2 ^ 29 * 64) err).1 with
        scrubPos := (s.scrubPos + 1) % (48 * 2 ^ 29) } .cisScrubPass 0 v) := by
  change ∃ v, execPatrolScrub err s = _
  unfold execPatrolScrub
  extract_lets c o total s1 pos passes
  rw [h, hready, hreset, hreads]
  exact ⟨_, rfl⟩

/-! ### Statements that hold -/

/-- Settles O32: a request is accepted and, while its sub-channel reads, a write joins the writes and a read is answered; what a
read leaves follows from the verdict of the code. -/
theorem cisternAccesses : Obligations.CisternAccesses := by
  unfold Obligations.CisternAccesses
  intro ch off err s hready hreset hq k
  refine ⟨fun hroom hturn hreads a ha _ hwf => ⟨fun bs hoff hlen hfew => ?write, ?read⟩,
    fun sub => ⟨exec_writeTurnTimeout_idle, fun w ws hws => ?drain⟩, exec_patrolScrub_off err, fun hon => ?scrub⟩
  case write =>
    have hput := cisStored_cisWrite hwf a bs false
    exact ⟨_, exec_cisternRequest_write hready hreset hq hroom hturn hreads ha hwf hoff hlen hfew, hput.stored,
      congrArg SubChan.writes (sub_setSub_self ..), (congrArg (fun t : State => { t with subs := s.subs }) hput.frame :)⟩
  case read =>
    obtain ⟨m, hread⟩ := exec_cisternRequest_read (err := err) hready hreset hq hroom hturn hreads ha hwf
    have hwhole := afterRead_whole (s := s) (ch := ch.val) (off := off) (a := a) (got := s.accessRead a err)
    have hcorrected := afterRead_corrected (ch := ch.val) (off := off) (a := a) hwf (got := s.accessRead a err)
    have hbad := fun h => afterRead_bad (off := off) (a := a) hwf ch.isLt (got := s.accessRead a err) h (length_accessRead ..)
    generalize s.afterRead ch.val off a (s.accessRead a err) = u at *
    refine ⟨_, hread, rfl, fun h => ?_, fun h => ?_, hbad⟩
    · rw [hwhole h]
    · obtain ⟨hstored, hframe⟩ := hcorrected h
      exact ⟨hstored, (congrArg (fun t : State => { t with cisOut := s.cisOut, subs := s.subs }) hframe :)⟩
  case drain =>
    refine ⟨_, exec_writeTurnTimeout_serves hreset hq hws, sub_setSub_self .., fun j hj => ?_,
      setSub_frame (setSub_frame rfl _ _) _ _⟩
    rw [sub_setSub_ne _ _ hj, sub_setSub_ne _ _ hj]
  case scrub =>
    intro c o hscrub hidle
    obtain ⟨v, hv⟩ := exec_patrolScrub_reads err hready hon hscrub hidle
    exact ⟨_, hv, rfl, setReg_scrubPos_frame ..⟩

end Sys2Proof.Machine

/-!
PROOFS. The well, shared: its halves and flags under updates, what the log, a move and the tables change of a half, and what a
half's work changes of the state.
-/

namespace Sys2Proof.Machine

open State

/-! ### Halves and flags (R263, R269, R281) -/

namespace State

@[simp] theorem well_setWell_self (s : State) (h : Nat) (w : Well) : (s.setWell h w).well h = w := SMap.getD_set_self ..

theorem well_setWell_ne (s : State) {g h : Nat} (w : Well) (hg : g ≠ h) : (s.setWell h w).well g = s.well g :=
  SMap.getD_set_ne _ _ _ hg

theorem setWell_setWell (s : State) (h : Nat) (w v : Well) : (s.setWell h w).setWell h v = s.setWell h v := by
  simp only [setWell, SMap.set_set]

theorem modWell_setWell (s : State) (h : Nat) (w : Well) (f : Well → Well) : (s.setWell h w).modWell h f = s.setWell h (f w) := by
  rw [modWell, well_setWell_self, setWell_setWell]

theorem flag_setFld_apart (s : State) (r : Reg) (i x : Nat) {hi lo b : Nat} (h : lo ≤ hi) (hb : b < lo ∨ hi < b) :
    (s.setFld r i hi lo x).flag r i b = s.flag r i b := by
  rw [flag, setFld, reg_setReg_self, BitVec.getLsbD_ofNat, testBit_setBits _ _ _ h, if_neg (by omega), flag, ← BitVec.getLsbD,
    Bool.and_eq_right_iff_imp]
  exact fun hlt => decide_eq_true (BitVec.lt_of_getLsbD hlt)

theorem flag_setFlag_apart (s : State) (r : Reg) (i : Nat) (x : Bool) {a b : Nat} (hab : b ≠ a) :
    (s.setFlag r i a x).flag r i b = s.flag r i b := flag_setFld_apart s r i _ le_rfl (by omega)

/-- The fields of a register stay while another is set. -/
theorem flag_setReg_other (s : State) {r q : Reg} (h : q ≠ r) (i b : Nat) (v : Word) :
    (s.setReg r i v).flag q i b = s.flag q i b := by
  rw [flag, reg_setReg_other s h, flag]

end State

namespace Well

/-! ### What a write to the log changes (R257, R260, R264, R266) -/

/-- `v` is `w` after codewords went to the log: the flash and what points into it differ, and the map with its changes only when
data is among them. -/
structure Logs (data : Prop) (w v : Well) : Prop where
  frame : { v with
    map := w.map, pend := w.pend, touched := w.touched, mapAt := w.mapAt, jourAt := w.jourAt, sysAt := w.sysAt, cells := w.cells
    parity := w.parity, blocks := w.blocks, stripes := w.stripes, opened := w.opened, nextStripe := w.nextStripe, seq := w.seq
    programmed := w.programmed } = w
  tables : ¬ data → v.map = w.map ∧ v.pend = w.pend ∧ v.touched = w.touched

namespace Logs

variable {data data' : Prop} {w v u : Well}

theorem refl (data : Prop) (w : Well) : Logs data w w := ⟨rfl, fun _ => ⟨rfl, rfl, rfl⟩⟩

theorem trans (h : Logs data w v) (h' : Logs data v u) : Logs data w u where
  frame := (congrArg (fun x : Well => { x with
    map := w.map, pend := w.pend, touched := w.touched, mapAt := w.mapAt, jourAt := w.jourAt, sysAt := w.sysAt, cells := w.cells
    parity := w.parity, blocks := w.blocks, stripes := w.stripes, opened := w.opened, nextStripe := w.nextStripe, seq := w.seq
    programmed := w.programmed }) h'.frame).trans h.frame
  tables hd := by
    obtain ⟨hmap, hpend, htouched⟩ := h.tables hd
    obtain ⟨hmap', hpend', htouched'⟩ := h'.tables hd
    exact ⟨hmap'.trans hmap, hpend'.trans hpend, htouched'.trans htouched⟩

theorem mono (h : Logs data w v) (hd : data → data') : Logs data' w v := ⟨h.frame, fun hn => h.tables fun hdata => hn (hd hdata)⟩

theorem foldl {α : Type} {f : Well → α → Well} (l : List α) (hf : ∀ v, ∀ x ∈ l, Logs data v (f v x)) (w : Well) :
    Logs data w (l.foldl f w) :=
  List.foldlRecOn (motive := fun v => Logs data w v) l f (refl data w) fun v hv x hx => hv.trans (hf v x hx)

theorem put (w : Well) (pca : Nat) (e : Codeword) : Logs (e.1 = 0) w (w.put pca e) := by
  obtain ⟨kind, n, d⟩ := e
  unfold Well.put
  dsimp only
  split
  · exact ⟨rfl, fun hd => absurd rfl hd⟩
  all_goals exact ⟨rfl, fun _ => ⟨rfl, rfl, rfl⟩⟩

theorem setBlk (data : Prop) (w : Well) (b : Nat) (x : Blk) : Logs data w (w.setBlk b x) := ⟨rfl, fun _ => ⟨rfl, rfl, rfl⟩⟩

theorem putParity (data : Prop) (w : Well) (h n page : Nat) : Logs data w (w.putParity h n page) := by
  unfold Well.putParity
  split
  · exact refl data w
  · exact ⟨rfl, fun _ => ⟨rfl, rfl, rfl⟩⟩

theorem openSet (data : Prop) {worn : Bool} (h : w.openSet worn = some v) : Logs data w v := by
  unfold Well.openSet at h
  obtain ⟨⟨g, d⟩, -, rfl⟩ := Option.map_eq_some_iff.mp h
  dsimp only
  refine trans (v := d.zipIdx.foldl _ w) (foldl _ (fun u xp _ => ?_) w) ⟨rfl, fun _ => ⟨rfl, rfl, rfl⟩⟩
  exact (foldl _ (fun t cb _ => setBlk data t _ _) u).trans ⟨rfl, fun _ => ⟨rfl, rfl, rfl⟩⟩

theorem program (w : Well) (h : Nat) (es : List Codeword) : Logs (∃ e ∈ es, e.1 = 0) w (w.program h es) := by
  unfold Well.program
  extract_lets w1 w2 w3
  have hputs : Logs (∃ e ∈ es, e.1 = 0) w w1 :=
    foldl _ (fun t x hx => (put t x.1 x.2).mono fun hkind => ⟨x.2, (List.of_mem_zip hx).2, hkind⟩) w
  have hparity : Logs (∃ e ∈ es, e.1 = 0) w1 w2 :=
    foldl _ (fun t page _ => foldl _ (fun u n _ => putParity _ u h n page) t) w1
  have hpos : Logs (∃ e ∈ es, e.1 = 0) w2 w3 := by
    refine foldl _ (fun t n _ => ?_) w2
    exact ⟨rfl, fun _ => ⟨rfl, rfl, rfl⟩⟩
  exact ((hputs.trans hparity).trans hpos).trans ⟨rfl, fun _ => ⟨rfl, rfl, rfl⟩⟩

theorem place (h : Nat) (one : Bool) (n : Nat) : ∀ (w : Well) (es : List Codeword),
    Logs (∃ e ∈ es, e.1 = 0) w (w.place h one es n).1 := by
  induction n with
  | zero => exact fun w es => refl _ w
  | succ n ih =>
    intro w es
    unfold Well.place
    split
    · exact refl _ w
    · split
      · exact refl _ w
      · next w1 hw1 =>
        have hopen : Logs (∃ e ∈ es, e.1 = 0) w w1 := by
          split at hw1
          · cases hw1
            exact refl _ w
          · split at hw1
            · cases hw1
            · exact openSet _ hw1
        have htake : Logs (∃ e ∈ es, e.1 = 0) w1 (w1.program h (es.take w1.room)) :=
          (program w1 h _).mono fun ⟨e, he, hkind⟩ => ⟨e, List.mem_of_mem_take he, hkind⟩
        exact (hopen.trans htake).trans ((ih _ _).mono fun ⟨e, he, hkind⟩ => ⟨e, List.mem_of_mem_drop he, hkind⟩)

theorem log {h : Nat} {es : List Codeword} (hlog : w.log h es = some v) : Logs (∃ e ∈ es, e.1 = 0) w v := by
  unfold Well.log at hlog
  have hplace := place h false es.length w es
  dsimp only at hlog
  split at hlog
  · cases hlog
    exact hplace
  · cases hlog

end Logs

/-- Codewords of one kind that is not data leave the map. -/
theorem tables_log {w v : Well} {h kind : Nat} {es : List Codeword} (hlog : w.log h es = some v) (hes : ∀ e ∈ es, e.1 = kind)
    (hkind : kind ≠ 0) : v.map = w.map ∧ v.pend = w.pend ∧ v.touched = w.touched :=
  (Logs.log hlog).tables fun ⟨e, he, h0⟩ => hkind ((hes e he).symm.trans h0)

/-! ### What a move changes (R264, R267) -/

/-- `v` is `w` after moves: beside the log, stripe blocks wait for their erase, and the day's counts are kept. -/
structure Moves (w v : Well) : Prop where
  frame : { v with
    map := w.map, pend := w.pend, touched := w.touched, mapAt := w.mapAt, jourAt := w.jourAt, sysAt := w.sysAt, cells := w.cells
    parity := w.parity, blocks := w.blocks, stripes := w.stripes, opened := w.opened, nextStripe := w.nextStripe, seq := w.seq
    programmed := w.programmed, erasing := w.erasing, marks := w.marks } = w

namespace Moves

variable {data : Prop} {w v u : Well}

theorem refl (w : Well) : Moves w w := ⟨rfl⟩

theorem trans (h : Moves w v) (h' : Moves v u) : Moves w u :=
  ⟨(congrArg (fun x : Well => { x with
    map := w.map, pend := w.pend, touched := w.touched, mapAt := w.mapAt, jourAt := w.jourAt, sysAt := w.sysAt, cells := w.cells
    parity := w.parity, blocks := w.blocks, stripes := w.stripes, opened := w.opened, nextStripe := w.nextStripe, seq := w.seq
    programmed := w.programmed, erasing := w.erasing, marks := w.marks }) h'.frame).trans h.frame⟩

theorem of_logs (h : Logs data w v) : Moves w v :=
  ⟨(congrArg (fun x : Well => { x with erasing := w.erasing, marks := w.marks }) h.frame :)⟩

theorem mark (w : Well) (day : Nat) : Moves w (w.mark day) := by
  unfold Well.mark
  split <;> exact ⟨rfl⟩

section Fields

variable (h : Moves w v)

include h

theorem reads : v.reads = w.reads := (congrArg Well.reads h.frame :)
theorem arrived : v.arrived = w.arrived := (congrArg Well.arrived h.frame :)
theorem lost : v.lost = w.lost := (congrArg Well.lost h.frame :)

end Fields

end Moves

theorem moves_vacate {w v : Well} {h n : Nat} {worn : Bool} (hv : w.vacate h n worn = some v) : Moves w v := by
  unfold vacate at hv
  extract_lets es out closed w1 w2 at hv
  obtain ⟨w2', hw2, hbind⟩ := Option.bind_eq_some_iff.mp hv
  have hclose : Logs True w w1 := by
    unfold w1 closed close
    split <;> exact ⟨rfl, fun hd => absurd trivial hd⟩
  have hopen : Logs True w1 w2' := by
    unfold w2 at hw2
    split at hw2
    · exact Logs.trans (v := { w1 with opened := [] }) ⟨rfl, fun hd => absurd trivial hd⟩ (Logs.openSet True hw2)
    · cases hw2
      exact .refl _ w1
  have hplace := (Logs.place h worn es.length w2' es).mono fun _ => trivial
  dsimp only at hbind
  obtain ⟨w5, hlog, rfl⟩ := Option.map_eq_some_iff.mp hbind
  have hrest : Logs True (w2'.place h worn es es.length).1 w5 := by
    refine Logs.trans ?_ ((Logs.log hlog).mono fun _ => trivial)
    split
    · exact ⟨rfl, fun hd => absurd trivial hd⟩
    · exact .refl _ _
  have hlogs := ((hclose.trans hopen).trans hplace).trans hrest
  exact ⟨(congrArg (fun x : Well => { x with erasing := w.erasing, marks := w.marks }) hlogs.frame :)⟩

/-! ### The journal and the checkpoint (R266) -/

/-- A journal leaves the map, and is then complete. -/
theorem journal_spec {w v : Well} {h marker : Nat} (hv : w.journal h marker = some v) :
    v.map = w.map ∧ v.jmap = w.map ∧ v.pend = [] ∧ v.touched = w.touched := by
  obtain ⟨u, hlog, rfl⟩ := Option.map_eq_some_iff.mp hv
  obtain ⟨hmap, -, htouched⟩ := tables_log (kind := 2) hlog (fun e he => by
    obtain ⟨d, -, rfl⟩ := List.mem_map.mp he
    rfl) (by decide)
  exact ⟨hmap, hmap, rfl, htouched⟩

theorem kind_sysWords (c : Ckpt) : ∀ e ∈ sysWords c, e.1 = 3 := fun e he => by
  obtain ⟨d, -, rfl⟩ := List.mem_map.mp he
  rfl

/-- A checkpoint journals first, and then leaves the map. -/
theorem checkpoint_spec {w v : Well} {h : Nat} (hv : w.checkpoint h = some v) :
    v.map = w.map ∧ v.jmap = w.map ∧ v.pend = [] ∧ v.touched = [] := by
  unfold checkpoint at hv
  obtain ⟨w1, hjournal, hv⟩ := Option.bind_eq_some_iff.mp hv
  obtain ⟨w2, hpages, hv⟩ := Option.bind_eq_some_iff.mp hv
  obtain ⟨w3, hsys, rfl⟩ := Option.map_eq_some_iff.mp hv
  obtain ⟨hmap, hjmap, hpend, -⟩ := journal_spec hjournal
  obtain ⟨hmap1, hpend1, -⟩ := tables_log (kind := 1) hpages (fun e he => by
    obtain ⟨m, -, rfl⟩ := List.mem_map.mp he
    rfl) (by decide)
  obtain ⟨hmap2, hpend2, htouched2⟩ := tables_log hsys (kind_sysWords _) (by decide)
  have hjmap1 : w2.jmap = w1.jmap := (congrArg Well.jmap (Logs.log hpages).frame :)
  have hjmap2 : w3.jmap = w2.jmap := (congrArg Well.jmap (Logs.log hsys).frame :)
  exact ⟨hmap2.trans (hmap1.trans hmap), hjmap2.trans (hjmap1.trans hjmap), hpend2.trans (hpend1.trans hpend), htouched2⟩

end Well

/-! ### What a half's work changes (R269, R274) -/

namespace State

/-- `t` is `s` but for a half of the well, registers and the sump. -/
structure HalfOnly (s t : State) (h : Nat) : Prop where
  frame : { t with wells := s.wells, regs := s.regs, sump := s.sump, sumpIrq := s.sumpIrq } = s
  others : ∀ g, g ≠ h → t.well g = s.well g

namespace HalfOnly

variable {s t u : State} {h : Nat}

theorem refl (s : State) (h : Nat) : s.HalfOnly s h := ⟨rfl, fun _ _ => rfl⟩

theorem trans (h1 : s.HalfOnly t h) (h2 : t.HalfOnly u h) : s.HalfOnly u h :=
  ⟨(congrArg (fun x : State => { x with wells := s.wells, regs := s.regs, sump := s.sump, sumpIrq := s.sumpIrq }) h2.frame).trans
    h1.frame, fun g hg => (h2.others g hg).trans (h1.others g hg)⟩

theorem pages (hf : s.HalfOnly t h) : t.pages = s.pages := (congrArg State.pages hf.frame :)
theorem cis (hf : s.HalfOnly t h) : t.cis = s.cis := (congrArg State.cis hf.frame :)
theorem cores (hf : s.HalfOnly t h) : t.cores = s.cores := (congrArg State.cores hf.frame :)

/-- Pages, working memory, cores and the other halves stay. -/
theorem stays (hf : s.HalfOnly t h) :
    t.pages = s.pages ∧ t.cis = s.cis ∧ t.cores = s.cores ∧ ∀ g, g ≠ h → t.well g = s.well g :=
  ⟨hf.pages, hf.cis, hf.cores, hf.others⟩

theorem setReg (s : State) (r : Reg) (i : Nat) (v : Word) (h : Nat) : s.HalfOnly (s.setReg r i v) h := ⟨rfl, fun _ _ => rfl⟩

theorem setWell (s : State) (h : Nat) (w : Well) : s.HalfOnly (s.setWell h w) h := ⟨rfl, fun _ hg => well_setWell_ne s w hg⟩

theorem modWell (s : State) (h : Nat) (f : Well → Well) : s.HalfOnly (s.modWell h f) h := setWell ..

theorem of_sumpRaised (hr : SumpRaised s t) (h : Nat) : s.HalfOnly t h := by
  have hwells : t.wells = s.wells := (congrArg State.wells hr.frame :)
  exact ⟨(congrArg (fun x : State => { x with wells := s.wells }) hr.frame :), fun g _ => congrArg (SMap.getD · g Well.reset) hwells⟩

end HalfOnly

/-- What a half that enters READ_ONLY changes: its mode and the sump. -/
structure ModeOnly (s t : State) (h : Nat) : Prop where
  half : s.HalfOnly t h
  wells : t.wells = s.wells
  flags : ∀ b, 2 ≤ b → t.flag .whState h b = s.flag .whState h b

namespace ModeOnly

variable {s t u : State} {h : Nat}

theorem refl (s : State) (h : Nat) : s.ModeOnly s h := ⟨.refl s h, rfl, fun _ _ => rfl⟩

theorem trans (h1 : s.ModeOnly t h) (h2 : t.ModeOnly u h) : s.ModeOnly u h :=
  ⟨h1.half.trans h2.half, h2.wells.trans h1.wells, fun b hb => (h2.flags b hb).trans (h1.flags b hb)⟩

theorem well (hm : s.ModeOnly t h) (g : Nat) : t.well g = s.well g := congrArg (SMap.getD · g Well.reset) hm.wells

theorem setMode (s : State) (h x : Nat) : s.ModeOnly (s.setFld .whState h 1 0 x) h :=
  ⟨.setReg .., rfl, fun _ hb => flag_setFld_apart s _ _ _ (by decide) (by omega)⟩

theorem of_sumpRaised (hr : SumpRaised s t) (hh : h < 1048576) : s.ModeOnly t h :=
  ⟨.of_sumpRaised hr h, (congrArg State.wells hr.frame :), fun b _ => hr.kept.flag (by decide) hh b⟩

theorem readOnly {h : Nat} (hh : h < 1048576) (s : State) : s.ModeOnly (s.readOnly h) h := by
  unfold State.readOnly
  split
  · exact refl s h
  · exact (setMode s h 2).trans (of_sumpRaised (sumpRaised_raise ..) hh)

theorem checkFree {h : Nat} (hh : h < 1048576) (s : State) : s.ModeOnly (s.checkFree h) h := by
  unfold State.checkFree
  split
  · exact readOnly hh s
  · exact refl s h

end ModeOnly

/-! ### Writes of a half to its log -/

/-- The write counts of a day, as a half's first program of the day finds them (R267). -/
theorem mark_eq (w : Well) (day : Nat) : ∃ m, w.mark day = { w with marks := m } := by
  unfold Well.mark
  split
  · exact ⟨w.marks, rfl⟩
  · exact ⟨_, rfl⟩

@[simp] theorem map_mark (w : Well) (day : Nat) : (w.mark day).map = w.map := by
  obtain ⟨m, hm⟩ := mark_eq w day
  rw [hm]

variable {s t : State} {h : Nat} {f : Well → Option Well} {v : Well}

theorem logged_eq (hv : f ((s.well h).mark s.serviceDays) = some v) : s.logged h f = some ((s.setWell h v).checkFree h) := by
  rw [logged, hv, Option.map_some]

theorem logged_none (hv : f ((s.well h).mark s.serviceDays) = none) : s.logged h f = none := by rw [logged, hv, Option.map_none]

/-- The state of a half that wrote to its log. -/
theorem setWell_checkFree (hh : h < 1048576) (s : State) (v : Well) :
    ((s.setWell h v).checkFree h).well h = v ∧ s.HalfOnly ((s.setWell h v).checkFree h) h ∧
      ∀ b, 2 ≤ b → ((s.setWell h v).checkFree h).flag .whState h b = s.flag .whState h b := by
  have hmode := ModeOnly.checkFree hh (s.setWell h v)
  exact ⟨(hmode.well h).trans (well_setWell_self ..), (HalfOnly.setWell s h v).trans hmode.half, hmode.flags⟩

/-- A half that does not defer programs writes to its log, or is left as it is. -/
theorem tryLog_spec (hh : h < 1048576) (hcool : s.defers h = false) (f : Well → Option Well) :
    (s.tryLog h f).well h = (f ((s.well h).mark s.serviceDays)).getD (s.well h) ∧ s.HalfOnly (s.tryLog h f) h ∧
      ∀ b, 2 ≤ b → (s.tryLog h f).flag .whState h b = s.flag .whState h b := by
  rw [tryLog, hcool, if_neg Bool.false_ne_true]
  cases hv : f ((s.well h).mark s.serviceDays) with
  | none =>
    rw [logged_none hv]
    exact ⟨rfl, .refl s h, fun _ _ => rfl⟩
  | some v =>
    rw [logged_eq hv]
    exact setWell_checkFree hh s v

end State

end Sys2Proof.Machine

/-!
PROOFS. The statements of the well: requests and upkeep (O34).
-/

namespace Sys2Proof.Machine

open State

/-! ### Requests (R262, R263, R265, R269, R281, R446) -/

/-- The first request in line is the next of its kind. -/
theorem nextReq_head {f : WellReq → Bool} {r : WellReq} (hf : f r = true) (rest : List WellReq) :
    nextReq (r :: rest) f = some r := by
  simp [nextReq, hf]

namespace State

theorem dropReq_head {s : State} {h : Nat} {r : WellReq} {rest : List WellReq} (hreqs : (s.well h).reqs = r :: rest) :
    s.dropReq h r = s.setWell h { s.well h with reqs := rest } := by
  rw [dropReq, modWell, hreqs, List.erase_cons_head]

/-- The half after the first request in line has been answered. -/
def reqAnswered (s : State) (h : Nat) (rest : List WellReq) (x : Nat × Code × List Byte) : State :=
  s.setWell h { s.well h with reqs := rest, arrived := (s.well h).arrived ++ [x] }

end State

section Read

variable {s : State} {h : Fin 2} {lpn : Nat} {rest : List WellReq} (hreqs : (s.well h.val).reqs = .read lpn :: rest)

include hreqs

theorem answer_dropReq (code : Code) (d : List Byte) :
    (s.dropReq h.val (.read lpn)).answer h.val lpn code d = s.reqAnswered h.val rest (lpn, code, d) := by
  rw [dropReq_head hreqs, answer, modWell_setWell]
  rfl

theorem exec_wellRead_shut (hshut : s.wellShut = true) :
    exec (.wellRead h) s = .next (s.reqAnswered h.val rest (lpn, .state, [])) := by
  change execWellRead h s = _
  simp only [execWellRead, hreqs, nextReq_head, hshut, if_true]
  rw [answer_dropReq hreqs]

variable (hshut : s.wellShut = false) (hup : s.wellUp = true)

include hshut hup

theorem exec_wellRead_lost (hlost : (s.well h.val).lost.contains lpn = true) :
    exec (.wellRead h) s = .next (s.reqAnswered h.val rest (lpn, .media, [])) := by
  change execWellRead h s = _
  simp only [execWellRead, hreqs, nextReq_head, hshut, hup, hlost, Bool.not_true, Bool.false_eq_true, if_false, if_true]
  rw [answer_dropReq hreqs]

variable (hkept : (s.well h.val).lost.contains lpn = false)

include hkept

theorem exec_wellRead_quick {d : List Byte} (hquick : (s.well h.val).quick lpn = some d) :
    exec (.wellRead h) s = .next (s.reqAnswered h.val rest (lpn, .ok, d)) := by
  change execWellRead h s = _
  simp only [execWellRead, hreqs, nextReq_head, hshut, hup, hkept, hquick, Bool.not_true, Bool.false_eq_true, if_false]
  rw [answer_dropReq hreqs]

/-- A page in flash is read there; whether its map page was cached is drawn, and counted (R262). -/
theorem exec_wellRead_flash (hquick : (s.well h.val).quick lpn = none) : ∃ t, exec (.wellRead h) s = .next t ∧
    t.well h.val = { s.well h.val with
      reqs := rest, reads := (s.well h.val).reads ++ [(s.well h.val).readOf lpn ((s.well h.val).map.getD lpn 0)] } ∧
    { t with wells := s.wells, regs := s.regs, free := s.free } = s := by
  change ∃ t, execWellRead h s = _ ∧ _
  simp only [execWellRead, hreqs, nextReq_head, hshut, hup, hkept, hquick, Bool.not_true, Bool.false_eq_true, if_false,
    dropReq_head hreqs]
  refine ⟨_, rfl, ?_, ?_⟩
  · rw [modWell, well_setWell_self]
    split <;> exact congrArg (fun w : Well => { w with reads := w.reads ++ [w.readOf lpn (w.map.getD lpn 0)] })
      (well_setWell_self s h.val { s.well h.val with reqs := rest })
  · split <;> rfl

end Read

section Ack

variable {s : State} {id : Nat}

theorem ackPage_frame (s : State) (id : Nat) : { s.ackPage id with pages := s.pages } = s := by
  unfold ackPage
  split <;> rfl

theorem page_ackPage {p : Page} (hp : s.page id = some p) : (s.ackPage id).page id =
    some { p with writing := false, dirty := p.again, again := none, above := false } := by
  unfold State.page at hp
  simp only [ackPage, hp]
  exact SMap.get?_set_self ..

theorem quiet_ackPage (hq : Quiet s) (id : Nat) : Quiet (s.ackPage id) := by
  unfold ackPage
  split
  · exact hq
  · next p hp =>
    obtain ⟨hparts, hadds, hdue, hrepacks, hswept, hhots, hrun⟩ := hq
    refine ⟨hparts, hadds, hdue, hrepacks, fun kv hkv => ?_, hhots, hrun⟩
    rcases SMap.mem_set hkv with rfl | hkv
    · exact hswept (id, p) (SMap.mem_of_get? hp)
    · exact hswept kv hkv

/-- With nothing that waits, an acknowledged WRITE changes its page alone. -/
theorem acked_quiet (hq : Quiet s) (h id : Nat) : acked h [id] s = s.ackPage id := by
  have hquiet := quiet_ackPage hq id
  change lcAdvance none (pumpDie h none (s.ackPage id)) = _
  rw [pumpDie_quiet hquiet]
  obtain ⟨-, -, -, -, -, -, hrun⟩ := hquiet
  rw [lcAdvance, hrun]

/-- A refused WRITE leaves its page dirty, and its tokens come back (R234). -/
theorem refusePage_spec {p : Page} (hp : s.page id = some p) :
    (s.refusePage id).page id = some { p with writing := false, again := none, above := false } ∧
    (s.refusePage id).tokens = s.tokens + 4320 * 2048 := by
  unfold State.page at hp
  simp only [refusePage, hp]
  split <;> exact ⟨SMap.get?_set_self .., rfl⟩

theorem wells_refusePage (s : State) (id : Nat) : (s.refusePage id).wells = s.wells := by
  unfold refusePage
  split
  · rfl
  · dsimp only
    split <;> rfl

end Ack

section Write

/-- The half after its first request, a WRITE, has entered the buffer. -/
def State.reqBuffered (s : State) (h : Nat) (rest : List WellReq) (lpn page : Nat) (data : List Byte) : State :=
  s.setWell h { s.well h with
    reqs := rest, buf := (s.well h).buf ++ [⟨lpn, page, data, s.holdupOk⟩], lost := setErase (s.well h).lost lpn }

variable {s : State} {h : Fin 2}

/-- A half takes a WRITE: it serves, its buffer has room, and it does not defer programs. -/
theorem wellWrite_taken (hup : s.wellUp = true) (hshut : s.wellShut = false) (hbuf : (s.well h.val).buf.length < 12288)
    (hcool : s.defers h.val = false) :
    (!s.wellUp || s.wellShut || decide (12288 ≤ (s.well h.val).buf.length) || s.nandHot.contains h.val) = false := by
  have hcool' : s.nandHot.contains h.val = false := hcool
  have hfew : decide (12288 ≤ (s.well h.val).buf.length) = false := decide_eq_false (by omega)
  rw [hup, hshut, hcool', hfew]
  rfl

variable {lpn page : Nat} {data : List Byte} {rest : List WellReq} (hreqs : (s.well h.val).reqs = .write lpn page data :: rest)

include hreqs

theorem exec_wellWrite_waits (hhot : s.defers h.val = true) : exec (.wellWrite h) s = .next s := by
  have hhot' : s.nandHot.contains h.val = true := hhot
  change execWellWrite h s = _
  simp only [execWellWrite, hreqs, nextReq_head, hhot', Bool.or_true, if_true]

variable (hup : s.wellUp = true) (hshut : s.wellShut = false) (hbuf : (s.well h.val).buf.length < 12288)
  (hcool : s.defers h.val = false)

include hup hshut hbuf hcool

theorem exec_wellWrite_buffers (hmode : s.wellMode h.val ≠ 2)
    (hroom : ((s.well h.val).map.get? lpn).isSome = true ∨ (s.well h.val).map.length < 5859375000) :
    exec (.wellWrite h) s =
      .next (acked h.val (if s.holdupOk then [page] else []) (s.reqBuffered h.val rest lpn page data)) := by
  have hfits : ((s.well h.val).map.get? lpn).isNone = true → ¬ 5859375000 ≤ (s.well h.val).map.length := by
    intro hnone
    rcases hroom with hsome | hroom
    · rw [Option.isNone_iff_eq_none.mp hnone] at hsome
      cases hsome
    · omega
  change execWellWrite h s = _
  simp only [execWellWrite, hreqs, nextReq_head, wellWrite_taken hup hshut hbuf hcool, Bool.false_eq_true, if_false, hmode,
    Bool.and_eq_true, decide_eq_true_eq]
  rw [if_neg fun hfull => hfits hfull.1 hfull.2, dropReq_head hreqs, modWell_setWell]
  rfl

theorem exec_wellWrite_refuses (hmode : s.wellMode h.val = 2) :
    exec (.wellWrite h) s = .next ((s.setWell h.val { s.well h.val with reqs := rest }).refusePage page) := by
  change execWellWrite h s = _
  simp only [execWellWrite, hreqs, nextReq_head, wellWrite_taken hup hshut hbuf hcool, Bool.false_eq_true, if_false, hmode,
    if_true]
  rw [dropReq_head hreqs]

end Write

/-- A half without an LPN. -/
def Well.trimmed (w : Well) (rest : List WellReq) (lpn : Nat) : Well := { w with
  reqs := rest
  map := w.map.erase lpn
  pend := w.pend ++ [(lpn, none)]
  touched := setInsert w.touched (lpn / 256)
  buf := w.buf.filter (·.lpn != lpn)
  lost := setErase w.lost lpn
  lpnFree := w.lpnFree ++ [lpn] }

theorem exec_wellTrim {s : State} {h : Fin 2} {lpn : Nat} {rest : List WellReq}
    (hreqs : (s.well h.val).reqs = .trim lpn :: rest) (hup : s.wellUp = true) (hshut : s.wellShut = false) :
    ∃ t, exec (.wellTrim h) s = .next t ∧ t.well h.val = (s.well h.val).trimmed rest lpn ∧
      { t with wells := s.wells, regs := s.regs } = s := by
  change ∃ t, execWellTrim h s = _ ∧ _
  simp only [execWellTrim, hreqs, nextReq_head, hup, hshut, Bool.not_true, Bool.or_false, Bool.false_eq_true, if_false,
    dropReq_head hreqs, modWell_setWell]
  refine ⟨_, rfl, ?_, ?_⟩
  · split <;> exact well_setWell_self ..
  · split <;> rfl

/-! ### Reclaim and wear levelling (R264, R266, R267, R446) -/

section Moves

variable {s : State} {h : Fin 2}

theorem exec_reclaim_enough (hfree : stripeCount ≤ (s.well h.val).freeStripes * 50) : exec (.reclaim h) s = .next s := by
  change execReclaim h s = _
  simp only [execReclaim, hfree, if_true]

theorem exec_reclaim_moves {n : Nat} (hfree : (s.well h.val).freeStripes * 50 < stripeCount)
    (hn : (s.well h.val).emptiest = some n) : exec (.reclaim h) s =
      .next ((s.setFlag .whState h.val 3 true).tryLog h.val fun w => w.vacate h.val n false) := by
  have hshort : ¬ stripeCount ≤ (s.well h.val).freeStripes * 50 := Nat.not_le.mpr hfree
  change execReclaim h s = _
  simp only [execReclaim, hshort, if_false, hn]

theorem exec_wearLevel_even (hwear : (s.well h.val).eraseMax ≤ (s.well h.val).eraseMin + 300) :
    exec (.wearLevel h) s = .next s := by
  change execWearLevel h s = _
  simp only [execWearLevel, hwear, if_true]

theorem exec_wearLevel_moves {n : Nat} (hwear : (s.well h.val).eraseMin + 300 < (s.well h.val).eraseMax)
    (hn : (s.well h.val).coldest = some n) :
    exec (.wearLevel h) s = .next (s.tryLog h.val fun w => w.vacate h.val n true) := by
  change execWearLevel h s = _
  simp only [execWearLevel, Nat.not_le.mpr hwear, if_false, hn]

end Moves

/-! ### The journal and the checkpoint (R263, R266) -/

section Tables

variable {s : State} {h : Fin 2}

theorem exec_tables_wait (hhot : s.defers h.val = true) :
    exec (.journalWrite h) s = .next s ∧ exec (.checkpointTimer h) s = .next s := by
  change execJournalWrite h s = _ ∧ execCheckpointTimer h s = _
  simp only [execJournalWrite, execCheckpointTimer, hhot, Bool.not_true, Bool.and_false, Bool.false_eq_true, if_false, and_self]

/-- Tables that no write waits for. -/
theorem writeTables_eq {f : Well → Option Well} {v : Well} (hwaits : (s.well h.val).unacked = [])
    (hv : f ((s.well h.val).mark s.serviceDays) = some v) : writeTables h.val f s = (s.setWell h.val v).checkFree h.val := by
  simp only [writeTables, logged_eq hv, hwaits]
  rfl

variable (hup : s.wellUp = true) (hcool : s.defers h.val = false)

include hup hcool

theorem exec_journalWrite : exec (.journalWrite h) s = .next (writeTables h.val (fun w => w.journal h.val 0) s) := by
  change execJournalWrite h s = _
  simp only [execJournalWrite, hup, hcool, Bool.not_false, Bool.and_self, if_true]

theorem exec_checkpointTimer : exec (.checkpointTimer h) s = .next (writeTables h.val (fun w => w.checkpoint h.val) s) := by
  change execCheckpointTimer h s = _
  simp only [execCheckpointTimer, hup, hcool, Bool.not_false, Bool.and_self, if_true]

end Tables

/-! ### Scrub and lost dies (R260, R270 to R272, R274) -/

section Media

variable {s : State} {h : Fin 2}

theorem exec_blockScrub_keeps {blk ber n : Nat} {offsets : List Int} (hup : s.wellUp = true)
    (hon : s.flag .whScrubCfg h.val 0 = true) (hn : ((s.well h.val).blk blk).stripe = some n)
    (hpos : ((s.well h.val).stripe n).pos ≠ 0) (hlive : ((s.well h.val).stripe n).gone = false) (hlen : offsets.length = 7)
    (hber : ber < s.fld .whScrubCfg h.val 15 8)
    (hfew : ((s.well h.val).blk blk).reads + ((s.well h.val).stripe n).pos < 1000 * s.fld .whScrubCfg h.val 31 16) :
    exec (.blockScrub h blk ber offsets) s = .next (s.setWell h.val ((s.well h.val).setBlk blk { (s.well h.val).blk blk with
      offsets := offsets
      hot := (s.well h.val).tempOf (blk / 2 ^ 16)
      reads := ((s.well h.val).blk blk).reads + ((s.well h.val).stripe n).pos
      rot := (((s.well h.val).blk blk).rot + 1) % 8 })) := by
  have hgood : ¬ s.fld .whScrubCfg h.val 15 8 ≤ ber := Nat.not_le.mpr hber
  have hseldom : ¬ 1000 * s.fld .whScrubCfg h.val 31 16 ≤ ((s.well h.val).blk blk).reads + ((s.well h.val).stripe n).pos :=
    Nat.not_le.mpr hfew
  change execBlockScrub h blk ber offsets s = _
  simp [execBlockScrub, hn, hup, hon, hpos, hlive, hlen, hgood, hseldom]

/-- A half with one more failed die, whose group is rebuilt; the open set closes when it lies in that group. -/
def Well.withoutDie (w : Well) (die : Nat) : Well := { w with
  failed := w.failed ++ [die]
  rebuilding := setInsert w.rebuilding (die % 8)
  opened := if w.opened.any fun n => (w.stripe n).group == die % 8 then [] else w.opened }

/-- A die that fails changes its half, the half's mode and the sump. -/
theorem modeOnly_failDie {h : Nat} (hh : h < 1048576) {s : State} {die : Nat} (hdie : (s.well h).failed.contains die = false) :
    (s.setWell h ((s.well h).withoutDie die)).ModeOnly (s.failDie h die) h := by
  unfold failDie
  extract_lets w g s1 s2 dead twice
  rw [if_neg (hdie ▸ Bool.false_ne_true)]
  have hs2 : s1.ModeOnly s2 h := by
    unfold s2
    split
    · exact .setMode s1 h 1
    · exact .refl s1 h
  refine hs2.trans (ModeOnly.trans ?_ (.checkFree hh _))
  split
  · exact .readOnly hh s2
  · exact .refl s2 h

section Rebuild

variable {g : Nat} {rest : List Nat} (hg : (s.well h.val).rebuilding = g :: rest) (hcool : s.defers h.val = false)

/-- Stripe blocks of a group that hold codewords of its failed dies. -/
def Well.broken (w : Well) (g : Nat) : List Nat :=
  (w.stripes.filter fun kv => kv.2.group == g && !kv.2.gone && kv.2.blks.any fun cb => (w.dead g).contains cb.1).map (·.1)

include hg hcool

theorem exec_dieRebuildEnd_stuck (hnone : ((s.well h.val).mark s.serviceDays).rebuild h.val ((s.well h.val).broken g) = none) :
    exec (.dieRebuildEnd h) s = .next (s.readOnly h.val) := by
  have hlogged := logged_none (s := s) (f := fun w => w.rebuild h.val ((s.well h.val).broken g)) hnone
  unfold Well.broken at hlogged
  change execDieRebuildEnd h s = _
  simp only [execDieRebuildEnd, hg, hcool, Bool.false_eq_true, if_false, hlogged]

theorem exec_dieRebuildEnd_done {v : Well}
    (hv : ((s.well h.val).mark s.serviceDays).rebuild h.val ((s.well h.val).broken g) = some v) :
    ∃ t, exec (.dieRebuildEnd h) s = .next t ∧ t.well h.val = { v with rebuilding := rest } ∧ s.HalfOnly t h.val := by
  have hlogged := logged_eq (s := s) (f := fun w => w.rebuild h.val ((s.well h.val).broken g)) hv
  obtain ⟨hwell, hhalf, -⟩ := setWell_checkFree (h := h.val) (by omega) s v
  unfold Well.broken at hlogged
  change ∃ t, execDieRebuildEnd h s = _ ∧ _
  simp only [execDieRebuildEnd, hg, hcool, Bool.false_eq_true, if_false, hlogged]
  refine ⟨_, rfl, ?_⟩
  generalize (s.setWell h.val v).checkFree h.val = u at hwell hhalf
  have hmod : (u.modWell h.val fun w => { w with rebuilding := rest }).well h.val = { v with rebuilding := rest } := by
    rw [modWell, well_setWell_self, hwell]
  have hmods := hhalf.trans (HalfOnly.modWell u h.val fun w => { w with rebuilding := rest })
  split
  · exact ⟨hmod, hmods.trans (.setReg ..)⟩
  · exact ⟨hmod, hmods⟩

end Rebuild

end Media

/-! ### Statements that hold -/

/-- Settles O34: the requests are read off the first one in line; what programs flash is a write to the log of the half, which
changes the half and its mode alone and leaves the map but for the data that moves. -/
theorem wellRequestsAndUpkeep : Obligations.WellRequestsAndUpkeep := by
  unfold Obligations.WellRequestsAndUpkeep
  refine ⟨fun h s r rest => ?requests, fun h s => ?upkeep⟩
  case requests =>
    intro w hreqs
    refine ⟨fun lpn hr => ?read, fun lpn page data hr hup hshut hbuf => ?write, fun lpn hr hup hshut => ?trim⟩
    case read =>
      subst hr
      refine ⟨fun hshut => ⟨_, exec_wellRead_shut hreqs hshut, well_setWell_self .., rfl⟩,
        fun hshut hup hlost => ⟨_, exec_wellRead_lost hreqs hshut hup hlost, well_setWell_self .., rfl⟩,
        fun hshut hup hkept => ⟨fun d hquick => ?_, exec_wellRead_flash hreqs hshut hup hkept⟩⟩
      exact ⟨_, exec_wellRead_quick hreqs hshut hup hkept hquick, well_setWell_self .., rfl⟩
    case write =>
      subst hr
      refine ⟨exec_wellWrite_waits hreqs, fun hcool hmode hroom =>
        ⟨_, exec_wellWrite_buffers hreqs hup hshut hbuf hcool hmode hroom, fun hacks => ?half, fun hbad => ?unacked,
          fun hgood hquiet => ?acked⟩,
        fun hcool hmode => ⟨_, exec_wellWrite_refuses hreqs hup hshut hbuf hcool hmode, ?refused, fun p hp => refusePage_spec hp⟩⟩
      case half =>
        cases hgood : s.holdupOk with
        | false => exact (well_setWell_self ..).trans (by rw [hgood])
        | true =>
          have hquiet : Quiet s := hacks.resolve_left (by rw [hgood]; exact Bool.noConfusion)
          rw [if_pos rfl, acked_quiet (s := s.reqBuffered ..) hquiet]
          have hwells := congrArg State.wells (ackPage_frame (s.reqBuffered h.val rest lpn page data) page)
          refine (congrArg (SMap.getD · h.val Well.reset) hwells).trans ((well_setWell_self ..).trans (by rw [hgood]))
      case unacked =>
        rw [hbad]
        rfl
      case acked =>
        rw [hgood, if_pos rfl, acked_quiet (s := s.reqBuffered ..) hquiet]
        refine ⟨?_, fun p hp => page_ackPage hp⟩
        exact (congrArg (fun t : State => { t with wells := s.wells, pages := s.pages })
          (ackPage_frame (s.reqBuffered h.val rest lpn page data) page) :)
      case refused =>
        exact (congrArg (SMap.getD · h.val Well.reset) (wells_refusePage ..)).trans (well_setWell_self ..)
    case trim =>
      subst hr
      obtain ⟨t, hexec, hwell, hframe⟩ := exec_wellTrim hreqs hup hshut
      refine ⟨t, hexec, ?_, fun q hq => ?_, ?_, ?_, ?_, hframe⟩
      · rw [hwell]
        exact SMap.get?_erase_self ..
      · rw [hwell]
        exact SMap.get?_erase_ne _ hq
      all_goals rw [hwell]; rfl
  case upkeep =>
    intro w w0 only
    have hh : h.val < 1048576 := by omega
    refine ⟨exec_reclaim_enough, fun n hfree hn hcool => ?reclaim, exec_wearLevel_even,
      fun n hwear hn hcool => ?wear, exec_tables_wait, fun hup hcool hwaits => ⟨fun v hv => ?journal, fun v hv => ?checkpoint⟩,
      fun blk ber offsets n hup hon hn hpos hlive hlen hber hfew => exec_blockScrub_keeps hup hon hn hpos hlive hlen hber hfew,
      fun chan die hdie => ?die,
      fun g rest hg hcool => ⟨fun v hv => ?rebuilt, fun hnone => exec_dieRebuildEnd_stuck hg hcool hnone⟩⟩
    case reclaim =>
      obtain ⟨hwell, hhalf, hflags⟩ := tryLog_spec (s := s.setFlag .whState h.val 3 true) hh hcool fun w => w.vacate h.val n false
      exact ⟨_, exec_reclaim_moves hfree hn, (hflags 3 (by decide)).trans (flag_setFlag_self _ _ _ (by decide)),
        ((HalfOnly.setReg ..).trans hhalf).stays, hwell⟩
    case wear =>
      obtain ⟨hwell, hhalf, -⟩ := tryLog_spec hh hcool fun w => w.vacate h.val n true
      exact ⟨_, exec_wearLevel_moves hwear hn, hhalf.stays, hwell⟩
    case journal =>
      have hmap : w0.map = w.map := map_mark ..
      obtain ⟨hwell, hhalf, -⟩ := setWell_checkFree hh s v
      obtain ⟨hvmap, hvjmap, hvpend, -⟩ := Well.journal_spec hv
      rw [← writeTables_eq (f := fun w => w.journal h.val 0) hwaits hv] at hwell hhalf
      exact ⟨_, exec_journalWrite hup hcool, hwell, hvjmap.trans hmap, hvmap.trans hmap, hvpend, hhalf.stays⟩
    case checkpoint =>
      have hmap : w0.map = w.map := map_mark ..
      obtain ⟨hwell, hhalf, -⟩ := setWell_checkFree hh s v
      obtain ⟨hvmap, hvjmap, hvpend, hvtouched⟩ := Well.checkpoint_spec hv
      rw [← writeTables_eq (f := fun w => w.checkpoint h.val) hwaits hv] at hwell hhalf
      exact ⟨_, exec_checkpointTimer hup hcool, hwell, hvjmap.trans hmap, hvmap.trans hmap, hvpend, hvtouched, hhalf.stays⟩
    case die =>
      have hmode := modeOnly_failDie hh hdie
      have hwell := (hmode.well h.val).trans (well_setWell_self ..)
      refine ⟨_, rfl, ?_, ?_, ?_, ?_, ((HalfOnly.setWell ..).trans hmode.half).stays⟩
      all_goals rw [hwell]; rfl
    case rebuilt =>
      obtain ⟨t, hexec, hwell, hhalf⟩ := exec_dieRebuildEnd_done hg hcool hv
      exact ⟨t, hexec, hwell, hhalf.stays⟩

end Sys2Proof.Machine

/-!
PROOFS. The statements of the well: reads, programs and erases of the dies end (O35).
-/

namespace Sys2Proof.Machine

open State

/-! ### Tables whose entries change in place -/

theorem SMap.get?_mapV {α : Type} (f : Nat → α → α) (m : SMap α) (i : Nat) :
    SMap.get? (SMap.mapV f m) i = (SMap.get? m i).map (f i) := by
  induction m with
  | nil => rfl
  | cons kv m ih =>
    obtain ⟨k, v⟩ := kv
    change (if k = i then some (f k v) else SMap.get? (SMap.mapV f m) i) = (if k = i then some v else SMap.get? m i).map (f i)
    by_cases hk : k = i
    · rw [if_pos hk, if_pos hk, hk]
      rfl
    · rw [if_neg hk, if_neg hk, ih]

/-! ### The blocks that a READ has read (R261, R272) -/

namespace Well

@[simp] theorem blk_setBlk_self (w : Well) (b : Nat) (x : Blk) : (w.setBlk b x).blk b = x := SMap.getD_set_self ..

theorem blk_setBlk_ne (w : Well) {b c : Nat} (x : Blk) (hc : c ≠ b) : (w.setBlk b x).blk c = w.blk c := SMap.getD_set_ne _ _ _ hc

/-- Only blocks differ, and each lies in the stripe block it lay in. -/
structure BlocksRead (w v : Well) : Prop where
  frame : { v with blocks := w.blocks } = w
  stripe : ∀ b, (v.blk b).stripe = (w.blk b).stripe

namespace BlocksRead

variable {w v u : Well}

theorem refl (w : Well) : BlocksRead w w := ⟨rfl, fun _ => rfl⟩

theorem trans (h : BlocksRead w v) (h' : BlocksRead v u) : BlocksRead w u :=
  ⟨(congrArg (fun x : Well => { x with blocks := w.blocks }) h'.frame).trans h.frame, fun b => (h'.stripe b).trans (h.stripe b)⟩

theorem eq_with (h : BlocksRead w v) : v = { w with blocks := v.blocks } :=
  (congrArg (fun x : Well => { x with blocks := v.blocks }) h.frame :)

theorem setBlk (w : Well) (b n : Nat) : BlocksRead w (w.setBlk b { w.blk b with reads := n }) := by
  refine ⟨rfl, fun c => ?_⟩
  by_cases hc : c = b
  · rw [hc, blk_setBlk_self]
  · rw [blk_setBlk_ne _ _ hc]

theorem countReads (w : Well) (r : NandRead) : BlocksRead w (w.countReads r) := by
  unfold Well.countReads
  extract_lets add
  split
  · exact setBlk ..
  · split
    · exact refl w
    · exact List.foldlRecOn (motive := fun v => BlocksRead w v) _ _ (refl w) fun v hv b _ => hv.trans (setBlk ..)

end BlocksRead

end Well

/-! ### Reads that end (R261, R271, R272, R275) -/

namespace State

/-- The state in which a READ has left its half, its reads counted at the blocks and, beyond the first step, by WH_RETRY. -/
def readEnded (s : State) (h : Nat) (r : NandRead) : State :=
  let t := s.setWell h { (s.well h).countReads r with reads := ((s.well h).countReads r).reads.erase r }
  if r.step = 0 then t else t.bump .whRetry (3 * h + (r.step - 1)) 1

variable {s t : State} {h : Nat} {r : NandRead}

theorem readEnded_spec (s : State) (h : Nat) (r : NandRead) :
    (s.readEnded h r).well h = { (s.well h).countReads r with reads := (s.well h).reads.erase r } ∧ s.HalfOnly (s.readEnded h r) h := by
  unfold readEnded
  extract_lets counted t
  have hreads : ((s.well h).countReads r).reads = (s.well h).reads := by rw [(Well.BlocksRead.countReads (s.well h) r).eq_with]
  have hwell : t.well h = { (s.well h).countReads r with reads := (s.well h).reads.erase r } := by
    rw [← hreads]
    exact well_setWell_self ..
  have hhalf : s.HalfOnly t h := .setWell ..
  split
  · exact ⟨hwell, hhalf⟩
  · exact ⟨hwell, hhalf.trans (.setReg ..)⟩

/-- A step of moves in a half. -/
structure HalfMoves (s t : State) (h : Nat) : Prop where
  half : s.HalfOnly t h
  moves : (s.well h).Moves (t.well h)

theorem HalfMoves.refl (s : State) (h : Nat) : s.HalfMoves s h := ⟨.refl s h, .refl _⟩

theorem halfMoves_logged {f : Well → Option Well} (hh : h < 1048576) (hf : ∀ w v, f w = some v → w.Moves v)
    (ht : s.logged h f = some t) : s.HalfMoves t h := by
  obtain ⟨v, hv, rfl⟩ := Option.map_eq_some_iff.mp ht
  obtain ⟨hwell, hhalf, -⟩ := setWell_checkFree hh s v
  refine ⟨hhalf, ?_⟩
  rw [hwell]
  exact (Well.Moves.mark ..).trans (hf _ _ hv)

theorem halfMoves_tryLog {f : Well → Option Well} (hh : h < 1048576) (hf : ∀ w v, f w = some v → w.Moves v) :
    s.HalfMoves (s.tryLog h f) h := by
  unfold tryLog
  split
  · exact .refl s h
  · cases ht : s.logged h f with
    | none => exact .refl s h
    | some t => exact halfMoves_logged hh hf ht

theorem halfMoves_relocate (hh : h < 1048576) (n : Nat) : s.HalfMoves (s.relocate h n) h := by
  unfold relocate
  split
  · exact .refl s h
  · split
    · next t ht =>
      obtain ⟨hhalf, hmoves⟩ := halfMoves_logged hh (fun _ _ => Well.moves_vacate) ht
      exact ⟨hhalf.trans (.setReg ..), hmoves⟩
    · exact .refl s h

/-- A READ at its first step, of a stripe block whose blocks were read less often than DISTURB says, moves nothing (R272). -/
theorem afterRead_first (hstep : r.step = 0) (hseldom : ∀ n, ((s.well h).blk (pcaBid r.pca)).stripe = some n →
    ∀ b ∈ Well.bidsOf ((s.well h).stripe n), ((s.well h).blk b).reads < 1000 * s.fld .whScrubCfg h 31 16) :
    Machine.afterRead h r s = s := by
  unfold Machine.afterRead
  extract_lets w
  split
  · rfl
  · next n hn =>
    refine if_neg ?_
    rw [hstep, Bool.or_eq_true, not_or]
    refine ⟨by simp, fun hoften => ?_⟩
    obtain ⟨b, hb, hmany⟩ := List.any_eq_true.mp hoften
    exact Nat.not_le.mpr (hseldom n hn b hb) (of_decide_eq_true hmany)

theorem halfMoves_afterRead (hh : h < 1048576) (r : NandRead) : s.HalfMoves (Machine.afterRead h r s) h := by
  unfold Machine.afterRead
  dsimp only
  split
  · exact .refl s h
  · split
    · exact halfMoves_relocate hh _
    · exact .refl s h

/-- A READ that ends with data at its first step is answered. -/
theorem readGood_first (hstep : r.step = 0) (c : Cell) : readGood h r c s = s.answer h r.lpn .ok (c.plain h (s.well h).key) :=
  if_neg fun h3 => by omega

/-- A READ that ends with data (R261, R263). -/
theorem readGood_spec (hh : h < 1048576) (c : Cell) : let d := c.plain h (s.well h).key
    (s.answer h r.lpn .ok d).HalfMoves (readGood h r c s) h := by
  intro d
  unfold readGood
  extract_lets t
  split
  · exact halfMoves_tryLog hh fun _ _ hlog => .of_logs (Well.Logs.log hlog)
  · exact .refl t h

/-- A half whose error has been recorded in the sump answers the READ. -/
theorem answered_spec {u : State} (hraise : SumpRaised t u) (lpn : Nat) (code : Code) (d : List Byte) :
    (u.answer h lpn code d).well h = { t.well h with arrived := (t.well h).arrived ++ [(lpn, code, d)] } ∧
    t.HalfOnly (u.answer h lpn code d) h := by
  have hwells : u.wells = t.wells := (congrArg State.wells hraise.frame :)
  refine ⟨?_, (HalfOnly.of_sumpRaised hraise h).trans (.modWell ..)⟩
  rw [answer, modWell, well_setWell_self, State.well, hwells, State.well]

/-- A READ that ends without data is counted, recorded and answered, and its LPN is lost (R275). -/
theorem readLost_spec (hmap : (s.well h).map.get? r.lpn = some r.pca) (hbuf : ((s.well h).buf.any fun b => b.lpn == r.lpn) = false) :
    (readLost h r s).well h = { s.well h with
      lost := setInsert (s.well h).lost r.lpn, arrived := (s.well h).arrived ++ [(r.lpn, .media, [])] } ∧
    s.HalfOnly (readLost h r s) h := by
  unfold readLost
  extract_lets w gone t
  have hgone : gone = true := by
    unfold gone
    rw [hmap, hbuf, beq_self_eq_true]
    rfl
  have hwell : (t.bump .whMedia h 1).well h = { w with lost := setInsert w.lost r.lpn } := by
    have ht : t.well h = { w with lost := if gone then setInsert w.lost r.lpn else w.lost } := well_setWell_self ..
    rw [hgone] at ht
    exact ht
  obtain ⟨hanswered, hhalf⟩ := answered_spec (h := h) (sumpRaised_raise (t.bump .whMedia h 1) 0x07 (16 * h + pcaChan r.pca) .media
    0x01 none 0 r.pca r.lpn 1 0) r.lpn .media []
  rw [hwell] at hanswered
  exact ⟨hanswered, (HalfOnly.modWell ..).trans ((HalfOnly.setReg ..).trans hhalf)⟩

end State

section Read

variable {s : State} {h : Fin 2} {lpn : Nat} {r : NandRead} (hr : (s.well h.val).reads.find? (·.lpn == lpn) = some r)

theorem lpn_of_find {l : List NandRead} {lpn : Nat} {r : NandRead} (hr : l.find? (·.lpn == lpn) = some r) : r.lpn = lpn :=
  beq_iff_eq.mp (List.find?_some hr :)

include hr

theorem exec_nandReadDone_good {c : Cell}
    (hc : (if r.step < 3 then (s.well h.val).cells.get? r.pca else (s.well h.val).rebuilt h.val r.pca) = some c) :
    exec (.nandReadDone h lpn true) s = .next (Machine.afterRead h.val r (readGood h.val r c (s.readEnded h.val r))) := by
  change execNandReadDone h lpn true s = _
  simp only [execNandReadDone, hr, hc, Bool.not_true, Bool.false_eq_true, if_false, modWell_setWell]
  rfl

theorem exec_nandReadDone_lost (hstep : r.step = 3) : exec (.nandReadDone h lpn false) s =
    .next (Machine.afterRead h.val r (readLost h.val r (s.readEnded h.val r))) := by
  change execNandReadDone h lpn false s = _
  simp only [execNandReadDone, hr, hstep, Bool.not_false, if_true, le_refl, modWell_setWell, readEnded]

/-- A step that does not decode is followed by the next one, with levels that are drawn (R275). -/
theorem exec_nandReadDone_next (hstep : r.step < 2) : ∃ t, exec (.nandReadDone h lpn false) s = .next t ∧
    t.well h.val = { (s.well h.val).countReads r with
      reads := ((s.well h.val).countReads r).reads.map fun x => if x = r then nextStep s.free r else x } ∧
    { t with wells := s.wells, free := s.free } = s := by
  have h3 : ¬ 3 ≤ r.step := by omega
  have h2 : ¬ r.step = 2 := by omega
  change ∃ t, execNandReadDone h lpn false s = _ ∧ _
  simp only [execNandReadDone, hr, h3, h2, Bool.not_false, if_true, if_false]
  refine ⟨_, rfl, ?_, rfl⟩
  rw [modWell, well_setWell_self]
  exact congrArg (fun w : Well => { w with reads := w.reads.map fun x => if x = r then nextStep s.free r else x })
    (well_setWell_self s h.val ((s.well h.val).countReads r))

end Read

/-! ### Programs (R257, R260, R263) -/

/-- What a program leaves of the map and the codewords is what it put in its places. -/
theorem Well.program_spec (w : Well) (h : Nat) (es : List Codeword) :
    let puts := ((w.places h).zip es).foldl (fun w x => w.put x.1 x.2) w
    (w.program h es).map = puts.map ∧ (w.program h es).cells = puts.cells := by
  intro puts
  have hparity : ∀ (v : Well) (n page : Nat), (v.putParity h n page).map = v.map ∧ (v.putParity h n page).cells = v.cells := by
    intro v n page
    unfold Well.putParity
    split <;> exact ⟨rfl, rfl⟩
  have hkept : ∀ {α : Type} (f : Well → α → Well) (l : List α), (∀ v, ∀ x, (f v x).map = v.map ∧ (f v x).cells = v.cells) →
      ∀ v, (l.foldl f v).map = v.map ∧ (l.foldl f v).cells = v.cells := by
    intro α f l hf v
    refine List.foldlRecOn (motive := fun u : Well => u.map = v.map ∧ u.cells = v.cells) l f ⟨rfl, rfl⟩ fun u hu x _ => ?_
    exact ⟨(hf u x).1.trans hu.1, (hf u x).2.trans hu.2⟩
  unfold Well.program
  extract_lets w2 w3
  obtain ⟨hmap2, hcells2⟩ := hkept _ w.wordline (fun v page => hkept _ w.opened (fun u n => hparity u n page) v) puts
  obtain ⟨hmap3, hcells3⟩ : w3.map = w2.map ∧ w3.cells = w2.cells := by
    refine hkept _ w.opened (fun v n => ?_) w2
    exact ⟨rfl, rfl⟩
  exact ⟨hmap3.trans hmap2, hcells3.trans hcells2⟩

/-- A program of one codeword of data puts it in the first place. -/
theorem Well.program_single {w : Well} {h pca : Nat} {ps : List Nat} (hplaces : w.places h = pca :: ps) (lpn : Nat) (d : List Byte) :
    (w.program h [(0, lpn, d)]).map.get? lpn = some pca ∧
    (w.program h [(0, lpn, d)]).cells.get? pca = some ⟨0, lpn, w.seq + 1, w.key, d⟩ := by
  obtain ⟨hmap, hcells⟩ := w.program_spec h [(0, lpn, d)]
  rw [hmap, hcells, hplaces, List.zip_cons_cons, List.zip_nil_right]
  change (w.put pca (0, lpn, d)).map.get? lpn = _ ∧ (w.put pca (0, lpn, d)).cells.get? pca = _
  exact ⟨SMap.get?_set_self .., SMap.get?_set_self ..⟩

theorem exec_nandProgramDone_single {s : State} {h : Fin 2} {b : BufWrite} {pca : Nat} {ps : List Nat}
    (hbuf : (s.well h.val).buf = [b]) (hcool : s.defers h.val = false) (hplaces : (s.well h.val).places h.val = pca :: ps)
    (hroom : 0 < (s.well h.val).room) : ∃ t, exec (.nandProgramDone h none) s = .next t ∧ (t.well h.val).buf = [] ∧
      (t.well h.val).map.get? b.lpn = some pca ∧
      (t.well h.val).cells.get? pca = some ⟨0, b.lpn, (s.well h.val).seq + 1, (s.well h.val).key, b.data⟩ ∧
      s.HalfOnly t h.val := by
  have hopen : (s.well h.val).opened.isEmpty = false := by
    cases ho : (s.well h.val).opened with
    | nil =>
      rw [Well.places, Well.wordline, ho] at hplaces
      cases hplaces
    | cons => rfl
  obtain ⟨n, hn⟩ : ∃ n, (s.well h.val).room = n + 1 := ⟨_, (Nat.succ_pred_eq_of_pos hroom).symm⟩
  change ∃ t, execNandProgramDone h none s = _ ∧ _
  unfold execNandProgramDone
  obtain ⟨m, hm⟩ := mark_eq (s.well h.val) s.serviceDays
  obtain ⟨hmap, hcells⟩ := Well.program_single (w := { s.well h.val with marks := m }) hplaces b.lpn b.data
  rw [hm]
  replace hbuf : ({ s.well h.val with marks := m } : Well).buf = [b] := hbuf
  replace hopen : ({ s.well h.val with marks := m } : Well).opened.isEmpty = false := hopen
  replace hn : ({ s.well h.val with marks := m } : Well).room = n + 1 := hn
  replace hcells : (Well.program { s.well h.val with marks := m } h.val [(0, b.lpn, b.data)]).cells.get? pca =
    some ⟨0, b.lpn, (s.well h.val).seq + 1, (s.well h.val).key, b.data⟩ := hcells
  generalize ({ s.well h.val with marks := m } : Well) = w at hmap hcells hbuf hopen hn ⊢
  simp only [hbuf, hcool, hopen, hn, List.isEmpty_cons, Bool.or_self, Bool.false_eq_true, if_false, List.take_succ_cons,
    List.take_nil, List.map_cons, List.map_nil, List.drop_succ_cons, List.drop_nil]
  generalize w.program h.val [(0, b.lpn, b.data)] = v at hmap hcells ⊢
  refine ⟨_, rfl, ?_, ?_, ?_, (setWell_checkFree (h := h.val) (by omega) s _).2.1⟩
  all_goals rw [(setWell_checkFree (h := h.val) (by omega) s _).1]
  · exact hmap
  · exact hcells

/-! ### Erases (R264, R273) -/

theorem Well.inStripe_erased {w : Well} {n : Nat} : ∀ kv ∈ (w.erase n).cells, w.inStripe n kv.1 = false := fun _ hkv =>
  (Bool.not_eq_true' _).mp (List.mem_filter.mp hkv).2

/-- A block of an erased stripe block is free, with one more erase. -/
theorem Well.blk_erase {w : Well} {n b : Nat} (hb : (w.blk b).stripe = some n) :
    (w.erase n).blk b = { w.blk b with erases := (w.blk b).erases + 1, reads := 0, rot := 0, stripe := none } := by
  unfold Well.blk SMap.getD at *
  have hblocks : (w.erase n).blocks = SMap.mapV (fun _ x =>
      if x.stripe = some n then { x with erases := x.erases + 1, reads := 0, rot := 0, stripe := none } else x) w.blocks := rfl
  rw [hblocks, SMap.get?_mapV]
  cases hx : SMap.get? w.blocks b with
  | none =>
    rw [hx] at hb
    cases hb
  | some x =>
    rw [hx] at hb
    exact if_pos hb

/-- The flag of reclaiming is a register. -/
theorem reclaimed_spec (h : Nat) (s : State) : (reclaimed h s).well h = s.well h ∧ s.HalfOnly (reclaimed h s) h := by
  unfold reclaimed
  split
  · exact ⟨rfl, .setReg ..⟩
  · exact ⟨rfl, .refl s h⟩

theorem exec_nandEraseDone {s : State} {h : Fin 2} {n : Nat} {rest : List Nat} (hn : (s.well h.val).erasing = n :: rest)
    (hreads : ((s.well h.val).reads.any fun r => (s.well h.val).inStripe n r.pca) = false) :
    ∃ t, exec (.nandEraseDone h none) s = .next t ∧ t.well h.val = (s.well h.val).erase n ∧ s.HalfOnly t h.val := by
  obtain ⟨hwell, hhalf, -⟩ := setWell_checkFree (h := h.val) (by omega) s ((s.well h.val).erase n)
  obtain ⟨hrecl, hreclHalf⟩ := reclaimed_spec h.val ((s.setWell h.val ((s.well h.val).erase n)).checkFree h.val)
  change ∃ t, execNandEraseDone h none s = _ ∧ _
  simp only [execNandEraseDone, hn, hreads, Bool.false_eq_true, if_false, Option.bind_none]
  exact ⟨_, rfl, hrecl.trans hwell, hhalf.trans hreclHalf⟩

/-! ### Statements that hold -/

/-- Settles O35: the end of a READ counts its reads, answers and may move its stripe block; one program fills the first place of
the open set; an erase is that of its stripe block. -/
theorem wellDiesEndTheirWork : Obligations.WellDiesEndTheirWork := by
  unfold Obligations.WellDiesEndTheirWork
  intro h s w
  have hh : h.val < 1048576 := by omega
  refine ⟨fun lpn r hr => ?reads, fun b pca ps hbuf hcool hplaces hroom => ?program, fun n rest hn hreads => ?erase⟩
  case reads =>
    intro w1
    obtain ⟨hended, hendedHalf⟩ := readEnded_spec s h.val r
    have hcount := Well.BlocksRead.countReads w r
    have hlpn := lpn_of_find hr
    refine ⟨fun c hc hstep hseldom => ?decoded, fun hstep hone => ?next, fun c hstep hc => ?rebuilt, fun hstep hmap hbuf => ?lost⟩
    case next =>
      obtain ⟨t, hexec, hwell, hframe⟩ := exec_nandReadDone_next hr hstep
      have hreads : w1.reads = [r] := (congrArg Well.reads hcount.eq_with :).trans hone
      refine ⟨t, hexec, hwell.trans ?_, hframe⟩
      rw [hreads, List.map_singleton, if_pos rfl]
    case decoded =>
      have hgood := exec_nandReadDone_good hr (c := c) (by rw [hstep]; exact hc)
      have hstays : s.readEnded h.val r = s.setWell h.val { w1 with reads := w1.reads.erase r } := if_pos hstep
      rw [readGood_first hstep, hstays, answer, modWell_setWell, well_setWell_self, afterRead_first hstep] at hgood
      · refine ⟨_, hgood, (well_setWell_self ..).trans ?_, rfl⟩
        have hkept : w1 = { w with blocks := w1.blocks } := hcount.eq_with
        rw [hkept, hlpn]
      · rw [well_setWell_self]
        intro n hn b hb
        have hstripe : w1.stripe n = w.stripe n := congrArg (SMap.getD · n _) (congrArg Well.stripes hcount.eq_with :)
        exact hseldom n ((hcount.stripe _).symm.trans hn) b (hstripe ▸ hb)
    case rebuilt =>
      obtain ⟨hgood, hgoodMoves⟩ := readGood_spec (s := s.readEnded h.val r) (r := r) hh c
      obtain ⟨hafter, hafterMoves⟩ := halfMoves_afterRead (s := readGood h.val r c (s.readEnded h.val r)) hh r
      have hmoves := hgoodMoves.trans hafterMoves
      have hhalf := (hendedHalf.trans (.modWell ..)).trans (hgood.trans hafter)
      rw [answer, modWell, well_setWell_self, hended, hcount.eq_with, hlpn] at hmoves
      exact ⟨_, exec_nandReadDone_good hr (by rw [hstep]; exact hc), hmoves.arrived, hmoves.reads, hhalf.pages, hhalf.cis⟩
    case lost =>
      rw [← hlpn] at hmap hbuf
      obtain ⟨hlost, hlostHalf⟩ := readLost_spec (s := s.readEnded h.val r) (r := r) (h := h.val)
        (by rw [hended, hcount.eq_with]; exact hmap) (by rw [hended, hcount.eq_with]; exact hbuf)
      obtain ⟨hafter, hmoves⟩ := halfMoves_afterRead (s := readLost h.val r (s.readEnded h.val r)) hh r
      have hhalf := hendedHalf.trans (hlostHalf.trans hafter)
      rw [hlost, hended, hcount.eq_with, hlpn] at hmoves
      exact ⟨_, exec_nandReadDone_lost hr hstep, hmoves.arrived, hmoves.lost, hmoves.reads, hhalf.pages, hhalf.cis⟩
  case program =>
    obtain ⟨t, hexec, hempty, hmap, hcells, hhalf⟩ := exec_nandProgramDone_single hbuf hcool hplaces hroom
    exact ⟨t, hexec, hempty, hmap, hcells, hhalf.cis, hhalf.pages⟩
  case erase =>
    obtain ⟨t, hexec, hwell, hhalf⟩ := exec_nandEraseDone hn hreads
    refine ⟨t, hexec, hwell, hhalf.pages, hhalf.cis, rfl, Well.inStripe_erased, fun b hb => ?_⟩
    rw [Well.blk_erase hb]
    exact ⟨rfl, rfl⟩

end Sys2Proof.Machine

/-!
PROOFS. The statements of the well: the mount and the commands of WEL_CMD (O36).
-/

namespace Sys2Proof.Machine

open State

/-! ### Halves and fields that are set (R6) -/

namespace State

/-- A flag inside a field that is set. -/
theorem flag_setFld_within (s : State) (r : Reg) (i x : Nat) {hi lo b : Nat} (hlo : lo ≤ b) (hhi : b ≤ hi) (hb : b < 32) :
    (s.setFld r i hi lo x).flag r i b = x.testBit (b - lo) := by
  rw [flag, setFld, reg_setReg_self, BitVec.getLsbD_ofNat, testBit_setBits _ _ _ (hlo.trans hhi), if_pos ⟨hlo, hhi⟩,
    decide_eq_true hb, Bool.true_and]

theorem flag_setFlag_set (s : State) (r : Reg) (i : Nat) (x : Bool) {b : Nat} (hb : b < 32) :
    (s.setFlag r i b x).flag r i b = x := by
  cases x with
  | true => exact flag_setFlag_self s r i hb
  | false => exact flag_setFlag_false s r i b

variable {s : State} {f : Well → Well}

theorem well_modWell_self (s : State) (h : Nat) (f : Well → Well) : (s.modWell h f).well h = f (s.well h) := well_setWell_self ..

theorem well_modWell_ne (s : State) {g h : Nat} (f : Well → Well) (hg : g ≠ h) : (s.modWell h f).well g = s.well g :=
  well_setWell_ne s _ hg

theorem modWell_frame (s : State) (h : Nat) (f : Well → Well) : { s.modWell h f with wells := s.wells } = s := rfl

/-- Updates of halves one after the other. -/
theorem wells_trans {s t u : State} (h : { t with wells := s.wells } = s) (h' : { u with wells := t.wells } = t) :
    { u with wells := s.wells } = s := (congrArg (fun x : State => { x with wells := s.wells }) h' :).trans h

/-- What an update of a half keeps of a well, it keeps of every half. -/
theorem kept_modWell {α : Type} {p : Well → α} (hp : ∀ w, p (f w) = p w) (s : State) (g h : Nat) :
    p ((s.modWell h f).well g) = p (s.well g) := by
  by_cases hg : g = h
  · rw [hg, well_modWell_self, hp]
  · rw [well_modWell_ne _ _ hg]

theorem well_setReg (s : State) (r : Reg) (i : Nat) (v : Word) (h : Nat) : (s.setReg r i v).well h = s.well h := rfl

/-- An update of both halves. -/
theorem well_modWell_both (s : State) (f : Well → Well) {h : Nat} (hh : h < 2) :
    ((s.modWell 0 f).modWell 1 f).well h = f (s.well h) := by
  obtain rfl | rfl : h = 0 ∨ h = 1 := by omega
  · rw [well_modWell_ne _ _ (by decide), well_modWell_self]
  · rw [well_modWell_self, well_modWell_ne _ _ (by decide)]

end State

/-! ### The mount (R264, R268, R279, R281) -/

/-- After a marker the map is as the journal gives it (R279). -/
theorem Well.map_mount {w : Well} (h : w.marker ≠ 0) : w.mount.map = w.jmap := by
  unfold Well.mount
  rw [if_neg h]
  rfl

section Mount

variable {s : State}

theorem exec_wellMount_idle (hdue : s.mountDue = false) (holdup : Bool) : exec (.wellMount holdup) s = .next s := by
  change execWellMount holdup s = _
  simp only [execWellMount, hdue, Bool.not_false, Bool.or_true, if_true]

theorem exec_wellMount (hdown : s.wellUp = false) (hmount : s.welMount = none) (hready : s.cisReady = true)
    (hdue : s.mountDue = true) (holdup : Bool) : exec (.wellMount holdup) s =
      .next { ((s.modWell 0 Well.mount).modWell 1 Well.mount).setFlag .welState 0 3 holdup with
        welMount := some (if (s.well 0).marker ≠ 0 ∧ (s.well 1).marker ≠ 0 then 1 else 2), mountDue := false } := by
  change execWellMount holdup s = _
  simp only [execWellMount, hdown, hmount, hready, hdue, Option.isSome_none, Bool.not_true, Bool.or_self, Bool.false_eq_true, if_false,
    Bool.and_eq_true, bne_iff_ne]

/-- The state in which a mounted well serves again (R279, R281). -/
def State.serves (s : State) (kind : Nat) : State :=
  (({ s with welMount := none } : State).setFld .welState 0 2 0 (1 + 2 * kind)).setFlag .welState 0 5 false

theorem serves_flags (s : State) (kind : Nat) : (s.serves kind).wellUp = true ∧ (s.serves kind).wellShut = false := by
  refine ⟨?_, flag_setFlag_false ..⟩
  rw [wellUp, State.serves, flag_setFlag_apart _ _ _ _ (by decide), flag_setFld_within _ _ _ _ le_rfl (by decide) (by decide)]
  simp

/-- The state in which the markers are gone and both halves have reported their budgets. -/
def State.budgeted (s : State) : State :=
  (((s.modWell 0 fun w => { w with marker := 0 }).modWell 1 fun w => { w with marker := 0 }).reportBudget 0).reportBudget 1

theorem budgeted_frame (s : State) : { s.budgeted with wells := s.wells } = s :=
  wells_trans (wells_trans (modWell_frame s 0 _) (modWell_frame _ 1 _)) (wells_trans (modWell_frame _ 0 _) (modWell_frame _ 1 _))

theorem flag_budgeted (s : State) (r : Reg) (i b : Nat) : s.budgeted.flag r i b = s.flag r i b := by
  have hregs : s.budgeted.regs = s.regs := (congrArg State.regs (budgeted_frame s) :)
  rw [flag, reg, hregs, flag, reg]

/-- The end of a mount takes the markers away, and reports the budgets (R268, R279). -/
theorem budgeted_halves (u : State) {h : Nat} (hh : h < 2) :
    (u.budgeted.well h).map = (u.well h).map ∧ (u.budgeted.well h).marker = 0 := by
  have hreport {α : Type} {p : Well → α} (hp : ∀ w d q, p { w with days := d, rated := q } = p w) (t : State) :
      p (((t.reportBudget 0).reportBudget 1).well h) = p (t.well h) :=
    (kept_modWell (fun w => hp w _ _) (t.reportBudget 0) h 1).trans (kept_modWell (fun w => hp w _ _) t h 0)
  unfold State.budgeted
  rw [hreport (p := Well.map) fun _ _ _ => rfl, hreport (p := Well.marker) fun _ _ _ => rfl, well_modWell_both _ _ hh]
  exact ⟨rfl, rfl⟩

/-- The end of a mount writes WEL_STATE and the budget of the module besides (R268, R279, R281). -/
def State.mountEnded (s : State) (kind : Nat) : State :=
  (s.serves kind).budgeted.setFld .govBudget 0 15 0 (s.serves kind).budgeted.moduleBudget

theorem mountEnded_spec (s : State) (kind : Nat) :
    (s.mountEnded kind).welMount = none ∧ (s.mountEnded kind).wellUp = true ∧ (s.mountEnded kind).wellShut = false ∧
    (∀ h, h < 2 → ((s.mountEnded kind).well h).map = (s.well h).map ∧ ((s.mountEnded kind).well h).marker = 0) ∧
    { s.mountEnded kind with wells := s.wells, regs := s.regs, welMount := s.welMount } = s := by
  obtain ⟨hup, hshut⟩ := serves_flags s kind
  unfold State.mountEnded
  refine ⟨rfl, ?_, ?_, fun h hh => ?_, ?_⟩
  · rw [wellUp, setFld, flag_setReg_other _ (by decide), flag_budgeted]
    exact hup
  · rw [wellShut, setFld, flag_setReg_other _ (by decide), flag_budgeted]
    exact hshut
  · rw [setFld, well_setReg]
    exact budgeted_halves (s.serves kind) hh
  · have hframe := budgeted_frame (s.serves kind)
    exact (congrArg (fun t : State => { t with wells := s.wells, regs := s.regs, welMount := s.welMount }) hframe :)

theorem exec_wellMountDone {kind : Nat} (hmount : s.welMount = some kind) (hrun : s.welRun = none) : exec .wellMountDone s =
    .next (s.mountEnded kind) := by
  have hend : ¬ s.welRun = some 4 := by simp [hrun]
  change execWellMountDone s = _
  simp only [execWellMountDone, hmount, hend, if_false]
  rfl

end Mount

/-! ### Commands (R266, R280, R281) -/

section Commands

variable {s : State} {v : Word}

theorem welEffect_run {op : Nat} (h : op = 1 ∨ op = 2) :
    welEffect (lcWord v op) s = ({ s with welRun := some op } : State).setReg .welCmdState 0 1 := by
  rcases h with rfl | rfl
  all_goals
    rw [welEffect, lcWord_op]
    rfl

theorem welEffect_sanitize : welEffect (lcWord v 3) s = (sanitizeHalf (sanitizeHalf
    (({ s with welRun := some 3 } : State).setReg .welCmdState 0 1) 0) 1).setFlag .welState 0 4 true := by
  rw [welEffect, lcWord_op]
  rfl

theorem welEffect_mount : welEffect (lcWord v 4) s =
    { (({ s with welRun := some 4 } : State).setReg .welCmdState 0 1) with mountDue := true } := by
  rw [welEffect, lcWord_op]
  rfl

/-- The half that a SANITIZE leaves (R280). -/
def Well.sanitized (w : Well) : Well := { w with
  key := w.wrapped + 1
  wrapped := w.wrapped + 1
  map := []
  mapAt := []
  jourAt := []
  sysAt := []
  pend := []
  touched := []
  jmap := []
  jseq := w.seq
  ckpt := { w.tables with mapAt := [] }
  buf := []
  unacked := []
  lost := []
  lpnNext := 0
  lpnFree := []
  opened := []
  erasing := []
  sanit := w.stripes.map (·.1)
  stripes := w.stripes.mapV fun _ x => { x with gone := true } }

theorem well_sanitizeHalf (s : State) (h : Nat) : (sanitizeHalf s h).well h = (s.well h).sanitized := by
  unfold sanitizeHalf
  dsimp only
  split <;> exact well_modWell_self s h Well.sanitized

theorem gone_sanitized (w : Well) : ∀ kv ∈ w.sanitized.stripes, kv.2.gone = true := fun kv hkv => by
  obtain ⟨x, -, rfl⟩ := List.mem_map.mp hkv
  rfl

/-- A command of the well ends, with no command entry behind it (R336). -/
theorem endWelCmd_idle (hjobs : s.cmdJobs = []) (code : Code) : endWelCmd code s =
    ({ s with welRun := none } : State).setReg .welCmdState 0 (BitVec.ofNat 32 (2 + 4 * code.toNat)) := cmdEnd_idle _ _ _ hjobs

section Cool

variable (h0 : s.defers 0 = false) (h1 : s.defers 1 = false)

include h0 h1

theorem exec_welCmdDone_shutdown (hrun : s.welRun = some 2) : exec (.welCmdDone .ok) s = .next (endWelCmd .ok (shutWell s)) := by
  change execWelCmdDone .ok s = _
  simp [execWelCmdDone, h0, h1, hrun]

theorem exec_welCmdDone_checkpoint (hrun : s.welRun = some 1) (hup : s.wellUp = true) : exec (.welCmdDone .ok) s =
    .next (endWelCmd .ok (writeTables 1 (fun w => w.checkpoint 1) (writeTables 0 (fun w => w.checkpoint 0) s))) := by
  change execWelCmdDone .ok s = _
  simp [execWelCmdDone, h0, h1, hrun, hup]

end Cool

theorem exec_welCmdDone_waits (hhot : s.defers 0 = true ∨ s.defers 1 = true) (hrun : s.welRun = some 1 ∨ s.welRun = some 2) :
    exec (.welCmdDone .ok) s = .next s := by
  have hhot' : (s.defers 0 || s.defers 1) = true := by rwa [Bool.or_eq_true]
  change execWelCmdDone .ok s = _
  simp [execWelCmdDone, hhot', hrun]

theorem exec_welCmdDone_plain {code : Code} (hrun : s.welRun = some 3 ∨ (code ≠ .ok ∧ (s.welRun = some 1 ∨ s.welRun = some 2))) :
    exec (.welCmdDone code) s = .next (endWelCmd code s) := by
  change execWelCmdDone code s = _
  rcases hrun with hrun | ⟨hcode, hrun | hrun⟩
  · simp [execWelCmdDone, hrun]
  · simp [execWelCmdDone, hrun, hcode]
  · simp [execWelCmdDone, hrun, hcode]

/-- A SHUTDOWN leaves the well down and shut (R281). -/
theorem shutWell_state (s : State) : (shutWell s).wellUp = false ∧ (shutWell s).wellShut = true :=
  ⟨(flag_setFlag_apart _ _ _ _ (by decide)).trans (flag_setFlag_false ..), flag_setFlag_self _ _ _ (by decide)⟩

/-- The state in which the stripe blocks of a half that a SANITIZE erases are erased. -/
def State.sanitErased (s : State) (h : Nat) : State := reclaimed h (s.modWell h fun w => w.sanit.foldl Well.erase w)

theorem sanitErased_spec (s : State) (h : Nat) :
    (s.sanitErased h).well h = (s.well h).sanit.foldl Well.erase (s.well h) ∧
    (∀ g, g ≠ h → (s.sanitErased h).well g = s.well g) ∧ { s.sanitErased h with wells := s.wells, regs := s.regs } = s := by
  obtain ⟨hwell, hhalf⟩ := reclaimed_spec h (s.modWell h fun w => w.sanit.foldl Well.erase w)
  refine ⟨hwell.trans (well_modWell_self ..), fun g hg => (hhalf.others g hg).trans (well_modWell_ne _ _ hg), ?_⟩
  unfold sanitErased reclaimed
  split <;> rfl

/-- The blocks that held data before a SANITIZE are erased, half by half (R264, R280). -/
theorem exec_sanitizeEraseDone (hflag : s.flag .welState 0 4 = true)
    (hreads : ∀ h, h < 2 → ∀ r ∈ (s.well h).reads, ∀ n ∈ (s.well h).sanit, (s.well h).inStripe n r.pca = false) :
    exec .sanitizeEraseDone s = .next (((s.sanitErased 0).sanitErased 1).setFlag .welState 0 4 false) := by
  have hidle : ∀ h, h < 2 → ((s.well h).reads.any fun r => (s.well h).sanit.any fun n => (s.well h).inStripe n r.pca) = false := by
    intro h hh
    rw [List.any_eq_false]
    intro r hr hany
    obtain ⟨n, hn, hin⟩ := List.any_eq_true.mp hany
    exact Bool.false_ne_true ((hreads h hh r hr n hn).symm.trans hin)
  change execSanitizeEraseDone s = _
  simp only [execSanitizeEraseDone, hflag, hidle 0 (by decide), hidle 1 (by decide), Bool.not_true, Bool.or_self, Bool.false_eq_true,
    if_false]
  rfl

end Commands

/-! ### Statements that hold -/

/-- Settles O36: a mount is the update of both halves; a command is the accepted write of WEL_CMD with its OP, and its end writes
WEL_CMD_STATE. -/
theorem wellMountsAndCommands : Obligations.WellMountsAndCommands := by
  unfold Obligations.WellMountsAndCommands
  intro s hjobs ended
  refine ⟨exec_wellMount_idle, fun holdup hdown hmount hready hdue => ?mount, fun kind hmount hrun =>
      ⟨_, exec_wellMountDone hmount hrun, mountEnded_spec s kind⟩,
    fun src v => ?commands, fun t => ?sanitized, fun h0 h1 => ⟨fun hrun => ?shutdown, exec_welCmdDone_checkpoint h0 h1⟩,
    exec_welCmdDone_waits, fun code hrun => ?plain, fun hflag hreads => ?erased⟩
  case mount =>
    refine ⟨_, exec_wellMount hdown hmount hready hdue holdup, flag_setFlag_set _ _ _ _ (by decide), rfl, rfl, rfl,
      fun h hh hmarker => ?_⟩
    exact (congrArg Well.map (well_modWell_both s Well.mount hh)).trans (Well.map_mount hmarker)
  case commands =>
    intro word acc busy
    have hbase : Block.at Reg.welCmd.row.base ≠ some .fe := by decide
    exact ⟨fun h => accepted_write hbase h (welEffect_run (.inl rfl)), fun h => accepted_write hbase h (welEffect_run (.inr rfl)),
      fun h => accepted_write hbase h welEffect_sanitize, fun h => accepted_write hbase h welEffect_mount⟩
  case sanitized =>
    intro w v
    have hv : v = w.sanitized := well_sanitizeHalf t 0
    rw [hv]
    exact ⟨rfl, rfl, rfl, rfl, rfl, rfl, rfl, rfl, gone_sanitized w⟩
  case shutdown => exact ⟨exec_welCmdDone_shutdown h0 h1 hrun, shutWell_state s⟩
  case erased =>
    obtain ⟨h0, hothers0, hframe0⟩ := sanitErased_spec s 0
    obtain ⟨h1, hothers1, hframe1⟩ := sanitErased_spec (s.sanitErased 0) 1
    refine ⟨_, exec_sanitizeEraseDone hflag hreads, flag_setFlag_false .., fun h hh => ?_, ?_⟩
    · rw [setFlag, setFld, well_setReg]
      obtain rfl | rfl : h = 0 ∨ h = 1 := by omega
      · exact (hothers1 0 (by decide)).trans h0
      · rw [hothers0 1 (by decide)] at h1
        exact h1
    · exact (congrArg (fun t : State => { t with wells := s.wells, regs := s.regs }) hframe1 :).trans hframe0
  case plain => rw [exec_welCmdDone_plain hrun, endWelCmd_idle hjobs]

end Sys2Proof.Machine

/-!
PROOFS. The statements of boot (O51): what the loss of the dies and the steps of the cold boot keep.
-/

namespace Sys2Proof.Machine

open State

/-- A filter of a table by its keys keeps the entries of the keys that it keeps. -/
theorem SMap.get?_filter_key {α : Type} {p : Nat → Bool} {i : Nat} (hi : p i = true) (m : SMap α) :
    SMap.get? (m.filter fun kv => p kv.1) i = SMap.get? m i := by
  induction m with
  | nil => rfl
  | cons kv m ih =>
    obtain ⟨k, v⟩ := kv
    by_cases hk : k = i
    · subst hk
      rw [List.filter_cons_of_pos (by exact hi)]
      simp [SMap.get?]
    · by_cases hp : p k = true
      · rw [List.filter_cons_of_pos (by exact hp)]
        simp only [SMap.get?, hk, if_false]
        exact ih
      · rw [List.filter_cons_of_neg (by exact hp), ih]
        simp only [SMap.get?, hk, if_false]

/-! ### The firmware slots under what ends with the power (R344 to R349, R473) -/

namespace State

/-! #### Records of command entries -/

@[simp] theorem slots_setReg (s : State) (r : Reg) (i : Nat) (v : Word) : (s.setReg r i v).slots = s.slots := rfl
@[simp] theorem slots_setFld (s : State) (r : Reg) (i hi lo x : Nat) : (s.setFld r i hi lo x).slots = s.slots := rfl
@[simp] theorem slots_modQueue (s : State) (q : Nat) (f : Queue → Queue) : (s.modQueue q f).slots = s.slots := rfl
@[simp] theorem slots_emit (s : State) (o : Out) : (s.emit o).slots = s.slots := rfl

theorem slots_of_sumpRaised {s t : State} (h : SumpRaised s t) : t.slots = s.slots := (congrArg State.slots h.frame :)

theorem slots_rekey (key : Nat) (gs : List Nat) (s : State) : (s.rekey key gs).slots = s.slots := by
  induction gs generalizing s with
  | nil => rfl
  | cons g gs ih =>
    simp only [rekey]
    split
    · exact ih s
    · exact (ih _).trans rfl

@[simp] theorem slots_cisWrite (s : State) (a : Nat) (bs : List Byte) (poison : Bool) :
    (s.cisWrite a bs poison).slots = s.slots := slots_rekey ..

theorem slots_askAts (s : State) (ctx h : Nat) : (s.askAts ctx h).slots = s.slots := by
  unfold askAts
  dsimp only
  split <;> rfl

@[simp] theorem slots_hostSend (s : State) (port ctx h : Nat) (bs : List Byte) (poison : Bool) :
    (s.hostSend port ctx h bs poison).slots = s.slots := slots_askAts ..

theorem slots_orderPorts {s t : State} {port : Nat} {mine : Nat → Bool} (h : s.orderPorts port mine = some t) :
    t.slots = s.slots := by
  unfold orderPorts at h
  dsimp only at h
  split at h
  · cases h
    rfl
  · split at h
    · cases h
      rfl
    · cases h

theorem slots_portFor {s t : State} {port ctx : Nat} {follows : Bool} (h : s.portFor port ctx follows = some t) :
    t.slots = s.slots := by
  unfold portFor at h
  split at h
  · cases h
  · split at h
    · exact slots_orderPorts h
    · cases h
      rfl

@[simp] theorem slots_msix (s : State) (port fn vec : Nat) : (s.msix port fn vec).slots = s.slots := by
  unfold msix
  dsimp only
  split
  · next t ht =>
    split at ht
    · cases ht
    · exact (slots_emit ..).trans (slots_orderPorts ht)
  · rfl

theorem slots_xlateEngine {s t : State} {st : Stream} {ctx va : Nat} {write : Bool} {x : Except Code Leaf}
    (h : s.xlateEngine st ctx va write = (x, t)) : t.slots = s.slots := by
  have hwalk : (s.walk st ctx va write).2.slots = s.slots := rfl
  unfold xlateEngine at h
  split at h
  · cases h
    rfl
  · split at h
    all_goals
      next hw =>
        cases h
        rw [hw] at hwalk
        exact hwalk

@[simp] theorem slots_recorded (s : State) (q : Nat) (r : Rec) : (s.recorded q r).slots = s.slots := by
  unfold recorded
  dsimp only
  split
  · split <;> rfl
  · rfl

@[simp] theorem slots_signalRec (s : State) (q : Nat) (r : Rec) : (s.signalRec q r).slots = s.slots := by
  unfold signalRec
  dsimp only
  split
  · exact slots_msix ..
  · rfl

theorem slots_ringWrite {s t : State} {q : Nat} {r : Rec} (h : s.ringWrite q r = some t) : t.slots = s.slots := by
  unfold ringWrite at h
  extract_lets ctx x va bs next at h
  have hnext (u : State) : (next u).slots = u.slots := (slots_signalRec ..).trans (slots_recorded ..)
  split at h
  · cases h
  · next l u hx =>
    have hu : u.slots = s.slots := slots_xlateEngine hx
    split at h
    · split at h
      · cases h
        rw [hnext, slots_cisWrite, hu]
      · cases h
    · split at h
      · obtain ⟨v, hv, rfl⟩ := Option.map_eq_some_iff.mp h
        rw [hnext, slots_hostSend, slots_portFor hv, hu]
      · cases h
    · cases h

theorem slots_spillWrite {s t : State} {q : Nat} {r : Rec} (h : s.spillWrite q r = some t) : t.slots = s.slots := by
  unfold spillWrite at h
  dsimp only at h
  split at h
  · cases h
  · cases h
    rw [slots_recorded, slots_setReg, slots_cisWrite]

theorem slots_spillMsg (s : State) : s.spillMsg.slots = s.slots := slots_msix ..

theorem slots_raise (s : State) (kind inst : Nat) (status : Code) (action : Nat) (ctx : Option Nat)
    (launch loc detail count gen : Nat) :
    (s.raise kind inst status action ctx launch loc detail count gen).slots = s.slots := slots_of_sumpRaised (sumpRaised_raise ..)

theorem slots_blockQueue (s : State) (q : Nat) : (s.blockQueue q).slots = s.slots := by
  unfold blockQueue
  extract_lets va u
  rw [slots_spillMsg, slots_raise, slots_modQueue]

/-
The kernel must not compare the matches of `placeRec` with what they match on in place: it would evaluate conditions on numbers of 2^12
and more. The places that a record can go to are therefore generalised before the matches on them are reduced.
-/

theorem slots_placeRec {s t : State} {q : Nat} {r : Rec} (h : s.placeRec q r = some t) : t.slots = s.slots := by
  have hring : ∀ u, s.ringWrite q r = some u → u.slots = s.slots := fun _ => slots_ringWrite
  have hblock := slots_blockQueue (if s.ringRefused q then s.protEvt else s) q
  have hsame : (if s.ringRefused q then s.protEvt else s).slots = s.slots := by split <;> rfl
  rw [hsame] at hblock
  delta placeRec at h
  generalize s.ringWrite q r = written at h hring
  generalize (if s.ringRefused q then s.protEvt else s).blockQueue q = u at h hblock
  have hspill : ∀ v, u.spillWrite q r = some v → v.slots = u.slots := fun _ => slots_spillWrite
  dsimp only at h
  generalize u.spillWrite q r = spilled at h hspill
  by_cases hblk : (s.queue q).fetch = .blocked
  · rw [if_pos hblk] at h
    exact slots_spillWrite h
  rw [if_neg hblk] at h
  by_cases hfull : s.cqFull q = true
  · rw [if_pos hfull] at h
    cases h
  rw [if_neg hfull] at h
  cases written with
  | some v => exact hring t h
  | none =>
    cases spilled with
    | some v => exact (hspill t h).trans hblock
    | none =>
      rw [← Option.some.inj h]
      exact (slots_modQueue u q _).trans hblock

theorem slots_flushBuf (q n : Nat) : ∀ s : State, (s.flushBuf q n).slots = s.slots := by
  induction n with
  | zero => exact fun _ => rfl
  | succ n ih =>
    intro s
    unfold flushBuf
    split
    · rfl
    · split
      · rfl
      · next ht =>
        have hplaced := slots_placeRec ht
        split
        · exact (ih _).trans hplaced
        · exact hplaced

@[simp] theorem slots_post (s : State) (q : Nat) (r : Rec) : (s.post q r).slots = s.slots := by
  unfold post
  dsimp only
  split
  · exact slots_flushBuf ..
  · rfl

theorem slots_foldl {α : Type} {f : State → α → State} (hf : ∀ s x, (f s x).slots = s.slots) (l : List α) (s : State) :
    (l.foldl f s).slots = s.slots :=
  List.foldlRecOn (motive := fun t : State => t.slots = s.slots) l f rfl fun t ht x _ => (hf t x).trans ht

theorem slots_cmdEnd (s : State) (kind unit : Nat) (code : Code) : (s.cmdEnd kind unit code).slots = s.slots :=
  slots_foldl (fun _ _ => slots_post ..) _ _

theorem slots_migFail (s : State) (m : Nat) (x : Mig) (code : Code) : (s.migFail m x code).slots = s.slots := slots_cmdEnd ..

/-! #### The well's power-loss sequence (R276) -/

theorem slots_ackPage (s : State) (id : Nat) : (s.ackPage id).slots = s.slots := (congrArg State.slots (ackPage_frame s id) :)

theorem slots_checkFree (s : State) {h : Nat} (hh : h < 1048576) : (s.checkFree h).slots = s.slots :=
  (congrArg State.slots (ModeOnly.checkFree hh s).half.frame :)

theorem slots_drainWell (s : State) {h : Nat} (hh : h < 1048576) (marker : Nat) : (s.drainWell h marker).slots = s.slots := by
  unfold drainWell
  extract_lets w
  dsimp only
  split
  · exact (slots_foldl slots_ackPage _ _).trans (slots_checkFree _ hh)
  · exact slots_checkFree _ hh

theorem slots_stopWell (s : State) (marker : Nat) : (s.stopWell marker).slots = s.slots := by
  unfold stopWell
  split
  · exact (slots_drainWell _ (by decide) _).trans (slots_drainWell _ (by decide) _)
  · rfl

end State

end Sys2Proof.Machine

/-!
PROOFS. The statements of boot, continued: the dies lose power, and the cold boot (O51).
-/

namespace Sys2Proof.Machine

open State

/-! ### The module without its dies (R438, R440, R473) -/

namespace State

theorem regsOnly_setReg {rs : List Reg} {r : Reg} {i : Nat} (hr : r ∈ rs) (hi : i < 1048576) (s : State) (v : Word) :
    RegsOnly rs s (s.setReg r i v) := ⟨rfl, (RegsKept.refl rs s).setReg hr hi v⟩

theorem regsOnly_setFld {rs : List Reg} {r : Reg} {i : Nat} (hr : r ∈ rs) (hi : i < 1048576) (s : State) (hi' lo x : Nat) :
    RegsOnly rs s (s.setFld r i hi' lo x) := regsOnly_setReg hr hi s _

/-- What the loss of the dies leaves: nothing of the cores and the cistern, and the boot flash, the host and SEC_STATE as they
were. -/
structure DieLost (s t : State) : Prop where
  cores : t.cores = []
  cis : t.cis = []
  slots : t.slots = s.slots
  bootDescs : t.bootDescs = s.bootDescs
  topology : t.topology = s.topology
  partition_ : t.partition = s.partition
  outbox : t.outbox = s.outbox
  host : t.host = s.host
  sec : t.reg .secState 0 = s.reg .secState 0

theorem DieLost.regsOnly {rs : List Reg} {s t u : State} (h : DieLost s t) (h' : RegsOnly rs t u) (hrs : .secState ∉ rs) :
    DieLost s u := by
  obtain ⟨hframe, hkept⟩ := h'
  constructor
  case sec => exact (hkept _ _ hrs (by decide)).trans h.sec
  case cores => exact (congrArg State.cores hframe :).trans h.cores
  case cis => exact (congrArg State.cis hframe :).trans h.cis
  case slots => exact (congrArg State.slots hframe :).trans h.slots
  case bootDescs => exact (congrArg State.bootDescs hframe :).trans h.bootDescs
  case topology => exact (congrArg State.topology hframe :).trans h.topology
  case partition_ => exact (congrArg State.partition hframe :).trans h.partition_
  case outbox => exact (congrArg State.outbox hframe :).trans h.outbox
  case host => exact (congrArg State.host hframe :).trans h.host

/-- The keeper holds SEC_STATE. -/
theorem keeperRegs_secState : keeperRegs.contains (Reg.secState.key 0 / 1048576) = true := by decide

theorem dieLost_dieless (s : State) : s.DieLost s.dieless := by
  unfold dieless
  extract_lets kept fresh s1 s2
  have hs1 : s.DieLost s1 := by
    constructor
    case sec =>
      exact congrArg (Option.getD · _)
        (SMap.get?_filter_key (p := fun k => keeperRegs.contains (k / 1048576)) keeperRegs_secState s.regs)
    all_goals rfl
  clear_value s1
  have hparked : RegsOnly [.kpcClst] s1 s2 := by
    refine RegsOnly.foldl _ (fun t n hn ht => ht.trans ?_) (.refl _ s1)
    have hlt := List.mem_range.mp hn
    exact regsOnly_setFld (by decide) (by omega) ..
  clear_value s2
  exact (hs1.regsOnly hparked (by decide)).regsOnly (regsOnly_setReg (rs := [.resetState]) (by decide) (by decide) ..) (by decide)

/-- No die has power (R447, R473). -/
structure PoweredDown (s t : State) : Prop where
  power : t.power = .keeper
  stage : t.stage = 1
  cores : t.cores = []
  cis : t.cis = []
  slots : t.slots = s.slots

theorem poweredDown_of_dieLost {s t : State} (h : DieLost s t) :
    PoweredDown s { t.setFld .secState 0 17 14 1 with power := .keeper, bootDue := false } where
  power := rfl
  stage := fld_setFld_self t .secState 0 1 (hi := 17) (lo := 14) (by decide) (by decide)
  cores := h.cores
  cis := h.cis
  slots := h.slots

theorem poweredDown_powerDown (s : State) : s.PoweredDown s.powerDown := by
  have hfails := slots_foldl (fun t (kv : Nat × Mig) => slots_migFail t kv.1 kv.2 .aborted) s.migs s
  unfold powerDown
  generalize s.migs.foldl (fun (t : State) (kv : Nat × Mig) => t.migFail kv.1 kv.2 .aborted) s = u at hfails ⊢
  have hdown := poweredDown_of_dieLost (dieLost_dieless u)
  exact { hdown with slots := hdown.slots.trans hfails }

end State

end Sys2Proof.Machine

/-!
PROOFS. The statements of boot, continued: the steps of the cold boot keep what the boot has measured (O51).
-/

namespace Sys2Proof.Machine

open State

namespace State

/-! ### What the steps of the cold boot keep (R455 to R459) -/

theorem fld_setFld_apart (s : State) (r : Reg) (i x : Nat) {hi lo hi' lo' : Nat} (h : lo ≤ hi) (hhi : hi < 32) (hlo' : lo' ≤ hi')
    (hapart : hi' < lo ∨ hi < lo') : (s.setFld r i hi lo x).fld r i hi' lo' = s.fld r i hi' lo' := by
  rw [fld, setFld, reg_setReg_self, BitVec.toNat_ofNat, Nat.mod_eq_of_lt (setBits_lt h (s.reg r i).isLt hhi),
    bitsOf_setBits_apart _ _ h hlo' hapart, fld]

/-- `t` is `s` after steps of the boot: only registers and the sump differ, and of SEC_STATE at most TOPOLOGY_BAD. -/
structure BootKept (s t : State) : Prop where
  frame : { t with regs := s.regs, free := s.free, sump := s.sump, sumpIrq := s.sumpIrq } = s
  sec : ∀ hi lo, lo ≤ hi → hi < 18 → t.fld .secState 0 hi lo = s.fld .secState 0 hi lo

namespace BootKept

variable {s t u : State} {r : Reg} {i : Nat}

theorem refl (s : State) : BootKept s s := ⟨rfl, fun _ _ _ _ => rfl⟩

theorem trans (h : BootKept s t) (h' : BootKept t u) : BootKept s u where
  frame := (congrArg (fun x : State => { x with regs := s.regs, free := s.free, sump := s.sump, sumpIrq := s.sumpIrq })
    h'.frame).trans h.frame
  sec hi lo hle hlt := (h'.sec hi lo hle hlt).trans (h.sec hi lo hle hlt)

theorem foldl {α : Type} {f : State → α → State} (l : List α) (hf : ∀ t, ∀ x ∈ l, BootKept s t → BootKept t (f t x))
    (h : BootKept s t) : BootKept s (l.foldl f t) :=
  List.foldlRecOn (motive := fun u => BootKept s u) l f h fun u hu x hx => hu.trans (hf u x hx hu)

theorem setReg (s : State) (hr : .secState ≠ r) (hi : i < 1048576) (v : Word) : BootKept s (s.setReg r i v) where
  frame := rfl
  sec hi' lo _ _ := by rw [fld, reg_setReg_apart s v (.inl hr) hi (by decide), fld]

theorem setFld (s : State) (hr : .secState ≠ r) (hi : i < 1048576) (hi' lo x : Nat) : BootKept s (s.setFld r i hi' lo x) :=
  setReg s hr hi _

theorem setFlag (s : State) (hr : .secState ≠ r) (hi : i < 1048576) (b : Nat) (x : Bool) : BootKept s (s.setFlag r i b x) :=
  setReg s hr hi _

theorem of_sumpRaised (h : SumpRaised s t) : BootKept s t where
  frame := (congrArg (fun x : State => { x with free := s.free }) h.frame :)
  sec hi lo _ _ := h.kept.fld (by decide) (by decide) hi lo

theorem draw (s : State) : BootKept s { s with free := s.free + 1 } := ⟨rfl, fun _ _ _ _ => rfl⟩

theorem raiseFree (s : State) (kind inst action : Nat) (ctx : Option Nat) (launch loc detail gen : Nat) :
    BootKept s (s.raiseFree kind inst action ctx launch loc detail gen) :=
  (draw s).trans (of_sumpRaised (sumpRaised_raise ..))

end BootKept

/-! #### The topology and the partition (R457) -/

theorem bootKept_noTopology (s : State) : BootKept s s.noTopology := by
  have hbad : BootKept (s.setFld .xltNode 0 11 0 0) ((s.setFld .xltNode 0 11 0 0).setFlag .secState 0 18 true) :=
    ⟨rfl, fun hi lo hle hlt => fld_setFld_apart _ _ _ _ le_rfl (by decide) hle (.inl hlt)⟩
  refine BootKept.foldl _ (fun t l hl _ => ?_) ((BootKept.setFld s (by decide) (by decide) ..).trans hbad)
  have hlt := List.mem_range.mp hl
  exact .setFld t (by decide) (by omega) ..

theorem bootKept_bootTopology (s : State) : BootKept s s.bootTopology := by
  unfold bootTopology
  split
  · next e _ =>
    split
    · dsimp only
      refine BootKept.foldl _ (fun t x _ _ => .setReg t (by decide) (by omega) _) ?_
      refine BootKept.foldl _ (fun t x hx _ => .setReg t (by decide) ?_ _) (.setFld s (by decide) (by decide) ..)
      have hlt := (List.mem_zipIdx hx).2.1
      have hlen := List.length_take_le 36 e.nbrs
      omega
    · exact bootKept_noTopology s
  · exact bootKept_noTopology s

theorem bootKept_bootPartition (s : State) : BootKept s s.bootPartition := by
  unfold bootPartition
  extract_lets holds
  split
  dsimp only
  refine BootKept.foldl _ (fun t p hp _ => ?_) ?_
  · have hlt := List.mem_range.mp hp
    exact .setReg t (by decide) (by omega) _
  · exact ((BootKept.setReg s (by decide) (by decide) _).trans (.setReg _ (by decide) (by decide) _)).trans
      (.setFlag _ (by decide) (by decide) ..)

end State

end Sys2Proof.Machine

/-!
PROOFS. The statements of boot, continued: spares, fences and the training of the cistern, and the cold boot (O51).
-/

namespace Sys2Proof.Machine

open State

namespace State

/-! ### Spares and fences at the boot (R431 to R433) -/

section

variable {n : Nat} (hn : n < 144)
include hn

theorem bootKept_retireCluster (s : State) : BootKept s (s.retireCluster n) := by
  unfold retireCluster
  split
  · exact .refl s
  · exact ((BootKept.setFld s (by decide) (by omega) ..).trans (.setFld _ (by decide) (by decide) ..)).trans (.raiseFree ..)

theorem bootKept_claimSpare {s t : State} (h : s.claimSpare n = some t) : BootKept s t := by
  unfold claimSpare at h
  dsimp only at h
  split at h
  · rw [← Option.some.inj h]
    exact ((BootKept.setFlag s (by decide) (by decide) ..).trans (.setFld _ (by decide) (by omega) ..)).trans (.raiseFree ..)
  · cases h

theorem bootKept_failCluster (s : State) : BootKept s (s.failCluster n) := by
  unfold failCluster
  split
  · exact .refl s
  · exact .setFlag s (by decide) (by omega) ..
  · split
    · next t ht => exact (bootKept_claimSpare hn ht).trans (.setFlag t (by decide) (by omega) ..)
    · exact bootKept_retireCluster hn s

theorem bootKept_replaceSpare (spareFail : List Nat) (s : State) : BootKept s (replaceSpare spareFail s n) := by
  unfold replaceSpare
  split
  · exact .refl s
  · extract_lets d idx s1 s2
    have hs2 : BootKept s s2 :=
      (((BootKept.setFld s (by decide) (by decide) ..).trans (.setFld _ (by decide) (by omega) ..)).trans
        (.setFld _ (by decide) (by omega) ..)).trans (.setFld _ (by decide) (by omega) ..)
    split
    · exact hs2.trans (bootKept_retireCluster hn s2)
    · exact hs2

end

/-- No launch ends while there are no cores. -/
theorem endLaunchOf_coreless {s : State} (hs : s.cores = []) (p : Nat) (code : Code) : s.endLaunchOf p code = s := by
  unfold endLaunchOf core
  rw [hs]
  rfl

theorem BootKept.cores {s t : State} (h : BootKept s t) : t.cores = s.cores := (congrArg State.cores h.frame :)

/-- The fence of a core while no launch runs. -/
theorem bootKept_fence {s : State} (hs : s.cores = []) (p kind loc detail : Nat) : BootKept s (s.fence p kind loc detail) := by
  unfold fence
  split
  · exact .refl s
  · next n hfind =>
    have hn : n < 144 := List.mem_range.mp (List.mem_of_find?_eq_some hfind)
    split
    · exact .refl s
    · extract_lets u t v
      have hmark : BootKept s u := (BootKept.setFlag s (by decide) (by omega) ..).trans (.raiseFree ..)
      clear_value u
      have ht : t = u := endLaunchOf_coreless (hmark.cores.trans hs) p .aborted
      clear_value t
      subst ht
      have hv : BootKept s v := by
        unfold v
        split
        · split
          · next w hw => exact hmark.trans (bootKept_claimSpare hn hw)
          · exact hmark.trans (.setFld t (by decide) (by omega) ..)
        · exact hmark
      split
      · exact hv.trans (bootKept_failCluster hn v)
      · exact hv

/-! ### Training of the cistern (R244) -/

/-- Every lane of a sub-channel has margin enough. -/
theorem trainSub_good {y : Eyes} (hlanes : y.lanes = []) (hrest : 12 ≤ y.rest) (k : Nat) : trainSub y k 15 = some 15 := by
  have hweak : weakLanes y k 15 = [] := by
    refine List.filter_eq_nil_iff.mpr fun l hl => ?_
    have hlt := List.mem_range.mp hl
    have heye : eye y k l = y.rest := by simp [eye, hlanes]
    simp [heye]
    omega
  rw [trainSub, hweak]

theorem bootKept_trainChannel {y : Eyes} (hlanes : y.lanes = []) (hrest : 12 ≤ y.rest) {ch : Nat} (hch : ch < 48) (s : State) :
    ∃ t, s.trainChannel y ch true = some t ∧ BootKept s t := by
  unfold trainChannel
  dsimp only
  rw [if_pos rfl, if_pos rfl, trainSub_good hlanes hrest, trainSub_good hlanes hrest]
  exact ⟨_, rfl, ((BootKept.setFld s (by decide) (by omega) ..).trans (.setFlag _ (by decide) (by omega) ..)).trans
    (.setFld _ (by decide) (by omega) ..)⟩

/-- A channel's turn at the training of the cold boot. -/
def trainStep (y : Eyes) (a : State × Bool) (ch : Nat) : State × Bool :=
  ((a.1.trainChannel y ch true).getD a.1, (a.1.trainChannel y ch true).isSome && a.2)

theorem bootKept_trainAll {y : Eyes} (hlanes : y.lanes = []) (hrest : 12 ≤ y.rest) {l : List Nat} (hl : ∀ ch ∈ l, ch < 48)
    (s : State) : ∃ t, BootKept s t ∧ l.foldl (trainStep y) (s, true) = (t, true) := by
  induction l generalizing s with
  | nil => exact ⟨s, .refl s, rfl⟩
  | cons ch l ih =>
    obtain ⟨u, hu, hkept⟩ := bootKept_trainChannel hlanes hrest (hl ch List.mem_cons_self) s
    obtain ⟨t, ht, heq⟩ := ih (fun x hx => hl x (List.mem_cons_of_mem _ hx)) u
    have hstep : trainStep y (s, true) ch = (u, true) := by simp [trainStep, hu]
    exact ⟨t, hkept.trans ht, by rw [List.foldl_cons, hstep, heq]⟩

theorem bootCistern_eq (s : State) (y : Eyes) :
    s.bootCistern y = if ((List.range 48).foldl (trainStep y) (s, true)).2 then
      { ((List.range 48).foldl (trainStep y) (s, true)).1.setFlag .cisState 0 0 true with mountDue := true }
    else (((List.range 48).foldl (trainStep y) (s, true)).1.setFlag .cisState 0 3 true).setFld .secState 0 17 14 5 := by
  have hstep : trainStep y = fun (a : State × Bool) ch => match a.1.trainChannel y ch true with
      | some s => (s, a.2)
      | none => (a.1, false) := by
    funext a ch
    unfold trainStep
    cases a.1.trainChannel y ch true <;> rfl
  rw [hstep]
  rfl

/-- The cistern trains, and the well's mount is due. -/
theorem bootKept_bootCistern {y : Eyes} (hlanes : y.lanes = []) (hrest : 12 ≤ y.rest) (s : State) :
    ∃ t, BootKept s t ∧ s.bootCistern y = { t with mountDue := true } := by
  obtain ⟨t, ht, heq⟩ := bootKept_trainAll hlanes hrest (fun _ h => List.mem_range.mp h) s (l := List.range 48)
  rw [bootCistern_eq, heq, if_pos rfl]
  exact ⟨_, ht.trans (.setFlag t (by decide) (by decide) 0 true), rfl⟩

end State

end Sys2Proof.Machine

/-!
PROOFS. The statements of boot, continued: the cold boot (O51).
-/

namespace Sys2Proof.Machine

open State

namespace State

/-! ### The image that the cold boot runs (R455, R456, R459) -/

/-- Steps 4 and 5 of the cold boot: the dies have power, and the image of a slot and the tables are measured. -/
def bootMeasured (s : State) (k : Nat) : State :=
  ({ s with
    power := .on
    fwDigest := (s.slotImage k).digest
    topoDigest := ((s.topology.get? s.slotId).map fun (e : TopoEntry) => e.digest).getD (Config.shake256 [] 64)
    partDigest := Config.shake256 s.partition.bytes 64 } : State).firstDigest.setReg .secState 0
    (BitVec.ofNat 32 (k + 2 * bit (s.accepts (s.slotImage (1 - k))) + 2 ^ 2 * s.svnFuse + 2 ^ 8 * (s.slotImage k).svn.toNat +
      2 ^ 14 * 4))

theorem bootWith_spec {s : State} (hcores : s.cores = []) (k : Nat) {y : BootTests} (hlanes : y.eyes.lanes = [])
    (hrest : 12 ≤ y.eyes.rest) : ∃ u, BootKept (s.bootMeasured k) u ∧ s.bootWith k y = { u with mountDue := true } := by
  have hmeasured : (s.bootMeasured k).cores = [] := hcores
  have heq : s.bootWith k y = ((y.coreFail.foldl (fun t c => t.fence c.val) ((List.range 144).foldl
      (replaceSpare (y.spareFail.map Fin.val)) (((s.bootMeasured k).bootTopology.bootPartition.cages.filter fun kv => kv.2 == 2).foldl
        (fun t kv => t.raiseFree 0x05 (4 * kv.1) 0x01 none 0 0 kv.1) (s.bootMeasured k).bootTopology.bootPartition))).bootCistern
          y.eyes) := rfl
  rw [heq]
  generalize s.bootMeasured k = m at hmeasured ⊢
  have htables : BootKept m m.bootTopology.bootPartition := (bootKept_bootTopology m).trans (bootKept_bootPartition _)
  generalize m.bootTopology.bootPartition = m1 at htables ⊢
  have hcages := BootKept.foldl (m1.cages.filter fun kv => kv.2 == 2)
    (f := fun t kv => t.raiseFree 0x05 (4 * kv.1) 0x01 none 0 0 kv.1) (fun t _ _ _ => .raiseFree t ..) htables
  generalize (m1.cages.filter fun kv => kv.2 == 2).foldl (fun t kv => t.raiseFree 0x05 (4 * kv.1) 0x01 none 0 0 kv.1) m1 = m2
    at hcages ⊢
  have hspares := BootKept.foldl (List.range 144) (f := replaceSpare (y.spareFail.map Fin.val))
    (fun t n hn _ => bootKept_replaceSpare (List.mem_range.mp hn) _ t) hcages
  generalize (List.range 144).foldl (replaceSpare (y.spareFail.map Fin.val)) m2 = m3 at hspares ⊢
  have hfences := BootKept.foldl y.coreFail (f := fun t c => t.fence c.val)
    (fun t c _ ht => bootKept_fence (ht.cores.trans hmeasured) ..) hspares
  obtain ⟨u, hu, hboot⟩ := bootKept_bootCistern hlanes hrest (y.coreFail.foldl (fun t c => t.fence c.val) m3)
  exact ⟨u, hfences.trans hu, hboot⟩

/-- The fields of SEC_STATE as the boot writes them. -/
theorem bitsOf_secState {k other fuse svn : Nat} (hk : k < 2) (ho : other < 2) (hf : fuse < 64) (hs : svn < 64) (v : Nat)
    (hv : v = k + 2 * other + 2 ^ 2 * fuse + 2 ^ 8 * svn + 2 ^ 14 * 4) :
    bitsOf v 0 0 = k ∧ bitsOf v 7 2 = fuse ∧ bitsOf v 13 8 = svn ∧ bitsOf v 17 14 = 4 := by
  subst hv
  simp only [bitsOf, Nat.shiftRight_eq_div_pow]
  omega

theorem fld_setReg_self (s : State) (r : Reg) (i v hi lo : Nat) (hv : v < 2 ^ 32) :
    (s.setReg r i (BitVec.ofNat 32 v)).fld r i hi lo = bitsOf v hi lo := by
  rw [fld, reg_setReg_self, BitVec.toNat_ofNat, Nat.mod_eq_of_lt hv]

theorem svnFuse_lt (s : State) : s.svnFuse < 64 := Nat.mod_lt _ (by decide)

theorem accepts_svn {s : State} {i : FwImage} (h : s.accepts i = true) : i.svn.toNat < 64 := by
  simp only [accepts, Bool.and_eq_true, decide_eq_true_eq] at h
  omega

theorem secState_bootMeasured (s : State) {k : Nat} (hk : k < 2) (hacc : s.accepts (s.slotImage k) = true) :
    (s.bootMeasured k).slotRun = k ∧ (s.bootMeasured k).svnFuse = s.svnFuse ∧
      (s.bootMeasured k).svnImage = (s.slotImage k).svn.toNat ∧ (s.bootMeasured k).stage = 4 := by
  have hfuse := s.svnFuse_lt
  have hsvn := accepts_svn hacc
  have hother : bit (s.accepts (s.slotImage (1 - k))) < 2 := by unfold bit; split <;> decide
  unfold bootMeasured slotRun svnImage stage
  generalize s.svnFuse = fuse at hfuse ⊢
  generalize (s.slotImage k).svn.toNat = svn at hsvn ⊢
  generalize bit (s.accepts (s.slotImage (1 - k))) = other at hother ⊢
  rw [svnFuse, fld_setReg_self _ _ _ _ _ _ (by omega), fld_setReg_self _ _ _ _ _ _ (by omega),
    fld_setReg_self _ _ _ _ _ _ (by omega), fld_setReg_self _ _ _ _ _ _ (by omega)]
  exact bitsOf_secState hk hother hfuse hsvn _ rfl

end State

end Sys2Proof.Machine

/-!
PROOFS. The statements of boot, continued: the slot that the cold boot runs, or neither (O51).
-/

namespace Sys2Proof.Machine

open State

namespace State

/-! ### The slots after the dies are lost (R438, R453) -/

namespace DieLost

variable {s t : State} (h : DieLost s t)
include h

theorem svnFuse : t.svnFuse = s.svnFuse := by rw [State.svnFuse, fld, h.sec, State.svnFuse, fld]

theorem accepts (i : FwImage) : t.accepts i = s.accepts i := by rw [State.accepts, h.svnFuse, State.accepts]

theorem slotImage (k : Nat) : t.slotImage k = s.slotImage k := by rw [State.slotImage, h.slots, State.slotImage]

theorem slotPref : t.slotPref = s.slotPref := by rw [State.slotPref, bootDesc, h.bootDescs, State.slotPref, bootDesc]

end DieLost

/-- The module at the start of a cold boot (R440, R478). -/
def bootStart (s : State) (slotId : Nat) : State :=
  { s.dieless with slotId := slotId, tripPin := false, bootDue := false, sessions := [] }

theorem DieLost.starts {s d : State} (h : DieLost s d) (slotId : Nat) :
    DieLost s { d with slotId := slotId, tripPin := false, bootDue := false, sessions := [] } :=
  ⟨h.cores, h.cis, h.slots, h.bootDescs, h.topology, h.partition_, h.outbox, h.host, h.sec⟩

theorem dieLost_bootStart (s : State) (slotId : Nat) : s.DieLost (s.bootStart slotId) := (dieLost_dieless s).starts slotId

/-- The module runs the image of slot `k` (R455, R456, R459). -/
structure Booted (s : State) (k : Nat) (u : State) : Prop where
  power : u.power = .on
  stage : u.stage = 4
  slotRun : u.slotRun = k
  svnFuse : u.svnFuse = s.svnFuse
  svnImage : u.svnImage = (s.slotImage k).svn.toNat
  bootDue : u.bootDue = s.bootDue
  cores : u.cores = s.cores
  cis : u.cis = s.cis
  digN : u.digN = 0
  digQ : u.digQ = []
  digD : u.digD = Config.shake256 (Config.romDigest ++ (s.slotImage k).digest ++ u.topoDigest ++
    Config.shake256 s.partition.bytes 64) 48

theorem booted_bootMeasured (s : State) {k : Nat} (hk : k < 2) (hacc : s.accepts (s.slotImage k) = true) :
    Booted s k (s.bootMeasured k) := by
  obtain ⟨hrun, hfuse, himage, hstage⟩ := secState_bootMeasured s hk hacc
  exact ⟨rfl, hstage, hrun, hfuse, himage, rfl, rfl, rfl, rfl, rfl, rfl⟩

theorem Booted.kept {s t u : State} {k : Nat} (h : Booted s k t) (h' : BootKept t u) :
    Booted s k { u with mountDue := true } where
  power := (congrArg State.power h'.frame :).trans h.power
  stage := (h'.sec 17 14 (by decide) (by decide)).trans h.stage
  slotRun := (h'.sec 0 0 (by decide) (by decide)).trans h.slotRun
  svnFuse := (h'.sec 7 2 (by decide) (by decide)).trans h.svnFuse
  svnImage := (h'.sec 13 8 (by decide) (by decide)).trans h.svnImage
  bootDue := (congrArg State.bootDue h'.frame :).trans h.bootDue
  cores := h'.cores.trans h.cores
  cis := (congrArg State.cis h'.frame :).trans h.cis
  digN := (congrArg State.digN h'.frame :).trans h.digN
  digQ := (congrArg State.digQ h'.frame :).trans h.digQ
  digD := by
    have hdig : u.digD = t.digD := (congrArg State.digD h'.frame :)
    have htopo : u.topoDigest = t.topoDigest := (congrArg State.topoDigest h'.frame :)
    exact (hdig.trans h.digD).trans (by rw [htopo])

theorem booted_bootWith {s : State} (hcores : s.cores = []) {k : Nat} (hk : k < 2) (hacc : s.accepts (s.slotImage k) = true)
    {y : BootTests} (hlanes : y.eyes.lanes = []) (hrest : 12 ≤ y.eyes.rest) : Booted s k (s.bootWith k y) := by
  obtain ⟨u, hu, heq⟩ := bootWith_spec hcores k hlanes hrest
  rw [heq]
  exact (booted_bootMeasured s hk hacc).kept hu

/-- The module shows what failed when it accepts neither image (R455). -/
def bootRefused (s : State) (k : Nat) : State :=
  ((({ s with power := .keeper } : State).setReg .secState 0 (BitVec.ofNat 32 (2 ^ 2 * s.svnFuse + 2 ^ 14 * 6))).emit
    (.response 0 .signature (leBytes 1 k))).emit (.response 0 .signature (leBytes 1 (1 - k)))

theorem coldBoot_eq (s : State) (slotId : Nat) (y : BootTests) : s.coldBoot slotId y =
    if s.accepts (s.slotImage (s.slotPref % 2)) then (s.bootStart slotId).bootWith (s.slotPref % 2) y
    else if s.accepts (s.slotImage (1 - s.slotPref % 2)) then (s.bootStart slotId).bootWith (1 - s.slotPref % 2) y
    else (s.bootStart slotId).bootRefused (s.slotPref % 2) := by
  have h := dieLost_bootStart s slotId
  rw [← h.slotPref, ← h.slotImage, ← h.slotImage, ← h.accepts, ← h.accepts]
  rfl

/-- The preferred slot is tried first (R455). -/
theorem coldBoot_bootWith {s : State} {m : Nat} (slotId : Nat) (y : BootTests) (hm : m < 2)
    (hacc : s.accepts (s.slotImage m) = true) (hfirst : m = s.slotPref % 2 ∨ s.accepts (s.slotImage (s.slotPref % 2)) = false) :
    s.coldBoot slotId y = (s.bootStart slotId).bootWith m y := by
  rw [coldBoot_eq]
  rcases hfirst with rfl | hpref
  · rw [if_pos hacc]
  · have hother : m = 1 - s.slotPref % 2 := by
      by_contra hne
      have hmk : m = s.slotPref % 2 := by omega
      rw [hmk, hpref] at hacc
      cases hacc
    subst hother
    rw [hpref, if_neg Bool.false_ne_true, if_pos hacc]

theorem coldBoot_bootRefused {s : State} (slotId : Nat) (y : BootTests) (h0 : s.accepts (s.slotImage 0) = false)
    (h1 : s.accepts (s.slotImage 1) = false) : s.coldBoot slotId y = (s.bootStart slotId).bootRefused (s.slotPref % 2) := by
  have hnone : ∀ m, m < 2 → ¬ s.accepts (s.slotImage m) = true := by
    intro m hm hacc
    interval_cases m
    · rw [h0] at hacc
      cases hacc
    · rw [h1] at hacc
      cases hacc
  rw [coldBoot_eq, if_neg (hnone _ (Nat.mod_lt _ (by decide))), if_neg (hnone _ (by omega))]

theorem bootRefused_spec (s : State) (k : Nat) : (s.bootRefused k).power = .keeper ∧ (s.bootRefused k).stage = 6 ∧
    (s.bootRefused k).svnFuse = s.svnFuse ∧
    (s.bootRefused k).outbox = s.outbox ++ [.response 0 .signature (leBytes 1 k), .response 0 .signature (leBytes 1 (1 - k))] := by
  have hfuse := s.svnFuse_lt
  have hfld (hi lo : Nat) : (s.bootRefused k).fld .secState 0 hi lo = bitsOf (2 ^ 2 * s.svnFuse + 2 ^ 14 * 6) hi lo :=
    fld_setReg_self _ _ _ _ hi lo (by omega)
  refine ⟨rfl, ?_, ?_, List.append_assoc ..⟩
  · refine (hfld 17 14).trans ?_
    rw [bitsOf, Nat.shiftRight_eq_div_pow]
    omega
  · refine (hfld 7 2).trans ?_
    rw [bitsOf, Nat.shiftRight_eq_div_pow]
    omega

end State

end Sys2Proof.Machine

/-!
PROOFS. The statements of boot, continued: the loss of input power and of the keeper (O51).
-/

namespace Sys2Proof.Machine

open State

namespace State

/-! ### Power loss (R438, R473 to R475) -/

theorem execColdBoot_due {s : State} (slot : BitVec 8) (y : BootTests) (hdue : s.bootDue = true) (hlost : s.lost = false)
    (hpower : s.power ≠ .on) : exec (.coldBoot slot y) s = .next (s.coldBoot slot.toNat y) := by
  refine if_neg ?_
  simp [hdue, hlost, hpower]

theorem execPowerLossSignal_on {s : State} (hlost : s.lost = false) (hpower : s.power = .on) :
    ∃ u : State, u.slots = s.slots ∧ exec .powerLossSignal s = .next { u.powerDown with lost := true, bootDue := false } := by
  have hoff : ¬ (s.lost || s.power == .off) = true := by simp [hlost, hpower]
  have hstop : (if ({ s with free := s.free + 1 } : State).holdupOk || (Config.freeAt s.free 0).getLsbD 0
      then ({ s with free := s.free + 1 } : State).stopWell 2 else ({ s with free := s.free + 1 } : State)).slots = s.slots := by
    split
    · exact slots_stopWell _ _
    · rfl
  exact ⟨_, hstop, (if_neg hoff).trans (if_pos hpower)⟩

theorem execPowerLossSignal_keeper {s : State} (hlost : s.lost = false) (hpower : s.power = .keeper) :
    exec .powerLossSignal s = .next { s with lost := true, bootDue := false } := by
  have hoff : ¬ (s.lost || s.power == .off) = true := by simp [hlost, hpower]
  have hon : ¬ s.power = .on := by simp [hpower]
  exact (if_neg hoff).trans (if_neg hon)

/-- A state whose dies are lost and whose keeper has lost power too (R438). -/
structure KeeperOff (s t : State) : Prop where
  power : t.power = .off
  lost : t.lost = false
  bootDue : t.bootDue = true
  sump : t.sump = []
  cores : t.cores = []
  host : t.host = s.host
  slots : t.slots = s.slots
  bootDescs : t.bootDescs = s.bootDescs

theorem KeeperOff.regsOnly {rs : List Reg} {s t u : State} (h : KeeperOff s t) (h' : RegsOnly rs t u) : KeeperOff s u := by
  obtain ⟨hframe, -⟩ := h'
  constructor
  case power => exact (congrArg State.power hframe :).trans h.power
  case lost => exact (congrArg State.lost hframe :).trans h.lost
  case bootDue => exact (congrArg State.bootDue hframe :).trans h.bootDue
  case sump => exact (congrArg State.sump hframe :).trans h.sump
  case cores => exact (congrArg State.cores hframe :).trans h.cores
  case host => exact (congrArg State.host hframe :).trans h.host
  case slots => exact (congrArg State.slots hframe :).trans h.slots
  case bootDescs => exact (congrArg State.bootDescs hframe :).trans h.bootDescs

/-- The keeper's state without power, of the module without its dies. -/
theorem DieLost.keeperOff {s d : State} (h : DieLost s d) (t : State) (ht : t.power = .off ∧ t.lost = false ∧
    t.bootDue = true ∧ t.sump = [] ∧ t.cores = d.cores ∧ t.host = d.host ∧ t.slots = d.slots ∧
    t.bootDescs = d.bootDescs) : KeeperOff s t := by
  obtain ⟨hpower, hlost, hdue, hsump, hcores, hhost, hslots, hdescs⟩ := ht
  exact ⟨hpower, hlost, hdue, hsump, hcores.trans h.cores, hhost.trans h.host, hslots.trans h.slots, hdescs.trans h.bootDescs⟩

theorem regsOnly_fusedCluster {n : Nat} (hn : n < 144) (s : State) : RegsOnly [.glbClmap] s (fusedCluster s n) := by
  unfold fusedCluster
  dsimp only
  split
  · exact (regsOnly_setFld (by decide) (by omega) ..).trans (regsOnly_setFld (by decide) (by omega) ..)
  · exact regsOnly_setFld (by decide) (by omega) ..

/-- The fuses give the plans, the slow corner and SVN_FUSE back. -/
theorem KeeperOff.fused {s t : State} (h : KeeperOff s t) (plans svn : Nat) (slow : Bool) :
    KeeperOff s (((t.setFld .kpcMaintState 0 31 2 plans).setFlag .kpcState 0 0 slow).setFld .secState 0 7 2 svn) :=
  h.regsOnly (rs := [.kpcMaintState, .kpcState, .secState])
    (((regsOnly_setFld (by decide) (by decide) ..).trans (regsOnly_setReg (by decide) (by decide) ..)).trans
      (regsOnly_setFld (by decide) (by decide) ..))

theorem svnFuse_setFld (s : State) {svn : Nat} (h : svn < 64) : (s.setFld .secState 0 7 2 svn).svnFuse = svn :=
  (fld_setFld_self s _ _ _ (by decide) (by decide)).trans (Nat.mod_eq_of_lt h)

theorem keeperOff_keeperLost (s : State) : KeeperOff s s.keeperLost ∧ s.keeperLost.svnFuse = s.svnFuse := by
  unfold keeperLost
  extract_lets plans slow svn d s1 s2
  have hdies : s.DieLost d := dieLost_dieless s
  clear_value d
  have hs1 : KeeperOff s s1 := hdies.keeperOff s1 ⟨rfl, rfl, rfl, rfl, rfl, rfl, rfl, rfl⟩
  clear_value s1
  have hmap : RegsOnly [.glbClmap] s1 s2 :=
    RegsOnly.foldl _ (fun t n hn ht => ht.trans (regsOnly_fusedCluster (List.mem_range.mp hn) t)) (.refl _ s1)
  clear_value s2
  exact ⟨(hs1.regsOnly hmap).fused .., svnFuse_setFld _ s.svnFuse_lt⟩

end State

end Sys2Proof.Machine

/-!
PROOFS. The statements of boot, concluded: PERST#, firmware updates, and O51.
-/

namespace Sys2Proof.Machine

open State

namespace State

/-! ### PERST# (R479) -/

/-- Self-refresh takes the cistern's requests and keeps the rest (R255). -/
theorem selfRefresh_frame (s : State) :
    { s.selfRefresh with regs := s.regs, subs := s.subs, cisQ := s.cisQ, cisOut := s.cisOut } = s := by
  unfold selfRefresh
  split <;> rfl

theorem portUp_selfRefresh (s : State) (p : Nat) : s.selfRefresh.portUp p = s.portUp p := by
  unfold selfRefresh
  split
  · rfl
  · exact (flag_setReg_other _ (by decide) _ _ _).trans (flag_setReg_other _ (by decide) _ _ _)

/-- PERST# takes a port down, and its link's state with it. -/
def portReset (s : State) (p : Nat) : State := (s.portDown p).setFld .hifState 0 (16 * p + 9) (16 * p) 0

theorem portReset_frame (s : State) (p : Nat) :
    { s.portReset p with regs := s.regs, vfs := s.vfs, held := s.held } = s := rfl

theorem portUp_portReset (s : State) {p : Nat} (hp : p < 2) : (s.portReset p).portUp p = false := by
  rw [portUp, Nat.mod_eq_of_lt hp, portReset, flag_setFld_within _ _ _ _ le_rfl (by omega) (by omega), Nat.zero_testBit]

/-- A warm reset that is triggered. -/
theorem trigger_eq {s : State} (hwarm : s.warm = none) (hpower : s.power = .on) (cause : Nat) :
    trigger s cause = { s.selfRefresh with warm := some cause } := by
  refine if_neg ?_
  simp [hwarm, hpower]

theorem execPerstAssert_down {s : State} {port : Fin 2} (h : s.portUp port.val = false) :
    exec (.perstAssert port) s = .next { s with perst := setInsert s.perst port.val } :=
  if_neg (by rw [h]; exact Bool.false_ne_true)

theorem execPerstAssert_up {s : State} {port : Fin 2} (h : s.portUp port.val = true) : exec (.perstAssert port) s =
    .next (trigger (({ s with perst := setInsert s.perst port.val } : State).portReset port.val) 3) := if_pos h

theorem perstAssert_spec {s : State} {port : Fin 2} (hup : s.portUp port.val = true) (hwarm : s.warm = none)
    (hpower : s.power = .on) :
    ∃ t, exec (.perstAssert port) s = .next t ∧ t.perst = setInsert s.perst port.val ∧ t.portUp port.val = false ∧
      t.warm = some 3 ∧
      { t with
        regs := s.regs, perst := s.perst, warm := s.warm, vfs := s.vfs, held := s.held, subs := s.subs, cisQ := s.cisQ
        cisOut := s.cisOut } = s := by
  rw [execPerstAssert_up hup]
  have hdown := portUp_portReset ({ s with perst := setInsert s.perst port.val } : State) port.isLt
  have hframe := portReset_frame ({ s with perst := setInsert s.perst port.val } : State) port.val
  generalize ({ s with perst := setInsert s.perst port.val } : State).portReset port.val = u at hdown hframe ⊢
  have huwarm : u.warm = none := (congrArg State.warm hframe :).trans hwarm
  have hupower : u.power = .on := (congrArg State.power hframe :).trans hpower
  have huperst : u.perst = setInsert s.perst port.val := (congrArg State.perst hframe :)
  have hrefresh := selfRefresh_frame u
  have hperst : u.selfRefresh.perst = u.perst := (congrArg State.perst hrefresh :)
  have hport := portUp_selfRefresh u port.val
  rw [trigger_eq huwarm hupower]
  refine ⟨_, rfl, hperst.trans huperst, hport.trans hdown, rfl, ?_⟩
  calc _ = { u with
        regs := s.regs, perst := s.perst, warm := s.warm, vfs := s.vfs, held := s.held, subs := s.subs, cisQ := s.cisQ
        cisOut := s.cisOut } :=
        (congrArg (fun x : State => { x with
          regs := s.regs, perst := s.perst, warm := s.warm, vfs := s.vfs, held := s.held, subs := s.subs, cisQ := s.cisQ
          cisOut := s.cisOut }) hrefresh :)
    _ = s :=
        (congrArg (fun x : State => { x with
          perst := s.perst, warm := s.warm, subs := s.subs, cisQ := s.cisQ, cisOut := s.cisOut }) hframe :)

/-! ### Updates (R453, R454) -/

theorem pldmFwUpdate_image {s : State} (h : answers s = true) (i : FwImage) : exec (.pldmFwUpdate (.image i)) s =
    .next (({ s with slots := s.slots.set (updateSlot s) i } : State).emit (.response 0x11 .ok [])) :=
  if_neg (by rw [h]; exact Bool.false_ne_true)

theorem pldmFwUpdate_partition {s : State} (h : answers s = true) (p : PartTable) : exec (.pldmFwUpdate (.partition p)) s =
    .next (({ s with partition := p } : State).emit (.response 0x11 .ok [])) := if_neg (by rw [h]; exact Bool.false_ne_true)

theorem pldmFwUpdate_topology {s : State} (h : answers s = true) (n : Nat) (e : TopoEntry) :
    exec (.pldmFwUpdate (.topology [(n, e)])) s =
      .next (({ s with topology := [(n % 256, e)] } : State).emit (.response 0x11 .ok [])) :=
  if_neg (by rw [h]; exact Bool.false_ne_true)

/-- The copy that decides is one of the two (R453). -/
theorem bootDesc_cases {s : State} {a b : BootDesc} (h : s.bootDescs = (a, b)) : s.bootDesc = a ∨ s.bootDesc = b := by
  rw [bootDesc, h]
  dsimp only
  split
  · exact .inr rfl
  · exact .inl rfl

theorem writeDesc_eq {s : State} {a b : BootDesc} (h : s.bootDescs = (a, b)) (slot : Nat) : s.writeDesc slot =
    { s with
      bootDescs := if s.bootDesc = a then (a, ⟨s.bootDesc.seq + 1, slot, true⟩) else (⟨s.bootDesc.seq + 1, slot, true⟩, b) } := by
  rw [writeDesc, h]
  simp only [beq_iff_eq]

/-- The copy that is written decides from then on (R453). -/
theorem slotPref_writeDesc (s : State) (slot : Nat) : (s.writeDesc slot).slotPref = slot := by
  rcases hdescs : s.bootDescs with ⟨a, b⟩
  rw [writeDesc_eq hdescs]
  unfold slotPref
  by_cases ha : s.bootDesc = a
  · rw [if_pos ha, ha]
    simp [bootDesc]
  · have hb : s.bootDesc = b := (bootDesc_cases hdescs).resolve_left ha
    rw [if_neg ha, hb]
    simp [bootDesc]

theorem writeDesc_frame (s : State) (slot : Nat) : { s.writeDesc slot with bootDescs := s.bootDescs } = s := rfl

/-! ### Cold boot, power loss and updates: the statements of O51 -/

theorem coldBoot_boots {s : State} (slot : BitVec 8) {y : BootTests} (hdue : s.bootDue = true) (hlost : s.lost = false)
    (hpower : s.power ≠ .on) {m : Nat} (hm : m < 2) (hacc : s.accepts (s.slotImage m) = true)
    (hfirst : m = s.slotPref % 2 ∨ s.accepts (s.slotImage (s.slotPref % 2)) = false) (hlanes : y.eyes.lanes = [])
    (hrest : 12 ≤ y.eyes.rest) :
    ∃ u, exec (.coldBoot slot y) s = .next u ∧ u.power = .on ∧ u.stage = 4 ∧ u.slotRun = m ∧ u.svnFuse = s.svnFuse ∧
      u.svnImage = (s.slotImage m).svn.toNat ∧ u.bootDue = false ∧ u.cores = [] ∧ u.cis = [] ∧ u.digN = 0 ∧ u.digQ = [] ∧
      u.digD = Config.shake256 (Config.romDigest ++ (s.slotImage m).digest ++ u.topoDigest ++
        Config.shake256 s.partition.bytes 64) 48 := by
  have hstart := dieLost_bootStart s slot.toNat
  have hnotDue : (s.bootStart slot.toNat).bootDue = false := rfl
  rw [execColdBoot_due slot y hdue hlost hpower, coldBoot_bootWith slot.toNat y hm hacc hfirst]
  generalize s.bootStart slot.toNat = b at hstart hnotDue ⊢
  have himage := hstart.slotImage m
  obtain ⟨hon, hstage, hrun, hfuse, hsvn, hbootDue, hcores, hcis, hdigN, hdigQ, hdigD⟩ :=
    booted_bootWith hstart.cores hm (by rw [hstart.accepts, himage]; exact hacc) hlanes hrest
  rw [himage] at hsvn
  rw [himage, hstart.partition_] at hdigD
  exact ⟨_, rfl, hon, hstage, hrun, hfuse.trans hstart.svnFuse, hsvn, hbootDue.trans hnotDue, hcores.trans hstart.cores,
    hcis.trans hstart.cis, hdigN, hdigQ, hdigD⟩

theorem coldBoot_refuses {s : State} (slot : BitVec 8) (y : BootTests) (hdue : s.bootDue = true) (hlost : s.lost = false)
    (hpower : s.power ≠ .on) (h0 : s.accepts (s.slotImage 0) = false) (h1 : s.accepts (s.slotImage 1) = false) :
    ∃ u, exec (.coldBoot slot y) s = .next u ∧ u.power = .keeper ∧ u.stage = 6 ∧ u.svnFuse = s.svnFuse ∧
      u.outbox = s.outbox ++ [.response 0 .signature (leBytes 1 (s.slotPref % 2)),
        .response 0 .signature (leBytes 1 (1 - s.slotPref % 2))] := by
  have hstart := dieLost_bootStart s slot.toNat
  rw [execColdBoot_due slot y hdue hlost hpower, coldBoot_bootRefused slot.toNat y h0 h1]
  generalize s.bootStart slot.toNat = b at hstart ⊢
  obtain ⟨hpow, hstage, hfuse, hout⟩ := bootRefused_spec b (s.slotPref % 2)
  exact ⟨_, rfl, hpow, hstage, hfuse.trans hstart.svnFuse, by rw [hout, hstart.outbox]⟩

/-- The input is lost as the dies go down (R473). -/
theorem PoweredDown.lost {u d : State} (h : PoweredDown u d) {t : State} (ht : t = { d with lost := true, bootDue := false }) :
    t.lost = true ∧ t.power = .keeper ∧ t.bootDue = false ∧ t.stage = 1 ∧ t.cores = [] ∧ t.cis = [] ∧ t.slots = u.slots := by
  subst ht
  exact ⟨rfl, h.power, rfl, h.stage, h.cores, h.cis, h.slots⟩

theorem powerLossSignal_spec {s : State} (hlost : s.lost = false) (hpower : s.power = .on) :
    ∃ t, exec .powerLossSignal s = .next t ∧ t.lost = true ∧ t.power = .keeper ∧ t.bootDue = false ∧ t.stage = 1 ∧
      t.cores = [] ∧ t.cis = [] ∧ t.slots = s.slots := by
  obtain ⟨u, hu, heq⟩ := execPowerLossSignal_on hlost hpower
  rw [← hu]
  exact ⟨_, heq, (poweredDown_powerDown u).lost rfl⟩

theorem execInputStableTimer_lost {s : State} (hlost : s.lost = true) :
    exec .inputStableTimer s = .next { s with lost := false, bootDue := true } := if_pos hlost

theorem holdupExhausted_spec {s : State} (hlost : s.lost = true) : ∃ t, exec .holdupExhausted s = .next t ∧ t.power = .off ∧
    t.lost = false ∧ t.bootDue = true ∧ t.sump = [] ∧ t.cores = [] ∧ t.host = s.host ∧ t.slots = s.slots ∧
    t.bootDescs = s.bootDescs ∧ t.svnFuse = s.svnFuse := by
  obtain ⟨⟨hpower, hkept, hdue, hsump, hcores, hhost, hslots, hdescs⟩, hfuse⟩ := keeperOff_keeperLost s
  exact ⟨s.keeperLost, if_pos hlost, hpower, hkept, hdue, hsump, hcores, hhost, hslots, hdescs, hfuse⟩

theorem activate_spec {s : State} (h : answers s = true) :
    ∃ t : State, exec .activate s = .next (t.emit (.response 0x12 .ok [])) ∧
    t.slotPref = updateSlot s ∧ { t with bootDescs := s.bootDescs } = s :=
  ⟨s.writeDesc (updateSlot s), if_pos h, slotPref_writeDesc .., writeDesc_frame ..⟩

end State

/-- Settles O51: each boot, loss and update by the lemma of its branch. -/
theorem theModuleBoots : Obligations.TheModuleBoots := by
  intro s
  refine ⟨fun slot y hdue hlost hpower => ⟨fun m hm hacc hfirst hlanes hrest => ?_, fun h0 h1 => ?_⟩, fun hlost hpower => ?_,
    fun hlost hpower => ?_, fun hlost => ⟨?_, ?_⟩, fun port => ⟨?_, fun hup hwarm hpower => ?_, rfl⟩, ⟨rfl, fun code => rfl⟩,
    fun hans => ⟨fun i => ?_, fun p => ?_, fun n e => ?_, ?_⟩⟩
  · exact coldBoot_boots slot hdue hlost hpower hm hacc hfirst hlanes hrest
  · exact coldBoot_refuses slot y hdue hlost hpower h0 h1
  · exact powerLossSignal_spec hlost hpower
  · exact execPowerLossSignal_keeper hlost hpower
  · exact execInputStableTimer_lost hlost
  · exact holdupExhausted_spec hlost
  · exact execPerstAssert_down
  · exact perstAssert_spec hup hwarm hpower
  · exact pldmFwUpdate_image hans i
  · exact pldmFwUpdate_partition hans p
  · exact pldmFwUpdate_topology hans n e
  · exact activate_spec hans

end Sys2Proof.Machine

/-!
PROOFS. The statements of the memory model: releases (O14), semaphores (O15), acquires (O16), and the ends of waits (O17).
-/

namespace Sys2Proof.Machine

open State

/-! ### Releases (R294, R296, R301) -/

/-- SIG adds to the semaphore that its translation finds. -/
theorem signalBody_sig {s t : State} {p va a : Nat} (hsem : SemaphoreAt s t p va a true) (v : DWord) :
    signalBody p va false v s =
      .ok ((t.cisWrite a (leBytes 8 (t.word64 a + v).toNat)).modCore p fun k => dcacheDrop k a) := by
  unfold SemaphoreAt at hsem
  simp only [signalBody, hsem, Bool.not_false, if_true]
  rfl

/-- REL stores in working memory where its translation leads. -/
theorem signalBody_rel {s t : State} {p va a : Nat} {l : Leaf} (hleaf : s.xlateNow p (s.core p).ctx va true = (.ok l, t))
    (hplace : t.place l va = .cis a) (hmay : t.mayTouch (s.core p).ctx a 8 = true) (v : DWord) :
    signalBody p va true v s = .ok ((t.cisWrite a (leBytes 8 v.toNat)).modCore p fun k => dcacheStore k a (leBytes 8 v.toNat)) := by
  simp only [signalBody, hleaf, hplace, hmay, Bool.not_true, Bool.false_eq_true, if_false]
  rfl

/-- A release that is not rejected is performed at once when every earlier access is complete, and otherwise waits. -/
theorem releaseInstr_of_ok {s t : State} {c : CoreId} {w : IWord} {func va : Nat} {rel : Bool} {v : DWord}
    (h : Issues s c.val w none (sRegs [w.src1, w.src2])) (hdst : w.dst = 0) (himm : w.imm = 0)
    (hva : (((s.afterFetch c.val none).core c.val).getS w.src1).toNat % 2 ^ 57 = va)
    (hv : ((s.afterFetch c.val none).core c.val).getS w.src2 = v) (hal : va % 8 = 0)
    (hbody : signalBody c.val va rel v (s.afterFetch c.val none) = .ok t) :
    let s1 := s.afterFetch c.val none
    (s1.releaseReady c.val = true → releaseInstr func rel c w s = .next (t.retire c.val ((s1.core c.val).pc + 8))) ∧
    (s1.releaseReady c.val = false → s1.askedWay c.val = false →
      releaseInstr func rel c w s = .next (s1.beginWait c.val (.release (if rel then .rel va v else .sig va v)))) := by
  subst hva hv
  have hruns := fun body => issue_runs (cls := 0x08) (func := func) (body := body) h
    (fields := w.dst == 0 && w.imm == 0) (by simp [hdst, himm])
  refine ⟨fun hready => ?performed, fun hready hasked => ?waits⟩
  case performed =>
    rw [releaseInstr, hruns]
    simp only [hal, hbody, hready, ne_eq, not_true, if_true, if_false]
    rfl
  case waits =>
    rw [releaseInstr, hruns]
    simp only [hal, hbody, hready, hasked, ne_eq, not_true, Bool.false_and, Bool.false_eq_true, if_false]
    rfl

/-- Settles O14: both are releases, of an add to a semaphore and of a store. -/
theorem releasesPublish : Obligations.ReleasesPublish := by
  intro c w s t a h hdst himm s1 k va v hal
  exact ⟨fun hsem => releaseInstr_of_ok h hdst himm rfl rfl hal (signalBody_sig hsem v),
    fun l hleaf hplace hmay => releaseInstr_of_ok h hdst himm rfl rfl hal (signalBody_rel hleaf hplace hmay v)⟩

/-! ### Semaphores (R294, R298, R299) -/

/-- The threshold is met, and for CONSUME no core waits before this one. -/
theorem watMet_iff {s : State} {a order : Nat} {thr : DWord} {consume : Bool} : s.watMet a thr consume order = true ↔
    thr.toInt ≤ (s.word64 a).toInt ∧ (consume = true → s.earlierConsumer a order = false) := by
  simp only [watMet, BitVec.slt, Bool.and_eq_true, Bool.not_eq_true', decide_eq_false_iff_not, not_lt, Bool.and_eq_false_imp]

section Wat

variable {s t : State} {c : CoreId} {w : IWord} {a : Nat}
  (h : Issues s c.val w none (.p 7 :: sRegs [w.dst, w.src1, w.src2])) (himm : bitsOf w.imm.toNat 15 2 = 0)
  (hal : (((s.afterFetch c.val none).core c.val).getS w.src1).toNat % 2 ^ 57 % 8 = 0)
  (hsem : SemaphoreAt (s.afterFetch c.val none) t c.val
    ((((s.afterFetch c.val none).core c.val).getS w.src1).toNat % 2 ^ 57) a (w.imm.getLsbD 1))
  (hgood : t.cisBad a 8 = false)

include h himm hal hsem hgood

/-- A WAT whose semaphore meets its condition takes it and is complete. -/
theorem exec_wat_takes
    (hmet : t.watMet a (((s.afterFetch c.val none).core c.val).getS w.src2) (w.imm.getLsbD 1) t.nextWatch = true) :
    let k := (s.afterFetch c.val none).core c.val
    exec (.wat c w) s = .next (((t.watTake c.val a (k.getS w.src2) (w.imm.getLsbD 1) (w.imm.getLsbD 0) w.dst.toNat).returned
      c.val .ok).retire c.val (k.pc + 8)) := by
  unfold SemaphoreAt at hsem
  change execWat c w s = _
  rw [execWat, issue_runs h (by simp [himm])]
  simp only [hal, hsem, hgood, hmet, ne_eq, not_true, Bool.false_eq_true, if_true, if_false]
  rfl

/-- A WAT whose semaphore does not meet its condition waits on it. -/
theorem exec_wat_waits
    (hmet : t.watMet a (((s.afterFetch c.val none).core c.val).getS w.src2) (w.imm.getLsbD 1) t.nextWatch = false)
    (hasked : t.askedWay c.val = false) :
    let k := (s.afterFetch c.val none).core c.val
    let va := (k.getS w.src1).toNat % 2 ^ 57
    exec (.wat c w) s = .next ((({ t with nextWatch := t.nextWatch + 1 } : State).setWaddr c.val va).beginWait c.val
      (.wat va a (k.getS w.src2) (w.imm.getLsbD 1) (w.imm.getLsbD 0) w.dst.toNat (bitsOf w.imm.toNat 31 16) t.nextWatch)) := by
  unfold SemaphoreAt at hsem
  change execWat c w s = _
  rw [execWat, issue_runs h (by simp [himm])]
  simp only [hal, hsem, hgood, hmet, hasked, ne_eq, not_true, Bool.false_eq_true, if_false]
  rfl

end Wat

/-- Settles O15: by the branch of WAT that the threshold and the waits before it choose. -/
theorem watTakesOrWaits : Obligations.WatTakesOrWaits := by
  intro c w s t a h himm s1 k va thr hal hsem hgood
  refine ⟨fun hconsume hthr => ?reads, fun hconsume hthr hturn => ?consumes, fun hthr hasked => ?waits⟩
  case reads =>
    have hturn : w.imm.getLsbD 1 = true → t.earlierConsumer a t.nextWatch = false := fun hc =>
      absurd (hconsume.symm.trans hc) (by decide)
    rw [exec_wat_takes h himm hal hsem hgood (watMet_iff.mpr ⟨hthr, hturn⟩), hconsume]
    rfl
  case consumes =>
    rw [exec_wat_takes h himm hal hsem hgood (watMet_iff.mpr ⟨hthr, fun _ => hturn⟩), hconsume]
    rfl
  case waits =>
    have hmet : t.watMet a thr (w.imm.getLsbD 1) t.nextWatch = false :=
      Bool.eq_false_iff.mpr fun hmet => absurd (watMet_iff.mp hmet).1 (by omega)
    refine ⟨_, exec_wat_waits h himm hal hsem hgood hmet hasked, ?_⟩
    simp only [beginWait, setWaddr, core_modCore_self]
    exact ⟨trivial, rfl, rfl, rfl, rfl⟩

/-! ### Acquires (R294, R297) -/

/-- An acquire of working memory reads there and waits for its end. -/
theorem exec_acq_cis {s t : State} {c : CoreId} {w : IWord} {a : Nat} {l : Leaf} (h : Issues s c.val w none (sRegs [w.dst, w.src1]))
    (hsrc2 : w.src2 = 0) (himm : w.imm.toNat < 2) :
    let k := (s.afterFetch c.val none).core c.val
    let va := (k.getS w.src1).toNat % 2 ^ 57
    va % 8 = 0 → (s.afterFetch c.val none).xlateNow c.val k.ctx va false = (.ok l, t) → t.place l va = .cis a →
      t.mayTouch k.ctx a 8 = true → t.loadUnperformed c.val = false → t.cisBad a 8 = false →
      exec (.acq c w) s = .next (((t.modCore c.val fun k => dcacheDrop k a).setWaddr c.val va).beginWait c.val
        (.acq va (some (t.word64 a, false)) (w.imm.getLsbD 0) w.dst.toNat none (t.epoch k.ctx) false)) := by
  refine fun hal hleaf hplace hmay hperf hgood => ?_
  change execAcq c w s = _
  rw [execAcq, issue_runs h (by simp [hsrc2, himm])]
  simp only [hal, hleaf, hplace, hmay, hperf, hgood, storeOpen, ne_eq, not_true, Bool.not_true, Bool.or_self, Bool.false_eq_true,
    if_false]
  rfl

/-- A core that has acquired a value: its register, then its data cache under DCI (R297). -/
def Core.acquired (k : Core) (dst : Nat) (v : DWord) (dci : Bool) : Core :=
  if dci then dcacheClear (k.setS (BitVec.ofNat 6 dst) v) else k.setS (BitVec.ofNat 6 dst) v

theorem State.CoreOnly.acquire {s t : State} {p : Nat} {k : Core} (h : s.CoreOnly t p k) (dst : Nat) (v : DWord) (dci : Bool) :
    s.CoreOnly (t.acquire p dst v dci) p (k.acquired dst v dci) := h.modCore fun k => k.acquired dst v dci

theorem Core.pc_acquired (k : Core) (dst : Nat) (v : DWord) (dci : Bool) :
    (k.acquired dst v dci).pc = (k.setS (BitVec.ofNat 6 dst) v).pc := by cases dci <;> rfl

/-- The end of a wait changes its core alone. -/
theorem State.CoreOnly.endWait {s t : State} {p : Nat} {k : Core} (h : s.CoreOnly t p k) :
    s.CoreOnly (t.endWait p) p ({ k with wait := none }.goOn (k.pc + 8)) := by
  have hpc : (t.core p).pc = k.pc := congrArg Core.pc h.1
  rw [State.endWait, hpc]
  exact (h.modCore fun k => { k with wait := none }).modCore fun k' => k'.goOn (k.pc + 8)

/-- Settles O16: the read of ACQ, and the end of its wait. -/
theorem acquiresReadAndComplete : Obligations.AcquiresReadAndComplete := by
  unfold Obligations.AcquiresReadAndComplete
  refine ⟨?reads, ?completes⟩
  case reads =>
    intro c w s t a l h hsrc2 himm s1 k va hal hleaf hplace hmay hperf hgood
    refine ⟨_, exec_acq_cis h hsrc2 himm hal hleaf hplace hmay hperf hgood, ?_⟩
    simp only [beginWait, setWaddr, core_modCore_self]
    exact ⟨trivial, rfl, rfl, rfl, rfl, rfl⟩
  case completes =>
    intro c s va v dci host dst epoch tag hwait k
    refine ⟨(s.acquire c.val dst v dci).endWait c.val, ?_, ?_⟩
    · change execAcquireComplete c s = _
      simp only [execAcquireComplete, hwait, Bool.false_eq_true, if_false]
    · have hends := ((CoreOnly.refl s c.val).acquire dst v dci).endWait
      rwa [Core.pc_acquired] at hends

/-! ### Waits that end by their timeout (R295) -/

/-- Core 0 waits, with a timeout, for the counter of region 0 to reach 1. -/
def cwtUnmet : State := { State.reset with
  cores := [(0, { Core.reset with run := .waiting, wait := some (.cwt 1 0 1 false 1 1) })] }

/-- The number of timeouts is stored where index 2^20 of the register before SYN_TMO would be. -/
theorem cwtUnmet_times_out : ∃ t, exec (.waitTimeout 0) cwtUnmet = .next t ∧ t.reg .synWaitCyc 1048576 = 1 := ⟨_, rfl, rfl⟩

/-- Refutes O17: its clause on WAIT_TIMEOUT says of every index, not only of those that a register has, that SYN_TMO of the
core alone changes. The model keeps register r at index i under 2^20 times the number of r, plus i, so index 2^20 of SYN_WAITCYC,
the register before SYN_TMO, names SYN_TMO of core 0. -/
theorem not_counterWaitsEnd : ¬ Obligations.CounterWaitsEnd := by
  unfold Obligations.CounterWaitsEnd
  rintro ⟨-, htimeout⟩
  obtain ⟨-, hends⟩ := htimeout 0 cwtUnmet 1 1 false false 0 (.inr ⟨1, 0, 1, rfl, by decide, by decide⟩)
  obtain ⟨t, ht, -, hregs, -⟩ := hends rfl (by decide)
  obtain ⟨u, hu, hcount⟩ := cwtUnmet_times_out
  have htu : t = u := Host.Outcome.next.inj (ht.symm.trans hu)
  have hstays := hregs .synWaitCyc 1048576 (by decide)
  rw [htu, hcount] at hstays
  exact absurd hstays (by decide)

end Sys2Proof.Machine

/-!
PROOFS. The statements of the memory model, continued: persistent launches take tasks and post their results (O39).
-/

namespace Sys2Proof.Machine

open State

/-! ### An entry is taken (R333, R352 to R354) -/

namespace State

/-- The entry that the owner takes changes its queue and what the fetchers hold. -/
theorem takeEntry_spec {s t : State} {q : Nat} {e : Entry} (h : s.takeEntry q = some (e, t)) :
    (t.queue q).sqHead = (e.idx + 1) % s.sqSize q ∧ { t with fetched := s.fetched, queues := s.queues } = s := by
  unfold takeEntry at h
  split at h
  · cases h
  · split at h
    · cases h
    · cases h
      exact ⟨congrArg Queue.sqHead (queue_modQueue_self ..), rfl⟩

theorem oweTask_frame (s : State) (p q : Nat) (e : Entry) : { s.oweTask p q e with launches := s.launches } = s := by
  unfold oweTask
  split <;> rfl

/-- The launch of the core owes the record of the entry. -/
theorem launch_oweTask {s : State} {p q l : Nat} {x : Launch} (e : Entry) (hl : s.launchOf p = some (l, x)) :
    (s.oweTask p q e).launch l =
      some { x with tasks := x.tasks ++ [(q, e.idx, fieldAt e.bytes 0 4, (s.queue q).sqHead)] } := by
  simp only [oweTask, hl]
  exact launch_setLaunch_self ..

/-- The state in which a core has taken an entry: the launch owes the record, the entry stands in the scratchpad, and the core has
the handle in a register and shows OK (R352, R353). -/
def giveTask (s : State) (p q off : Nat) (dst : BitVec 6) (e : Entry) : State :=
  (((s.oweTask p q e).padWrite p off e.bytes).modCore p fun k => k.setS dst (taskHandle q e)).returned p .ok

end State

/-- A core that has taken an entry. -/
def Core.withTask (k : Core) (q : Nat) (dst : BitVec 6) (e : Entry) : Core :=
  { k.setS dst (taskHandle q e) with cst := 0 }.setP 7 true

theorem Core.getS_withTask (k : Core) (q : Nat) (dst : BitVec 6) (e : Entry) :
    (k.withTask q dst e).getS dst = if dst = 0 then 0 else taskHandle q e := by
  change (k.setS dst (taskHandle q e)).getS dst = _
  split
  · next h => exact if_pos h
  · next h => exact k.getS_setS_self _ h

theorem Core.pc_withTask (k : Core) (q : Nat) (dst : BitVec 6) (e : Entry) : (k.withTask q dst e).pc = k.pc := by
  change (k.setS dst (taskHandle q e)).pc = _
  unfold setS
  repeat' split
  all_goals rfl

namespace State

/-- `t` is `s` after core `p`, which is then `k`, has taken entry `e` of queue `q` to the place `off` of its scratchpad. -/
structure TaskTaken (s t : State) (p q off : Nat) (e : Entry) (k : Core) : Prop where
  core : t.core p = k
  others : ∀ c, c ≠ p → t.core c = s.core c
  cis : t.cis = s.cis
  head : (t.queue q).sqHead = (e.idx + 1) % s.sqSize q
  pad : t.pad p = (s.pad p).writeL off e.bytes
  owed : ∀ l x, s.launchOf p = some (l, x) → ∃ y, t.launch l = some y ∧
    y.tasks = x.tasks ++ [(q, e.idx, fieldAt e.bytes 0 4, (e.idx + 1) % s.sqSize q)]

theorem TaskTaken.modCore {s t : State} {p q off : Nat} {e : Entry} {k : Core} (h : s.TaskTaken t p q off e k)
    (f : Core → Core) : s.TaskTaken (t.modCore p f) p q off e (f k) where
  core := (core_modCore_self ..).trans (congrArg f h.core)
  others c hc := (core_modCore_ne _ _ _ _ hc).trans (h.others c hc)
  cis := h.cis
  head := h.head
  pad := h.pad
  owed := h.owed

theorem TaskTaken.endWait {s t : State} {p q off : Nat} {e : Entry} {k : Core} (h : s.TaskTaken t p q off e k) :
    s.TaskTaken (t.endWait p) p q off e ({ k with wait := none }.goOn (k.pc + 8)) := by
  rw [State.endWait, h.core]
  exact (h.modCore fun k' => { k' with wait := none }).modCore fun k' => k'.goOn (k.pc + 8)

/-- An entry that is owed and stored changes the launches and the scratchpads. -/
theorem entryStored_frame (t : State) (p q off : Nat) (e : Entry) : { (t.oweTask p q e).padWrite p off e.bytes with
    launches := t.launches, pads := t.pads, padPoison := t.padPoison } = t := by
  have hpad := ((PadOnly.refl (t.oweTask p q e) p).padWrite off e.bytes false).frame
  exact (congrArg (fun u : State => { u with launches := t.launches, pads := t.pads, padPoison := t.padPoison }) hpad :).trans
    (congrArg (fun u : State => { u with pads := t.pads, padPoison := t.padPoison }) (oweTask_frame t p q e) :)

theorem launchOf_congr {s t : State} (hcores : t.cores = s.cores) (hlaunches : t.launches = s.launches) (p : Nat) :
    t.launchOf p = s.launchOf p := by
  unfold launchOf launch
  rw [core_congr hcores, hlaunches]

/-- The entry that the fetcher holds is owed and stored. -/
theorem taskTaken_entryStored {s t : State} {q : Nat} {e : Entry} (htake : s.takeEntry q = some (e, t)) (p off : Nat) :
    s.TaskTaken ((t.oweTask p q e).padWrite p off e.bytes) p q off e (s.core p) := by
  obtain ⟨hhead, htaken⟩ := takeEntry_spec htake
  have hstored := entryStored_frame t p q off e
  have hcores : t.cores = s.cores := (congrArg State.cores htaken :)
  have hcores' : ((t.oweTask p q e).padWrite p off e.bytes).cores = s.cores := (congrArg State.cores hstored :).trans hcores
  have hqueues : ((t.oweTask p q e).padWrite p off e.bytes).queues = t.queues := (congrArg State.queues hstored :)
  refine ⟨core_congr hcores' p, fun c _ => core_congr hcores' c,
    (congrArg State.cis hstored :).trans (congrArg State.cis htaken :), ?head, ?pad, fun l x hl => ?owed⟩
  case head =>
    rw [queue, hqueues]
    exact hhead
  case pad =>
    have hpads : (t.oweTask p q e).pads = s.pads :=
      (congrArg State.pads (oweTask_frame t p q e) :).trans (congrArg State.pads htaken :)
    rw [pad_padWrite_self, pad, hpads, pad]
  case owed =>
    have hlaunches : ((t.oweTask p q e).padWrite p off e.bytes).launches = (t.oweTask p q e).launches :=
      (congrArg State.launches ((PadOnly.refl (t.oweTask p q e) p).padWrite off e.bytes false).frame :)
    have hlt : t.launchOf p = some (l, x) := (launchOf_congr hcores (congrArg State.launches htaken :) p).trans hl
    exact ⟨_, (congrArg (SMap.get? · l) hlaunches).trans (launch_oweTask e hlt), by rw [hhead]⟩

/-- The entry that the fetcher holds is given to a core. -/
theorem taskTaken_giveTask {s t : State} {q : Nat} {e : Entry} (htake : s.takeEntry q = some (e, t)) (p off : Nat)
    (dst : BitVec 6) : s.TaskTaken (t.giveTask p q off dst e) p q off e ((s.core p).withTask q dst e) :=
  ((taskTaken_entryStored htake p off).modCore fun k => k.setS dst (taskHandle q e)).modCore
    fun k => Core.setP { k with cst := 0 } 7 true

end State

/-! ### QWT and its wake (R353) -/

section Qwt

variable {s : State} {c : CoreId} {w : IWord} (h : Issues s c.val w none (.p 7 :: sRegs [w.dst, w.src1, w.src2]))
  (himm : bitsOf w.imm.toNat 15 0 = 0) {q off : Nat}
  (hq : (((s.afterFetch c.val none).core c.val).getS w.src1).toNat = q)
  (hoff : (((s.afterFetch c.val none).core c.val).getS w.src2).toNat = off)
  (hcode : (s.afterFetch c.val none).qwtCode c.val q off = .ok)

include h himm hq hoff hcode

/-- A core for which no other waits takes the entry that is held. -/
theorem exec_qwt_takes {t : State} {e : Entry} (hfirst : (s.afterFetch c.val none).qwtWaiters q = [])
    (htake : (s.afterFetch c.val none).takeEntry q = some (e, t)) (hgood : e.poison = false) :
    exec (.qwt c w) s =
      .next ((t.giveTask c.val q off w.dst e).retire c.val (((s.afterFetch c.val none).core c.val).pc + 8)) := by
  subst hq hoff
  change execQwt c w s = _
  rw [execQwt, issue_runs h (by simp [himm])]
  simp only [hcode, hfirst, htake, hgood, ne_eq, not_true, List.isEmpty_nil, if_true, if_false, Bool.false_eq_true]
  rfl

/-- A core behind another waits. -/
theorem exec_qwt_waits (hbehind : (s.afterFetch c.val none).qwtWaiters q ≠ [])
    (hasked : (s.afterFetch c.val none).askedWay c.val = false) :
    let s1 := s.afterFetch c.val none
    exec (.qwt c w) s = .next (({ s1 with nextWatch := s1.nextWatch + 1 } : State).beginWait c.val
      (.qwt q off (bitsOf w.imm.toNat 31 16) w.dst.toNat s1.nextWatch)) := by
  subst hq hoff
  change execQwt c w s = _
  rw [execQwt, issue_runs h (by simp [himm])]
  simp only [hcode, List.isEmpty_iff, hbehind, hasked, ne_eq, not_true, if_false, Bool.false_eq_true]
  rfl

end Qwt

/-- The core that has waited longest takes the entry that is held, and goes on. -/
theorem exec_qwtWake_gives {s t : State} {q : Fin 4096} {p off tmo dst order : Nat} {e : Entry}
    (hfirst : firstWaiter (s.qwtWaiters q.val) = some p) (hwait : (s.core p).wait = some (.qwt q.val off tmo dst order))
    (htake : s.takeEntry q.val = some (e, t)) (hgood : e.poison = false) :
    exec (.qwtWake q) s = .next ((t.giveTask p q.val off (BitVec.ofNat 6 dst) e).endWait p) := by
  change execQwtWake q s = _
  simp only [execQwtWake, hfirst, hwait, htake, hgood, Bool.false_eq_true, if_false]
  rfl

/-! ### QPT (R296, R354) -/

section Qpt

variable {s : State} {c : CoreId} {w : IWord} {status : Nat} {code : Code} (h : Issues s c.val w none (sRegs [w.src1, w.src2]))
  (hdst : w.dst = 0) (himm : w.imm.toNat < 2)
  (hstatus : (((s.afterFetch c.val none).core c.val).getS w.src2).toNat % 256 = status)
  (hcode : Code.ofByte status = some code)

include h hdst himm hstatus hcode

/-- A task of the launch is posted at once when every earlier access is complete. -/
theorem exec_qpt_posts {n idx tag head : Nat} (hready : (s.afterFetch c.val none).releaseReady c.val = true)
    (htask : (s.afterFetch c.val none).taskOf c.val (((s.afterFetch c.val none).core c.val).getS w.src1).toNat =
      some (n, idx, tag, head)) :
    let s1 := s.afterFetch c.val none
    let k := s1.core c.val
    exec (.qpt c w) s = .next ((s1.postTask c.val n idx status ((k.getS w.src2).toNat / 2 ^ 32) (w.imm.getLsbD 0)).retire c.val
      (k.pc + 8)) := by
  subst hstatus
  change execQpt c w s = _
  rw [execQpt, issue_runs h (by simp [hdst, himm])]
  simp only [htask, hcode, hready, if_true]
  rfl

/-- A handle of no task of the launch is rejected. -/
theorem exec_qpt_rejected
    (htask : (s.afterFetch c.val none).taskOf c.val (((s.afterFetch c.val none).core c.val).getS w.src1).toNat = none) :
    let s1 := s.afterFetch c.val none
    exec (.qpt c w) s = .next (s1.faultCore c.val 9 1 (s1.core c.val).pc .state) := by
  subst hstatus
  change execQpt c w s = _
  rw [execQpt, issue_runs h (by simp [hdst, himm])]
  simp only [htask, hcode]
  rfl

end Qpt

/-! ### Releases that wait (R296) -/

section ReleasePerform

variable {s : State} {c : CoreId}

/-- A release waits on while an earlier access is not complete. -/
theorem exec_releasePerform_waits (hbusy : s.releaseReady c.val = false) : exec (.releasePerform c) s = .next s := by
  change execReleasePerform c s = _
  simp only [execReleasePerform, hbusy, Bool.not_false, if_true]

variable (hready : s.releaseReady c.val = true)
include hready

theorem exec_releasePerform_qpt {q idx status info : Nat} {irq : Bool}
    (hwait : (s.core c.val).wait = some (.release (.qpt q idx status info irq))) :
    exec (.releasePerform c) s = .next ((s.postTask c.val q idx status info irq).endWait c.val) := by
  change execReleasePerform c s = _
  simp only [execReleasePerform, hready, hwait, Bool.not_true, Bool.false_eq_true, if_false]

/-- A SIG or a REL that is not rejected now is performed. -/
theorem exec_releasePerform_signals {va : Nat} {v : DWord} {t : State} (rel : Bool)
    (hwait : (s.core c.val).wait = some (.release (if rel then .rel va v else .sig va v)))
    (hbody : signalBody c.val va rel v s = .ok t) : exec (.releasePerform c) s = .next (t.endWait c.val) := by
  change execReleasePerform c s = _
  cases rel <;>
  · simp only [Bool.false_eq_true, if_true, if_false] at hwait
    simp only [execReleasePerform, hready, hwait, hbody, Bool.not_true, Bool.false_eq_true, if_false]

end ReleasePerform

/-! ### Statements that hold -/

/-- Settles O39: a task is given to the core that asks or that has waited longest, and each release performs its write. -/
theorem tasksAreTakenAndPosted : Obligations.TasksAreTakenAndPosted := by
  intro c w s s1 k q off
  refine ⟨fun h himm hcode => ⟨fun e t hfirst htake hgood => ?takes, fun hbehind hasked => ?waits⟩,
    fun h n idx tag head status code hissues hdst himm hh hstatus hcode => ⟨fun htask hready => ?posts, fun htask => ?rejected⟩,
    exec_releasePerform_waits, fun q idx status info irq hready => exec_releasePerform_qpt hready,
    fun va v t hready => exec_releasePerform_signals hready false, fun va v t hready => exec_releasePerform_signals hready true,
    fun q p off imm dst order e t hfirst hwait htake hgood => ?wakes⟩
  case takes =>
    have htaken := (taskTaken_giveTask htake c.val off w.dst).modCore fun k' => k'.goOn (k.pc + 8)
    exact ⟨_, exec_qwt_takes h himm rfl rfl hcode hfirst htake hgood, htaken.cis, htaken.core, htaken.head, htaken.pad,
      htaken.owed⟩
  case waits =>
    exact ⟨_, exec_qwt_waits h himm rfl rfl hcode hbehind hasked, rfl, core_modCore_self ..⟩
  case posts =>
    subst hh
    exact exec_qpt_posts hissues hdst himm hstatus hcode hready htask
  case rejected =>
    subst hh
    exact exec_qpt_rejected hissues hdst himm hstatus hcode htask
  case wakes =>
    have htaken := (taskTaken_giveTask htake p off (BitVec.ofNat 6 dst)).endWait
    have hpc := congrArg Core.pc htaken.core
    rw [Core.pc_withTask] at hpc
    refine ⟨_, exec_qwtWake_gives hfirst hwait htake hgood, htaken.pad, ?_, congrArg Core.wait htaken.core, hpc,
      congrArg Core.run htaken.core, htaken.head, htaken.others⟩
    have hzero : BitVec.ofNat 6 dst = 0 ↔ dst % 64 = 0 := by rw [← BitVec.toNat_inj]; simp
    simp only [← hzero]
    exact (congrArg (Core.getS · _) htaken.core).trans (Core.getS_withTask ..)

end Sys2Proof.Machine

/-!
PROOFS. The statements of address translation: invalidations discard translations (O46).
-/

namespace Sys2Proof.Machine

open State

/-! ### Translations that a context holds (R309, R310, R312) -/

theorem SMap.getD_mapV {α : Type} {f : Nat → α → α} {i : Nat} {d : α} (hd : f i d = d) (m : SMap α) :
    SMap.getD (SMap.mapV f m) i d = f i (SMap.getD m i d) := by
  rw [SMap.getD, SMap.getD, SMap.get?_mapV]
  cases SMap.get? m i with
  | none => exact hd.symm
  | some a => rfl

/-- A core whose TLB holds nothing of a context. -/
def Core.tlbWithout (k : Core) (n : Nat) : Core := { k with tlb := k.tlb.filter fun e => e.ctx != n }

namespace State

variable (s : State) (n : Nat)

@[simp] theorem core_discard_all (p : Nat) : (s.discard n none).core p = (s.core p).tlbWithout n := by
  simp only [core, discard, Bool.and_true]
  rw [SMap.getD_mapV]
  all_goals rfl

theorem ctx_ne_of_mem_wcache_discard_all {d : Nat} {e : WalkEntry} (he : e ∈ (s.discard n none).wcache.getD d []) :
    e.ctx ≠ n := by
  simp only [discard, Bool.and_true] at he
  rw [SMap.getD_mapV List.filter_nil] at he
  exact bne_iff_ne.mp (List.mem_filter.mp he).2

theorem ctx_ne_of_mem_ats_discard {range : Option (Nat × Nat)} {d : Nat} {e : AtsEntry}
    (he : e ∈ (s.discard n range).ats.getD d []) : e.ctx ≠ n := by
  simp only [discard] at he
  rw [SMap.getD_mapV List.filter_nil] at he
  exact bne_iff_ne.mp (List.mem_filter.mp he).2

/-- A discard changes the cores' TLBs, and not which cores the table names. -/
theorem cores_discard_keys (range : Option (Nat × Nat)) :
    (s.discard n range).cores.map (·.1) = s.cores.map (·.1) := List.map_map

/-! ### Translations made at once (R301, R494) -/

/-- `t` is `s` but for the TLB of core `p` and the walk caches. -/
structure TlbOnly (s t : State) (p : Nat) : Prop where
  frame : { t with cores := s.cores, wcache := s.wcache } = s
  self : ∃ tlb, t.core p = { s.core p with tlb := tlb }
  others : ∀ q, q ≠ p → t.core q = s.core q

end State

namespace State.TlbOnly

variable {s : State} {p : Nat}

theorem refl (s : State) (p : Nat) : s.TlbOnly s p := ⟨rfl, ⟨_, rfl⟩, fun _ _ => rfl⟩

theorem of_wcache (s : State) (p : Nat) (x : SMap (List WalkEntry)) : s.TlbOnly { s with wcache := x } p :=
  ⟨rfl, ⟨_, rfl⟩, fun _ _ => rfl⟩

theorem modTlb {t : State} (h : s.TlbOnly t p) (f : Core → List TlbEntry) :
    s.TlbOnly (t.modCore p fun k => { k with tlb := f k }) p := by
  obtain ⟨hframe, ⟨tlb, hself⟩, hothers⟩ := h
  refine ⟨hframe, ⟨f (t.core p), ?_⟩, fun q hq => (core_modCore_ne _ p q _ hq).trans (hothers q hq)⟩
  rw [core_modCore_self, hself]

theorem tlbInstall {t : State} (h : s.TlbOnly t p) (ctx va : Nat) (l : Leaf) : s.TlbOnly (t.tlbInstall p ctx va l) p := by
  unfold State.tlbInstall
  exact h.modTlb _

theorem tlbTouch (s : State) (p ctx va : Nat) : s.TlbOnly (s.tlbTouch p ctx va) p := by
  unfold State.tlbTouch
  exact (refl s p).modTlb _

/-- A translation made at once fills the TLB by a walk, or touches it. -/
theorem xlateNow (s : State) (p ctx va : Nat) (write : Bool) : s.TlbOnly (s.xlateNow p ctx va write).2 p := by
  have hwalk : s.TlbOnly (match s.walk (.core p) ctx va write with
      | (.leaf l, s) => (Except.ok l, s.tlbInstall p ctx va l)
      | (.poisoned, s) => (.error Code.poison, s)
      | (.fault _, s) => (.error .notMapped, s)).2 p := by
    have hcache : s.TlbOnly (s.walk (.core p) ctx va write).2 p := of_wcache ..
    generalize s.walk (.core p) ctx va write = x at hcache ⊢
    obtain ⟨w, t⟩ := x
    cases w with
    | leaf l => exact hcache.tlbInstall ctx va l
    | fault cause => exact hcache
    | poisoned => exact hcache
  unfold State.xlateNow
  split
  · exact refl s p
  · split
    · split
      · exact hwalk
      · exact tlbTouch ..
    · exact hwalk

/-- The translation of a semaphore that is found. -/
theorem semaphore {t : State} {va m : Nat} {write : Bool} (h : s.semaphore p va write = (.ok m, t)) : s.TlbOnly t p := by
  have hx := xlateNow s p (s.core p).ctx va write
  simp only [State.semaphore] at h
  split at h
  · cases h
  · next heq =>
    rw [heq] at hx
    repeat' split at h
    all_goals cases h
    exact hx

end State.TlbOnly

/-! ### WATs that wait translate again (R320, log entry 71) -/

namespace State

/-- Core `p` does not wait in a WAT of context `n`. -/
def NoWatAt (s : State) (n p : Nat) : Prop := ∀ va a thr consume dci dst tmo order,
  (s.core p).wait = some (.wat va a thr consume dci dst tmo order) → (s.core p).ctx ≠ n

variable {s : State} {n c : Nat} {range : Option (Nat × Nat)}

theorem NoWatAt.of_core {t : State} {p : Nat} (h : s.NoWatAt n p) (hwait : (t.core p).wait = (s.core p).wait)
    (hctx : (t.core p).ctx = (s.core p).ctx) : t.NoWatAt n p := by
  unfold NoWatAt
  rw [hwait, hctx]
  exact h

theorem rewatch_of_noWatAt {p : Nat} (h : s.NoWatAt n p) : s.rewatch n range p = s := by
  unfold rewatch
  split
  · next hwait => exact if_pos (.inl (h _ _ _ _ _ _ _ _ hwait))
  · rfl

theorem foldl_rewatch_of_noWatAt {l : List Nat} (h : ∀ p ∈ l, s.NoWatAt n p) : l.foldl (rewatch · n range ·) s = s := by
  induction l with
  | nil => rfl
  | cons p l ih =>
    rw [List.foldl_cons, rewatch_of_noWatAt (h p List.mem_cons_self)]
    exact ih fun q hq => h q (List.mem_cons_of_mem p hq)

/-- Of the cores of a list one alone waits in a WAT of the context. -/
theorem foldl_rewatch_once {l : List Nat} (hnodup : l.Nodup) (hc : c ∈ l) (hothers : ∀ p, p ≠ c → s.NoWatAt n p)
    (hkept : ∀ p, p ≠ c → (s.rewatch n range c).core p = s.core p) :
    l.foldl (rewatch · n range ·) s = s.rewatch n range c := by
  obtain ⟨before, after, rfl⟩ := List.append_of_mem hc
  obtain ⟨-, hafter, hapart⟩ := List.nodup_append.mp hnodup
  have hbefore : before.foldl (rewatch · n range ·) s = s :=
    foldl_rewatch_of_noWatAt fun p hp => hothers p (hapart p hp c List.mem_cons_self)
  rw [List.foldl_append, hbefore, List.foldl_cons]
  refine foldl_rewatch_of_noWatAt fun p hp => ?_
  have hpc : p ≠ c := fun h => (List.nodup_cons.mp hafter).1 (h ▸ hp)
  exact (hothers p hpc).of_core (congrArg Core.wait (hkept p hpc)) (congrArg Core.ctx (hkept p hpc))

/-- The watch moves to the semaphore that the new translation gives. -/
theorem rewatch_moves {t : State} {va b m thr consume dci dst tmo order} (hctx : (s.core c).ctx = n)
    (hwait : (s.core c).wait = some (.wat va b thr consume dci dst tmo order)) (hsem : s.semaphore c va consume = (.ok m, t)) :
    ((s.rewatch n none c).core c).wait = some (.wat va m thr consume dci dst tmo order) ∧
    (∀ p, p ≠ c → (s.rewatch n none c).core p = t.core p) ∧
    { s.rewatch n none c with cores := s.cores, wcache := s.wcache } = s := by
  obtain ⟨hframe, ⟨tlb, hself⟩, -⟩ := TlbOnly.semaphore hsem
  have hnew : s.rewatch n none c =
      if b = m then t else t.modCore c fun k => { k with wait := some (.wat va m thr consume dci dst tmo order) } := by
    simp only [rewatch, hwait, hctx, hsem, Option.all_none, Bool.not_true, ne_eq, not_true, Bool.false_eq_true, or_self, if_false]
  rw [hnew]
  split
  · next hbm =>
    subst hbm
    exact ⟨by rw [hself]; exact hwait, fun _ _ => rfl, hframe⟩
  · exact ⟨congrArg Core.wait (core_modCore_self ..), fun p hp => core_modCore_ne _ c p _ hp, hframe⟩

/-- A core that the table does not name waits for nothing. -/
theorem mem_cores_of_wait {p : Nat} {w : Wait} (h : (s.core p).wait = some w) : p ∈ s.cores.map (·.1) := by
  cases hget : s.cores.get? p with
  | none =>
    rw [core, SMap.getD, hget] at h
    cases h
  | some k => exact List.mem_map.mpr ⟨_, SMap.mem_of_get? hget, rfl⟩

/-! ### An invalidation begins (R309, R320, R322) -/

/-- The epoch of a context has risen and its translations are discarded; no WAT has been translated again yet. -/
def discarding (s : State) (n : Nat) (range : Option (Nat × Nat)) (ats : Bool) : State :=
  { (s.setReg .ctxEpoch n (s.reg .ctxEpoch n + 1)).discard n none with inval := some ⟨n, range, ats⟩ }

section Discarding

variable (s : State) (n : Nat) (range : Option (Nat × Nat)) (ats : Bool)

@[simp] theorem core_discarding (p : Nat) : (s.discarding n range ats).core p = (s.core p).tlbWithout n := core_discard_all ..

theorem epoch_discarding : (s.discarding n range ats).epoch n = (s.epoch n + 1) % 2 ^ 32 :=
  (congrArg BitVec.toNat (reg_setReg_self s .ctxEpoch n _)).trans (BitVec.toNat_add ..)

theorem tlb_discarding (p : Nat) : ∀ e ∈ ((s.discarding n range ats).core p).tlb, e.ctx ≠ n := by
  rw [core_discarding]
  exact fun e he => bne_iff_ne.mp (List.mem_filter.mp he).2

theorem wcache_discarding (d : Nat) : ∀ e ∈ (s.discarding n range ats).wcache.getD d [], e.ctx ≠ n :=
  fun _ he => ctx_ne_of_mem_wcache_discard_all _ n he

theorem ats_discarding (d : Nat) : ∀ e ∈ (s.discarding n range ats).ats.getD d [], e.ctx ≠ n :=
  fun _ he => ctx_ne_of_mem_ats_discard (range := none) _ n he

variable {s n}

theorem NoWatAt.discarding {p : Nat} (h : s.NoWatAt n p) : (s.discarding n range ats).NoWatAt n p :=
  h.of_core (congrArg Core.wait (core_discarding s n range ats p) :) (congrArg Core.ctx (core_discarding s n range ats p) :)

end Discarding

variable {ats : Bool}

/-- An invalidation of a whole context, or of a range of host addresses, discards all that the context holds. -/
theorem beginInval_eq (hall : (if ats then none else range) = none) : s.beginInval n range ats =
    ((s.cores.map (·.1)).foldl (rewatch · n none ·) (s.discarding n range ats)).setReg .xltInvState 0 1 := by
  rw [beginInval, hall]
  exact congrArg (fun l : List Nat => (l.foldl (rewatch · n none ·) (s.discarding n range ats)).setReg .xltInvState 0 1)
    (cores_discard_keys (s.setReg .ctxEpoch n (s.reg .ctxEpoch n + 1)) n none)

theorem beginInval_of_noWat (hall : (if ats then none else range) = none) (h : NoWatOf s n) :
    s.beginInval n range ats = (s.discarding n range ats).setReg .xltInvState 0 1 := by
  rw [beginInval_eq hall, foldl_rewatch_of_noWatAt fun p _ => NoWatAt.discarding range ats (h p)]

/-! ### Registers of the translation block (R467) -/

/-- The record of a write leaves the registers but the last-write status. -/
theorem reg_noted {src : Src} {r q : Reg} {i j : Nat} {v : Word} (hq : q ≠ (r.last i).1) (hi : (r.last i).2 < 1048576)
    (hj : j < 1048576) : (s.noted src r i v).reg q j = s.reg q j := by
  obtain ⟨w, hw, -⟩ := recordLast_spec s r i .ok
  have hfold : ∀ t : State, (t.fold src r i v).reg q j = t.reg q j := by
    intro t
    unfold fold
    split <;> rfl
  rw [State.noted, hfold, hw, reg_setReg_apart s w (.inl hq) hi hj]

@[simp] theorem core_noted (src : Src) (r : Reg) (i : Nat) (v : Word) (p : Nat) : (s.noted src r i v).core p = s.core p := by
  unfold State.core
  rw [cores_noted]

theorem epoch_setInvState (hn : n < 64) (v : Word) : (s.setReg .xltInvState 0 v).epoch n = s.epoch n :=
  congrArg BitVec.toNat (reg_setReg_apart s v (.inl (by decide)) (by decide) (by omega))

theorem epoch_noted_xltInv (hn : n < 64) (src : Src) (v : Word) : (s.noted src .xltInv 0 v).epoch n = s.epoch n :=
  congrArg BitVec.toNat (reg_noted (by decide) (by decide) (by omega))

/-- XLT_CTX_n_CFG clears EN. -/
theorem ctxCfgEff_disable {v : Word} (hon : s.ctxOn n = true) (hv : v.getLsbD 0 = false) :
    ctxCfgEff n v s = (s.store .ctxCfg n v).discard n none := by
  change s.flag .ctxCfg n 0 = true at hon
  simp only [ctxCfgEff, hon, hv, Bool.true_eq_false, if_false, if_true]

/-- XLT_CTX_n_CFG sets EN. -/
theorem ctxCfgEff_enable {v : Word} (hoff : s.ctxOn n = false) (hv : v.getLsbD 0 = true) :
    ctxCfgEff n v s = ((s.store .ctxCfg n v).discard n none).setReg .ctxEpoch n 0 := by
  change s.flag .ctxCfg n 0 = false at hoff
  simp only [ctxCfgEff, hoff, hv, Bool.false_eq_true, if_false]

end State

/-! ### XLT_INV (R320 to R322) -/

section XltInv

variable {s : State} {src : Src} {v : Word} (h : Accepted s src .xltInv 0 v (s.invCheck v)) (hstart : v.getLsbD 7 = true)
  (hall : v.getLsbD 6 = true)

include h hstart hall

theorem exec_xltInv_all :
    exec (.xltInv src v) s = .next ((s.beginInval (v.toNat % 64) none false).noted src .xltInv 0 v) := by
  refine accepted_write (by decide) h ?_
  rw [invEff, invRange, if_pos hstart, if_pos hall]

/-- No WAT of the context waits. -/
theorem exec_xltInv_of_noWat (hnowat : NoWatOf s (v.toNat % 64)) : exec (.xltInv src v) s =
    .next (((s.discarding (v.toNat % 64) none false).setReg .xltInvState 0 1).noted src .xltInv 0 v) := by
  rw [exec_xltInv_all h hstart hall, beginInval_of_noWat rfl hnowat]

/-- One core waits in a WAT of the context. -/
theorem exec_xltInv_of_wat {c va b m thr consume dci dst tmo order} {s1 : State} (hctx : (s.core c).ctx = v.toNat % 64)
    (hwait : (s.core c).wait = some (.wat va b thr consume dci dst tmo order))
    (hothers : ∀ p, p ≠ c → s.NoWatAt (v.toNat % 64) p) (hnodup : (s.cores.map (·.1)).Nodup)
    (hsem : (s.discarding (v.toNat % 64) none false).semaphore c va consume = (.ok m, s1)) :
    exec (.xltInv src v) s = .next ((((s.discarding (v.toNat % 64) none false).rewatch (v.toNat % 64) none c).setReg
      .xltInvState 0 1).noted src .xltInv 0 v) := by
  have hcore := core_discarding s (v.toNat % 64) none false c
  obtain ⟨-, hmoved, -⟩ := rewatch_moves ((congrArg Core.ctx hcore).trans hctx) ((congrArg Core.wait hcore).trans hwait) hsem
  rw [exec_xltInv_all h hstart hall, beginInval_eq rfl, foldl_rewatch_once hnodup (mem_cores_of_wait hwait)
    (fun p hp => (hothers p hp).discarding none false) fun p hp => (hmoved p hp).trans ((TlbOnly.semaphore hsem).others p hp)]

end XltInv

/-! ### An invalidation ends (R320, R321) -/

/-- The end of an invalidation shows DONE and its result in XLT_INV_STATE. -/
theorem endInval_spec (s : State) (i : Inval) (code : Code) (ended : Nat) :
    (s.endInval i code ended).inval = none ∧
    ((s.endInval i code ended).reg .xltInvState 0).toNat % 1024 = 2 + 4 * code.toNat := by
  have hcode : code.toNat < 128 := by cases code <;> decide
  have hreg : (s.endInval i code ended).reg .xltInvState 0 =
      BitVec.ofNat 32 (2 + 4 * code.toNat + 2 ^ 10 * min ended 0xFFF) := by
    unfold endInval
    split <;> exact reg_setReg_self ..
  refine ⟨?_, ?_⟩
  · unfold endInval
    split <;> rfl
  · rw [hreg, BitVec.toNat_ofNat]
    omega

section Ends

variable {s : State} {i : Inval} (hi : s.inval = some i)

include hi

theorem exec_invalidationDone_drained (hats : i.ats = false) (hdrained : s.drained i = true) :
    exec .invalidationDone s = .next (({ s with inval := none } : State).setReg .xltInvState 0 2) := by
  change execInvalidationDone s = _
  simp only [execInvalidationDone, hi, hdrained, endInval, hats, if_true, Bool.false_eq_true, if_false]
  rfl

variable (hdrains : s.drained i = false)

include hdrains

theorem exec_invalidationDone_waits : exec .invalidationDone s = .next s := by
  change execInvalidationDone s = _
  simp only [execInvalidationDone, hi, hdrains, Bool.false_eq_true, if_false]

theorem exec_invalidationDrainTimeout_ends :
    ∃ (t : State) (ended : Nat), exec .invalidationDrainTimeout s = .next (t.endInval i .timeout ended) := by
  change ∃ (t : State) (ended : Nat), execInvalidationDrainTimeout s = _
  simp only [execInvalidationDrainTimeout, hi, hdrains, Bool.false_eq_true, if_false]
  exact ⟨_, _, rfl⟩

end Ends

/-! ### The host's translation service (R325) -/

section Ats

variable {s : State} {n : Fin 64}

theorem exec_atsInvalidation_on (hfree : s.inval = none) (hon : s.ctxOn n.val = true) (lo : DWord) (pages : Nat) :
    exec (.atsInvalidation n lo pages) s = .next (s.beginInval n.val (some (lo.toNat, pages * 4096)) true) := by
  change execAtsInvalidation n lo pages s = _
  simp only [execAtsInvalidation, hfree, hon, Option.isSome_none, Bool.not_true, Bool.false_eq_true, if_false]

theorem exec_atsInvalidation_off (hfree : s.inval = none) (hoff : s.ctxOn n.val = false) (lo : DWord) (pages : Nat) :
    exec (.atsInvalidation n lo pages) s = .next (s.emit (.atsDone n.val)) := by
  change execAtsInvalidation n lo pages s = _
  simp only [execAtsInvalidation, hfree, hoff, Option.isSome_none, Bool.not_false, Bool.false_eq_true, if_true, if_false]

theorem exec_atsTranslationResponse_granted {die : Fin 2} {st : StreamId} {va : BitVec 57} {hpa : BitVec 52} {l : Leaf} {h : Nat}
    {s1 : State} (hon : s.ctxOn n.val = true) (hats : s.flag .ctxCfg n.val 2 = true)
    (hwalk : s.walk (streamOf st) n.val va.toNat false = (.leaf l, s1)) (hplace : s1.place l va.toNat = .host h) :
    exec (.atsTranslationResponse die n st va (some hpa)) s = .next { s1 with
      ats := s1.ats.set die.val ((⟨n.val, s1.epoch n.val, h / 4096, hpa.toNat⟩ :: s1.ats.getD die.val []).take 4096) } := by
  change execAtsTranslationResponse die n st va (some hpa) s = _
  simp only [execAtsTranslationResponse, hon, hats, hwalk, hplace, Bool.not_true, Bool.or_self, Bool.false_eq_true, if_false]

end Ats

/-! ### Statements that hold -/

/-- Settles O46: what a context holds is filtered out of each table that holds translations, and the one WAT that waits finds its
semaphore again. -/
theorem invalidationsDiscardTranslations : Obligations.InvalidationsDiscardTranslations := by
  intro s
  refine ⟨fun src v h hstart hall hnowat => ?begins, fun i hi hats => ⟨exec_invalidationDone_drained hi hats, fun hdrains =>
      ⟨exec_invalidationDone_waits hi hdrains, ?timesOut⟩⟩,
    fun src n v h => ⟨fun hon hv => accepted_write (by decide) h (ctxCfgEff_disable hon hv),
      fun hoff hv => accepted_write (by decide) h (ctxCfgEff_enable hoff hv)⟩,
    fun n lo pages => ⟨fun hfree hon hnowat => ?host, fun hfree hoff => exec_atsInvalidation_off hfree hoff lo pages⟩,
    fun die n st va hpa l h s1 hon hats => exec_atsTranslationResponse_granted hon hats, ?wat⟩
  case begins =>
    have hlt : v.toNat % 64 < 64 := Nat.mod_lt _ (by decide)
    have hframe := noted_frame ((s.discarding (v.toNat % 64) none false).setReg .xltInvState 0 1) src .xltInv 0 v
    refine ⟨_, exec_xltInv_of_noWat h hstart hall hnowat,
      (epoch_noted_xltInv hlt ..).trans ((epoch_setInvState hlt _).trans (epoch_discarding ..)),
      (congrArg State.inval hframe :), ?_, cis_noted .., (congrArg State.host hframe :), fun p => ?_, fun d => ?_⟩
    · exact (reg_noted (by decide) (by decide) (by decide)).trans (reg_setReg_self ..)
    · rw [core_noted]
      exact tlb_discarding s _ none false p
    · rw [(congrArg State.wcache hframe :)]
      exact wcache_discarding s _ none false d
  case timesOut =>
    obtain ⟨t, ended, ht⟩ := exec_invalidationDrainTimeout_ends hi hdrains
    exact ⟨_, ht, endInval_spec ..⟩
  case host =>
    refine ⟨_, exec_atsInvalidation_on hfree hon lo pages, ?_⟩
    rw [beginInval_of_noWat rfl hnowat]
    exact ⟨rfl, (epoch_setInvState n.isLt _).trans (epoch_discarding ..),
      ats_discarding s n.val (some (lo.toNat, pages * 4096)) true, rfl⟩
  case wat =>
    intro c va b thr consume dci dst tmo order m src v s1 n u h hstart hall hctx hwait hothers hnodup hsem
    have hlt : n < 64 := Nat.mod_lt _ (by decide)
    have hcore := core_discarding s n none false c.val
    obtain ⟨hmoved, hkept, hframe⟩ :=
      rewatch_moves ((congrArg Core.ctx hcore).trans hctx) ((congrArg Core.wait hcore).trans hwait) hsem
    have hepoch : (u.rewatch n none c.val).epoch n = u.epoch n := (congrArg (State.epoch · n) hframe :)
    refine ⟨_, exec_xltInv_of_wat h hstart hall hctx hwait hothers hnodup hsem, ?_, fun p hp => ?_, ?_,
      (epoch_noted_xltInv hlt ..).trans ((epoch_setInvState hlt _).trans (hepoch.trans (epoch_discarding ..)))⟩
    · rw [core_noted]
      exact hmoved
    · rw [core_noted]
      exact hkept p hp
    · rw [cis_noted]
      exact (congrArg State.cis hframe :)

end Sys2Proof.Machine
